-- ==== Sys2Proof/Word.lean ====
section
/-! DEFINITION. The words of the CN340 (section 4.1 of spec/00_scope.md), and the small sets of names that commands carry:
channels, switches, encoder lines, frame classes and command buttons. -/

namespace Sys2Proof

/-- One byte of a trunk frame or of the configuration image. -/
abbrev Byte := BitVec 8

/-- A station time, a frame count, or the content of a sample slot: 32 bits that wrap (R57, R66, R135). -/
abbrev Word := BitVec 32

/-- The three axis positions of a station (section 4.5). -/
inductive Chan where
  | A | B | C
  deriving DecidableEq, Repr

/-- The two limit switches of a channel: LIM+ on LIMP_x and LIM− on LIMN_x (chapter 1). -/
inductive Switch where
  | pos | neg
  deriving DecidableEq, Repr

/-- The two encoder lines whose accepted levels the decoder compares (R3). -/
inductive QuadLine where
  | qa | qb
  deriving DecidableEq, Repr

/-- The three frame classes of the trunk, one transmit slot each (R73). -/
inductive FrameClass where
  | stop | wheel | state
  deriving DecidableEq, Repr

/-- The command buttons whose press is checked and published (R173); STOP and the RELEASE key are commands of their own. -/
inductive Button where
  | record | end_ | cue | run | abort | live | erase | protect | reference
  deriving DecidableEq, Repr

/-- One value for each channel of the station. -/
structure PerChan (α : Type) where
  a : α
  b : α
  c : α
  deriving DecidableEq, Repr

/-- The value of one channel. -/
def PerChan.get {α : Type} (t : PerChan α) : Chan → α
  | .A => t.a
  | .B => t.b
  | .C => t.c

/-- The record with one channel's value replaced. -/
def PerChan.set {α : Type} (t : PerChan α) (ch : Chan) (x : α) : PerChan α :=
  match ch with
  | .A => { t with a := x }
  | .B => { t with b := x }
  | .C => { t with c := x }

/-- The same function applied to every channel's value. -/
def PerChan.map {α β : Type} (t : PerChan α) (f : α → β) : PerChan β :=
  { a := f t.a, b := f t.b, c := f t.c }

/-- The same value for every channel. -/
def PerChan.all {α : Type} (x : α) : PerChan α := { a := x, b := x, c := x }

/-- The channels in the order A, B, C. -/
def Chan.list : List Chan := [.A, .B, .C]

/-- The channel number of records: 1 to 3 (section 4.5). -/
def Chan.number : Chan → Nat
  | .A => 1
  | .B => 2
  | .C => 3

/-- The channel a number names, if it names one. -/
def Chan.ofNumber? : Nat → Option Chan
  | 1 => some .A
  | 2 => some .B
  | 3 => some .C
  | _ => none

end Sys2Proof
end

