-- ==== Sys2Proof/Syntax.lean ====
section
/-! DEFINITION. The commands of the block: one constructor for each row of spec/opcode_table.json. A command's operands are what
the outside decides about it; what the block itself determines is read from its state. -/

namespace Sys2Proof

/-- The 49 operations and events of the CN340, in the table's order. -/
inductive Instr where
  /-- POWER_RESET (R178): the supply rises. -/
  | powerReset
  /-- WARM_RESET (R178): RESET has read low on 10 consecutive samples. -/
  | warmReset
  /-- RESET_RELEASE (R178, R179): the reset ends; `straps` are the levels of ST4 to ST0, ST4 most significant. -/
  | resetRelease (straps : BitVec 5)
  /-- START_UP_FINISH (R178, R180): the image read ends; `memory` is what the configuration memory holds from address 0, none
  when it does not acknowledge its device address. -/
  | startUpFinish (memory : Option (List Byte))
  /-- LEGAL_TRANSITION (R3): the accepted level of one encoder line has changed. -/
  | legalTransition (ch : Chan) (line : QuadLine)
  /-- ILLEGAL_TRANSITION (R3, R4): the accepted levels of QA and QB have changed in one sample. -/
  | illegalTransition (ch : Chan)
  /-- LEAK_EVENT (R4): a leak event of a channel. -/
  | leakEvent (ch : Chan)
  /-- INDEX_RISE (R7): the accepted level of QI changes from low to high. -/
  | indexRise (ch : Chan)
  /-- ANALOG_CONVERSION (R9): a conversion of AIN completes with a reading. -/
  | analogConversion (ch : Chan) (reading : BitVec 16)
  /-- LIMIT_FILTERED_CHANGE (R12): the filtered state of a limit switch changes to active or inactive. -/
  | limitFilteredChange (ch : Chan) (sw : Switch) (active : Bool)
  /-- SERVO_UPDATE (R18): the servo update of a channel. -/
  | servoUpdate (ch : Chan)
  /-- FREF_ARRIVAL (R59): the arrival of a pulse. -/
  | frefArrival
  /-- FRAME_DEADLINE_EXPIRY (R60): the frame timer's deadline expires. -/
  | frameDeadlineExpiry
  /-- FRAME_START (R82): a transition on a quiet line. -/
  | frameStart
  /-- LINE_QUIET (R72): the line is declared quiet; `heard` are the line levels the receive path sampled, bit by bit from the
  first transition of the frame, true for recessive. -/
  | lineQuiet (heard : List Bool)
  /-- PUBLISH_TIME_EXPIRY (R78): the publish time of the WAITING STATE frame expires. -/
  | publishTimeExpiry
  /-- WHEEL_TIMER_EXPIRY (R80): the wheel timer expires. -/
  | wheelTimerExpiry
  /-- SEND_START (R73): the access gap of a class's ready frame is reached. -/
  | sendStart (cls : FrameClass)
  /-- SEND_END (R76): the send ends; `others` are the levels the other stations drove at each bit of it, true for recessive (a
  list that ends early leaves the rest undriven). -/
  | sendEnd (others : List Bool)
  /-- WHEEL_STALE_EXPIRY (R52): the staleness timer of a channel's source expires. -/
  | wheelStaleExpiry (ch : Chan)
  /-- RUN_TIMER_EXPIRY (R48): the run timer of a channel expires. -/
  | runTimerExpiry (ch : Chan)
  /-- PRESENCE_FILTERED_CHANGE (R105): the filtered level of a presence line changes; line 0 is P1. -/
  | presenceFilteredChange (line : Fin 4) (occupied : Bool)
  /-- CLEAR_HOLD_EXPIRY (R106): the clear hold timer of the zone with this id expires. -/
  | clearHoldExpiry (zone : Nat)
  /-- ZONE_SCAN (R110). -/
  | zoneScan
  /-- ESTOP_FILTERED_CHANGE (R125): the filtered level of ESTOP_IN changes to closed or open. -/
  | estopFilteredChange (closed : Bool)
  /-- STOP_TIMER_EXPIRY (R122). -/
  | stopTimerExpiry
  /-- BRAKE_TIMER_EXPIRY (R123). -/
  | brakeTimerExpiry
  /-- RELEASE_TIMER_EXPIRY (R133). -/
  | releaseTimerExpiry
  /-- CHECK_RUN_COMPLETION (R144). -/
  | checkRunCompletion
  /-- RECORD (R152), adopted, with its serial, take and start frame. -/
  | record (serial take : Byte) (start : Word)
  /-- END (R155), adopted. -/
  | endTake (serial : Byte)
  /-- CUE (R156), adopted. -/
  | cue (serial take : Byte)
  /-- RUN (R159), adopted, with its serial, take, start frame, rate and length. -/
  | run (serial take : Byte) (start : Word) (rate length : BitVec 16)
  /-- ABORT (R164, R50), adopted. -/
  | abort (serial : Byte)
  /-- ERASE (R165), adopted. -/
  | erase (serial take : Byte)
  /-- PROTECT (R165), adopted. -/
  | protect (serial take : Byte)
  /-- LIVE (R166), adopted. -/
  | live (serial : Byte)
  /-- REFERENCE (R42), adopted. -/
  | reference
  /-- RELEASE (R131), adopted. -/
  | release
  /-- BUTTON_PRESS (R173): a filtered press of a command button of the desk. -/
  | buttonPress (button : Button)
  /-- STOP_BUTTON_PRESS (R126, R173). -/
  | stopButtonPress
  /-- RELEASE_KEY_PRESS (R171). -/
  | releaseKeyPress
  /-- RELEASE_KEY_LETGO (R171). -/
  | releaseKeyLetgo
  /-- RELEASE_HOLD_EXPIRY (R171). -/
  | releaseHoldExpiry
  /-- REFUSAL_LAMP_EXPIRY (R176). -/
  | refusalLampExpiry
  /-- PANEL_SCAN (R176). -/
  | panelScan
  /-- PWM_PERIOD_START (R36): a PWM period of a channel starts. -/
  | pwmPeriodStart (ch : Chan)
  /-- PROVISIONAL_COUNT_NOTED (R8): the raw level of a limit switch turns active, or returns to inactive. -/
  | provisionalCountNoted (ch : Chan) (sw : Switch) (active : Bool)
  /-- FRAME_OVERSIZE (R82): the byte count of the frame under reception reaches 145. -/
  | frameOversize
  deriving DecidableEq, Repr

end Sys2Proof
end

