-- ==== Sys2Proof/Decode.lean ====
section
/-! DEFINITION. Which command a word spells. The rows of spec/opcode_table.json carry no bits (their "fields" are empty and none
has "fixed"), so no word spells a command of this block. -/

namespace Sys2Proof

/-- The command that a word of `nbits` bits spells by the table's bits: none, since the table gives no row any. -/
def decodeTableWord (_nbits _w : Nat) : Option Instr := none

end Sys2Proof
end

