-- ==== Sys2Proof/Machine/Arith.lean ====
section
/-! DEFINITION. The integer functions of section 4.2 and the readings of the station clock (R57). -/

namespace Sys2Proof.Machine

/-- floor(a / b), toward minus infinity also for negative a (section 4.2). -/
def floorDiv (a b : Int) : Int := Int.fdiv a b

/-- ceil(n / d) of natural numbers, d above 0. -/
def ceilDiv (n d : Nat) : Nat := (n + d - 1) / d

/-- `x` clamped into [lo, hi] (section 4.2). -/
def clampInt (lo hi x : Int) : Int := if x < lo then lo else if hi < x then hi else x

/-- One more, staying at `max` (section 4.2: counters saturate). -/
def satIncr (max n : Nat) : Nat := if n < max then n + 1 else n

/-- The binary digits of the root from bit k − 1 down, each kept when the square still fits. -/
def isqrtFrom : Nat → Nat → Nat → Nat
  | 0, _, root => root
  | k + 1, n, root => isqrtFrom k n (if (root + 2 ^ k) * (root + 2 ^ k) ≤ n then root + 2 ^ k else root)

/-- isqrt(n): the largest integer whose square does not exceed n (section 4.2). -/
def isqrt (n : Nat) : Nat := isqrtFrom (n.log2 / 2 + 1) n 0

/-- The station time `us` microseconds after `t`, modulo 2^32 (R57). -/
def after (t : Word) (us : Nat) : Word := t + BitVec.ofNat 32 us

/-- The difference of two clock readings, modulo 2^32 (R57). -/
def elapsed (now since : Word) : Nat := (now - since).toNat

/-- Whether the clock reads a station time or one after it: no duration in the part reaches 2^31 µs (R57). -/
def reached (now time : Word) : Bool := elapsed now time < 2 ^ 31

end Sys2Proof.Machine
end

