-- ==== Sys2Proof/Machine/Bits.lean ====
section
/-! DEFINITION. Byte order (section 4.3), the two check codes (section 4.4), and the bits of a frame on the line: stuffing, its
removal, and gathering into bytes (R71, R82). A line level is true when recessive, the level of a bit of value 1. -/

namespace Sys2Proof.Machine

/-! ## Bytes and fields, most significant byte first -/

/-- The two bytes of a 16-bit field. -/
def be16 (w : BitVec 16) : List Byte := [w.extractLsb' 8 8, w.extractLsb' 0 8]

/-- The four bytes of a 32-bit field. -/
def be32 (w : Word) : List Byte := [w.extractLsb' 24 8, w.extractLsb' 16 8, w.extractLsb' 8 8, w.extractLsb' 0 8]

/-- Byte i of a body or an image; a byte beyond its end reads 0 (no field of a frame or image that passes its length checks lies
there). -/
def byteAt (b : List Byte) (i : Nat) : Byte := b.getD i 0

/-- The unsigned value of byte i. -/
def natAt (b : List Byte) (i : Nat) : Nat := (byteAt b i).toNat

/-- The 16-bit field at offset i. -/
def word16At (b : List Byte) (i : Nat) : BitVec 16 := byteAt b i ++ byteAt b (i + 1)

/-- The 32-bit field at offset i. -/
def word32At (b : List Byte) (i : Nat) : Word := (byteAt b i ++ byteAt b (i + 1)) ++ (byteAt b (i + 2) ++ byteAt b (i + 3))

/-- A signed 32-bit field, two's complement (R181). -/
def intAt (b : List Byte) (i : Nat) : Int := (word32At b i).toInt

/-- The four bytes of a word, least significant first: the order of the take check word alone (R143). -/
def le32 (w : Word) : List Byte := [w.extractLsb' 0 8, w.extractLsb' 8 8, w.extractLsb' 16 8, w.extractLsb' 24 8]

/-! ## Check codes -/

/-- The bits of a byte, most significant first. -/
def bitsOf (b : Byte) : List Bool :=
  [b.getLsbD 7, b.getLsbD 6, b.getLsbD 5, b.getLsbD 4, b.getLsbD 3, b.getLsbD 2, b.getLsbD 1, b.getLsbD 0]

/-- One bit into the CRC-16 register, polynomial x^16 + x^12 + x^5 + 1 (section 4.4). -/
def crc16Bit (r : BitVec 16) (bit : Bool) : BitVec 16 :=
  if xor (r.getLsbD 15) bit then (r <<< 1) ^^^ 0x1021#16 else r <<< 1

/-- CRC-16 of a list of bytes: initial value all ones, no reflection, no final inversion (section 4.4). -/
def crc16 (bytes : List Byte) : BitVec 16 := (bytes.flatMap bitsOf).foldl crc16Bit 0xFFFF#16

/-- One bit into the CRC-32 register, reflected polynomial (section 4.4). -/
def crc32Bit (r : Word) (bit : Bool) : Word :=
  if xor (r.getLsbD 0) bit then (r >>> 1) ^^^ 0xEDB88320#32 else r >>> 1

/-- One byte into the CRC-32 register, from its least significant bit (R143). -/
def crc32Byte (r : Word) (b : Byte) : Word := (bitsOf b).reverse.foldl crc32Bit r

/-- One sample into the CRC-32 register, least significant byte first (R143). -/
def crc32Sample (r : Word) (sample : Word) : Word := (le32 sample).foldl crc32Byte r

/-- The register set to all ones (R143). -/
def crc32Start : Word := BitVec.allOnes 32

/-! ## Bits on the line -/

/-- Stuffing after a run of six equal bits on the line, stuffing bits counted in the runs (R71, log 9). `level` and `run` are
the last level and how often it has stood. -/
def stuffFrom (level : Bool) (run : Nat) : List Bool → List Bool
  | [] => []
  | b :: bs =>
    let n := if b = level then run + 1 else 1
    if n = 6 then b :: (!b) :: stuffFrom (!b) 1 bs else b :: stuffFrom b n bs

/-- The line levels of a frame's bits, stuffing included (R71). -/
def stuff (bits : List Bool) : List Bool := stuffFrom true 0 bits

/-- Removal of the bit that follows every run of six equal bits, whatever its level (R71); the removed bit begins the next run
(log 9). `skip` says that the next bit is to be removed. -/
def unstuffFrom (level : Bool) (run : Nat) (skip : Bool) : List Bool → List Bool
  | [] => []
  | b :: bs =>
    if skip then unstuffFrom b 1 false bs
    else
      let n := if b = level then run + 1 else 1
      b :: unstuffFrom b n (n = 6) bs

/-- The bits of a frame from its line levels (R71). -/
def unstuff (levels : List Bool) : List Bool := unstuffFrom true 0 false levels

/-- Bits gathered into bytes, most significant first; a final group of fewer than eight is discarded (R82). -/
def packBytes : List Bool → List Byte
  | b7 :: b6 :: b5 :: b4 :: b3 :: b2 :: b1 :: b0 :: rest =>
    BitVec.ofNat 8 (128 * b7.toNat + 64 * b6.toNat + 32 * b5.toNat + 16 * b4.toNat + 8 * b3.toNat + 4 * b2.toNat + 2 * b1.toNat
      + b0.toNat) :: packBytes rest
  | _ => []

/-- How many entries at the head of a list equal `level`. -/
def leadingRun (level : Bool) : List Bool → Nat
  | [] => 0
  | b :: bs => if b = level then leadingRun level bs + 1 else 0

/-- Line levels up to the end of the frame: of the run that leads into the quiet, at most seven bit times, since no frame holds a
longer run (R71, log 8). -/
def trimTail (levels : List Bool) : List Bool :=
  let r := levels.reverse
  let n := leadingRun (r.headD true) r
  (r.drop (n - 7)).reverse

/-- The whole bytes of a frame from the line levels sampled between its first transition and the quiet (R82). -/
def gather (heard : List Bool) : List Byte := packBytes (unstuff (trimTail heard))

/-- The line levels of a frame's bytes (R71). -/
def lineBits (bytes : List Byte) : List Bool := stuff (bytes.flatMap bitsOf)

/-- The envelope of section 12.4.1: start pattern, kind, body length, source, body, CRC-16. -/
def envelope (kind source : Byte) (body : List Byte) : List Byte :=
  let inner := kind :: BitVec.ofNat 8 body.length :: source :: body
  53 :: 202 :: (inner ++ be16 (crc16 inner))

end Sys2Proof.Machine
end

