-- ==== Sys2Proof/Config.lean ====
section
/-! DEFINITION. What the spec fixes as numbers of the part, and the one value it leaves open: which of several events that may be
taken in either order is taken first. -/

namespace Sys2Proof.Config

/-- FREE VALUE (log 2). The choice made at the n-th point where the spec lets events be taken in either order (sections 4.6,
R66, R92). It has no body: nothing can be proved of the order it gives. -/
opaque choice : Nat → Nat

/-- The largest position in counts, 2^31 − 1 (R3, R31). -/
def maxCount : Int := 2147483647

/-- The nominal period of a frame-rate code in µs (section 4.2 of chapter 4). An image carries codes 0 to 7 only (R58). -/
def nominalPeriod : Nat → Nat
  | 0 => 41708
  | 1 => 41667
  | 2 => 40000
  | 3 => 33367
  | 4 => 33333
  | 5 => 20000
  | 6 => 16683
  | _ => 16667

/-- The tolerance of a code: floor(period / 200) (R58). -/
def tolerance (code : Nat) : Nat := nominalPeriod code / 200

/-- The half period of a code: floor(period / 2) (R58). -/
def halfPeriod (code : Nat) : Nat := nominalPeriod code / 2

/-- Pages of the take memory (R135). -/
def pages : Nat := 128

/-- Slots of a page (R135). -/
def slotsPerPage : Nat := 512

end Sys2Proof.Config
end

