-- ==== Sys2Proof/Machine/State.lean ====
section
/-! DEFINITION. The state of a CN340: every piece of state the spec gives each block, the raw levels of its lines, and the queue
of commands; why a step can stop; and the machine right after reset. Plain data throughout. -/

namespace Sys2Proof.Machine

/-! ## Names of states, modes and codes -/

/-- Channel kinds (section 12.4.4). -/
inductive ChanKind where
  | unused | axis | wheel
  deriving DecidableEq, Repr

/-- Reference kinds (section 3.1). -/
inductive RefKind where
  | index | switch | endStops | absolute
  deriving DecidableEq, Repr

/-- Binding kinds (section 3.7). -/
inductive BindKind where
  | none | map | rate
  deriving DecidableEq, Repr

/-- Channel modes (section 2.2). -/
inductive Mode where
  | off | hold | live | cue | play | ref
  deriving DecidableEq, Repr

/-- Why a reference run failed (section 3.2). -/
inductive FailReason where
  | timeout | spanShort | stopped | aborted
  deriving DecidableEq, Repr

/-- Reference states (section 3.2). -/
inductive RefState where
  | notReferenced | search1 | search2 | parking | referenced
  | failed (reason : FailReason)
  deriving DecidableEq, Repr

/-- What an ARMED capture waits for (section 1.3). -/
inductive CaptureSource where
  | index | switchPos | switchNeg
  deriving DecidableEq, Repr

/-- Capture states (section 1.3). -/
inductive Capture where
  | disarmed
  | armed (source : CaptureSource)
  | captured (count : Int)
  deriving DecidableEq, Repr

/-- Lock states of the frame timer (section 4.3). -/
inductive Lock where
  | free | locking | locked | holdover
  deriving DecidableEq, Repr

/-- Stop states (section 8.1). -/
inductive StopState where
  | run | stopping | braking | halted | releasing
  deriving DecidableEq, Repr

/-- Cause kinds (section 8.2). An empty record has no kind. -/
inductive CauseKind where
  | restart | configInvalid | estopChain | deskStop | peerStop | peerSilent | duplicateStation | zoneBreach | hardLimit
  | following | feedback | stopTimeout
  deriving DecidableEq, Repr

/-- Results of an executed release (section 8.6.1). -/
inductive ReleaseResult where
  | none | released | refusedBusy | refusedCause
  deriving DecidableEq, Repr

/-- Freshness of a peer record (section 6.1). -/
inductive Freshness where
  | absent | fresh | stale
  deriving DecidableEq, Repr

/-- Arming states of a zone (section 7.2). -/
inductive Arming where
  | armed | holding | disarmed
  deriving DecidableEq, Repr

/-- Zone statuses (R113). -/
inductive ZoneStatus where
  | idle | entered | threatened | clear
  deriving DecidableEq, Repr

/-- Statuses of a directory entry (section 9.2). -/
inductive TakeStatus where
  | recording | complete | interrupted | damaged
  deriving DecidableEq, Repr

/-- Phases of the take engine (section 10.2). -/
inductive Phase where
  | idle | armedRec | recording | checking | cueing | cued | playing
  deriving DecidableEq, Repr

/-- Results of the take report (section 10.1). -/
inductive TakeResult where
  | none | done | stopped | aborted | refused
  deriving DecidableEq, Repr

/-- Fault codes of the take report (section 10.1). -/
inductive TakeFault where
  | none | takeExists | takeMissing | takeProtected | dirFull | storeFull | takeDamaged | rateMismatch | channelMismatch
  | notReferenced | notRunning | notLocked | notCued | lateStart | shortTake | busy | lockLost | alignLost
  deriving DecidableEq, Repr

/-- Phases of the start-up unit (R178). -/
inductive StartPhase where
  | held | reading | done
  deriving DecidableEq, Repr

/-- Validity of the image (R178). -/
inductive Validity where
  | undecided | valid | invalid
  deriving DecidableEq, Repr

/-- The receive path: no frame under way; gathering one; one that reached 145 bytes (R82); a frame on which the station itself
began a send, which is not received (R85). -/
inductive RxPath where
  | idle | gathering | oversize | deaf
  deriving DecidableEq, Repr

/-! ## Configuration, as the start-up unit hands it out (R180, R182) -/

/-- One point of a MAP binding. -/
structure MapPoint where
  w : Int
  r : Nat
  deriving DecidableEq, Repr

/-- The fields of one channel block. Enumerated fields a channel does not use hold their first code. -/
structure ChanCfg where
  kind : ChanKind
  analog : Bool
  reversed : Bool
  qfilt : Nat
  analogZero : Nat
  limits : Bool
  activeLow : Bool
  vmax : Nat
  amax : Nat
  astop : Nat
  kp : Nat
  ki : Nat
  kf : Nat
  sh : Nat
  imax : Nat
  feLimit : Nat
  pwmPeriod : Nat
  refKind : RefKind
  refNegative : Bool
  refSpeed : Nat
  refPosition : Int
  parkPosition : Int
  softLo : Int
  softHi : Int
  /-- seconds -/
  refTimeout : Nat
  stallThreshold : Nat
  minSpan : Nat
  endMargin : Nat
  refDrive : Nat
  inPosition : Nat
  takeTolerance : Nat
  bindKind : BindKind
  srcStation : Nat
  srcChannel : Nat
  /-- milliseconds -/
  wheelTimeout : Nat
  center : Int
  deadband : Nat
  gain : Nat
  points : List MapPoint
  deriving DecidableEq, Repr

/-- One axis interval of a zone (section 7.3). -/
structure Term where
  station : Nat
  channel : Nat
  lo : Int
  hi : Int
  deriving DecidableEq, Repr

/-- A zone's arming source (section 7.2): ALWAYS, or a line 1 to 4 of a station. -/
inductive ArmSource where
  | always
  | line (station line : Nat)
  deriving DecidableEq, Repr

/-- One zone record of the image (section 7.3). -/
structure ZoneCfg where
  id : Nat
  keepOut : Bool
  cap : Nat
  source : ArmSource
  /-- milliseconds -/
  clearHold : Nat
  actsOn : PerChan Bool
  terms : List Term
  deriving DecidableEq, Repr

/-- The header fields and the three channel blocks. -/
structure Cfg where
  desk : Nat
  frameRate : Nat
  /-- µs -/
  publishDelay : Nat
  peerTimeout : Nat
  /-- bit s marks station s -/
  required : Word
  cuePercent : Nat
  /-- ms -/
  stopTimeout : Nat
  /-- ms -/
  brakeEngage : Nat
  /-- ms -/
  brakeRelease : Nat
  /-- ms -/
  wheelPeriod : Nat
  /-- bit 0 for P1: 1 for ACTIVE_LOW -/
  polarity : BitVec 4
  chans : PerChan ChanCfg
  deriving DecidableEq, Repr

/-! ## Lines -/

/-- A filter of a sampled line: the level it passes on, and how many samples in a row have differed from it. -/
structure Filt where
  level : Bool
  run : Nat
  deriving DecidableEq, Repr

/-- The raw levels of one channel's lines; true is high. -/
structure ChanLines where
  qa : Bool
  qb : Bool
  qi : Bool
  ain : BitVec 16
  limp : Bool
  limn : Bool
  deriving DecidableEq, Repr

/-- The raw levels of the station's input lines; true is high (section 12.3). -/
structure Lines where
  chans : PerChan ChanLines
  fref : Bool
  estop : Bool
  /-- bit 0 is P1 -/
  presence : BitVec 4
  /-- bit 0 RECORD, then END, CUE, RUN, ABORT, LIVE, ERASE, PROTECT, REFERENCE, STOP -/
  buttons : BitVec 10
  key : Bool
  /-- bits 0 to 6 TS0 to TS6, bits 7 and 8 RS0 and RS1 -/
  selects : BitVec 9
  reset : Bool
  /-- the supply is good -/
  supply : Bool
  straps : BitVec 5
  /-- what the configuration memory holds; none when it does not acknowledge -/
  memory : Option (List Byte)
  /-- the level the other stations leave on the trunk: true recessive -/
  trunk : Bool
  deriving DecidableEq, Repr

/-- The levels of one channel's encoder lines at the 20 samples of one microsecond, bit 0 first. -/
structure Wave where
  qa : BitVec 20
  qb : BitVec 20
  qi : BitVec 20
  deriving DecidableEq, Repr

/-- What the outside drives in one microsecond: the encoder lines sample by sample, the trunk bit by bit (bit 0 first), and the
level of every line at its end. -/
structure LineSample where
  waves : PerChan Wave
  trunk : BitVec 4
  lines : Lines
  deriving DecidableEq, Repr

/-! ## Blocks -/

/-- What the start-up unit sends on the memory bus (R178): clock pulses, a stop condition, and a sequential read from an address of a
device. The waveform of each on CFG_SCL and CFG_SDA is outside the manual (section 1.4). -/
inductive BusAction where
  | clockPulses (count : Nat)
  | stop
  | read (device address : Nat)
  deriving DecidableEq, Repr

/-- Start-up unit (R178, R179). `bus` is what it has sent on the memory bus since the release. -/
structure StartUp where
  phase : StartPhase
  validity : Validity
  station : BitVec 5
  buffer : List Byte
  heldByPower : Bool
  resetRun : Nat
  bus : List BusAction
  deriving DecidableEq, Repr

/-- Feedback unit of one channel (chapter 1). `x` is the measured position: the encoder count of a quadrature channel, the
converted position of an analog one. The illegal-rate condition is `illegal ≥ 8` (R4). `rises` counts the index rises that the samples
have shown and that wait to be taken, the model's own (log 14). -/
structure Feedback where
  qa : Filt
  qb : Filt
  qi : Filt
  rises : Nat
  x : Int
  illegal : Nat
  rail : Bool
  saturation : Bool
  railRun : Nat
  goodRun : Nat
  group : List Nat
  limPos : Filt
  limNeg : Filt
  capture : Capture
  provisional : Option Int
  frozen : Option Int
  nextLeak : Option Word
  nextConversion : Option Word
  deriving DecidableEq, Repr

/-- Motion record and PWM generator of one channel (chapter 2). Widths and phase are in units of 50 ns. -/
structure Motion where
  mode : Mode
  hold : Int
  target : Int
  p : Int
  v : Int
  integ : Int
  u : Int
  ep : Int
  pos : Int
  cap : Nat
  lag : Nat
  sd : Nat
  targetClamped : Bool
  softLimit : Bool
  saturated : Bool
  following : Bool
  ring : Nat
  pwmHigh : Nat
  pwmNext : Nat
  pwmPhase : Nat
  dir : Bool
  dirNext : Bool
  nextUpdate : Option Word
  deriving DecidableEq, Repr

/-- Reference record of one channel (section 3.2). `goal` is the target of the run step in progress. -/
structure Reference where
  state : RefState
  softLo : Int
  softHi : Int
  stall : Nat
  endLo : Option Int
  endHi : Option Int
  origin : RefState
  offset : Option Int
  realign : Bool
  timer : Option Word
  goal : Int
  backOff : Bool
  deriving DecidableEq, Repr

/-- Source record of one channel's binding, and its MAP_CLAMPED flag (R51, R53). -/
structure Binding where
  held : Option Int
  seq : Option Byte
  fresh : Bool
  timer : Option Word
  mapClamped : Bool
  deriving DecidableEq, Repr

/-- Frame timer (section 4.3). `lastPulse` says that the last frame event was a pulse event. -/
structure FrameTimer where
  lock : Lock
  lastEvent : Option Word
  lastPulse : Bool
  deadline : Option Word
  lockCount : Nat
  holdCount : Nat
  period : Nat
  glitches : Nat
  count : Word
  aligned : Bool
  reading : Option (Byte × Word)
  frefLow : Bool
  deriving DecidableEq, Repr

/-- The six desk-command fields of a STATE body (section 6.1). -/
structure DeskContent where
  kind : Byte
  serial : Byte
  take : Byte
  start : Word
  rate : BitVec 16
  length : BitVec 16
  deriving DecidableEq, Repr

/-- A cause record that is not empty (R120). -/
structure CauseRec where
  kind : CauseKind
  origin : Byte
  channel : Byte
  zone : Byte
  frame : Word
  met : StopState
  deriving DecidableEq, Repr

/-- The stop controller's frame report (R131). -/
structure StopReport where
  state : StopState
  first : Option CauseRec
  last : Option CauseRec
  causes : Nat
  result : ReleaseResult
  resultCause : Option CauseKind
  deriving DecidableEq, Repr

/-- One channel's record of a STATE body (R19). -/
structure ChanRec where
  kind : ChanKind
  ref : RefState
  position : Int
  velocity : Int
  sd : Nat
  cap : Nat
  flags : Byte
  ring : Nat
  deriving DecidableEq, Repr

/-- The trunk diagnostics: the counters of R87. -/
structure Counters where
  collisions : Nat
  late : Nat
  framing : Nat
  oversize : Nat
  crc : Nat
  kind : Nat
  length : Nat
  source : Nat
  deriving DecidableEq, Repr

/-- The content of a STATE frame as it was built (R77). -/
structure StateBody where
  seq : Byte
  count : Word
  capable : Bool
  lock : Lock
  aligned : Bool
  stop : StopReport
  presence : BitVec 4
  phase : Phase
  take : Nat
  length : Nat
  result : TakeResult
  fault : TakeFault
  spoiled : Bool
  holdover : Bool
  serial : Byte
  desk : DeskContent
  chans : PerChan ChanRec
  glitches : Nat
  counters : Counters
  peer : Nat
  peerFresh : Freshness
  peerAge : Nat
  peerGaps : Nat
  deriving DecidableEq, Repr

/-- A STOP body (R81). -/
structure StopBody where
  origin : Byte
  kind : CauseKind
  channel : Byte
  zone : Byte
  frame : Word
  serial : Byte
  deriving DecidableEq, Repr

/-- The STATE slot (section 5.4). -/
inductive StateSlot where
  | empty
  | waiting (body : StateBody) (publish : Word)
  | ready (body : StateBody)
  deriving DecidableEq, Repr

/-- A HELD STOP slot (R81). -/
structure StopSlot where
  body : StopBody
  repeats : Nat
  deriving DecidableEq, Repr

/-- A frame in flight: its class, the line levels it drives (stuffing included, true recessive), when its send began, the levels
the other stations drove so far, whether its STOP body was replaced meanwhile (R81), and what a sent notice carries (R76). -/
structure Flight where
  cls : FrameClass
  bits : List Bool
  started : Word
  others : List Bool
  replaced : Bool
  seq : Byte
  desk : DeskContent
  deriving DecidableEq, Repr

/-- Trunk controller (chapter 5). -/
structure Trunk where
  stateSlot : StateSlot
  wheelSlot : Option (List Byte)
  stopSlot : Option StopSlot
  flight : Option Flight
  stateSeq : Byte
  wheelSeq : Byte
  wheelTimer : Option Word
  quietAt : Option Word
  lastTransition : Word
  level : Bool
  rx : RxPath
  heard : List Bool
  report : Option StopReport
  counters : Counters
  deriving DecidableEq, Repr

/-- One peer record (section 6.1); `content` is the body of the last STATE frame taken, as its bytes arrived (R181). -/
structure PeerRecord where
  freshness : Freshness
  age : Nat
  seq : Option Byte
  gaps : Nat
  content : Option (List Byte)
  deriving DecidableEq, Repr

/-- Peer table: the records of stations 1 to 30, and the desk record's own fields (R89). -/
structure PeerTable where
  peers : List PeerRecord
  earlier : Option (Byte × DeskContent)
  join : Option Byte
  adopted : Byte
  confirmed : Option DeskContent
  deriving DecidableEq, Repr

/-- A zone of the table with its arming record and its status as the last scan wrote it (sections 7.2 to 7.4). -/
structure Zone where
  cfg : ZoneCfg
  arming : Arming
  timer : Option Word
  mark : Bool
  status : ZoneStatus
  deriving DecidableEq, Repr

/-- Zone monitor (chapter 7); presence filters pass OCCUPIED as true. -/
structure ZoneMonitor where
  presence : List Filt
  zones : List Zone
  caps : PerChan Nat
  nextScan : Option Word
  deriving DecidableEq, Repr

/-- Stop controller (chapter 8); the chain filter passes CLOSED as true; `remembered` is indexed by station − 1. -/
structure StopCtl where
  state : StopState
  brakeReleased : Bool
  first : Option CauseRec
  last : Option CauseRec
  causes : Nat
  releaseFrame : Word
  result : ReleaseResult
  resultCause : Option CauseKind
  pendingRelease : Bool
  stopTimer : Option Word
  brakeTimer : Option Word
  releaseTimer : Option Word
  estop : Filt
  dupWindow : Nat
  stopSerial : Byte
  remembered : List (Option Byte)
  deriving DecidableEq, Repr

/-- A directory entry (section 9.2); `normalized` holds the sample kind of each channel. -/
structure Entry where
  take : Nat
  status : TakeStatus
  protect : Bool
  mask : PerChan Bool
  normalized : PerChan Bool
  rate : Nat
  length : Nat
  pages : List Nat
  crc : Word
  deriving DecidableEq, Repr

/-- A check run in progress: the take it reads and when it completes (R144). -/
structure CheckRun where
  take : Nat
  completes : Word
  deriving DecidableEq, Repr

/-- Take store (chapter 9). `slots` lists the slots that do not hold 0, slot numbers strictly rising. -/
structure Store where
  slots : List (Nat × Word)
  free : List Nat
  dir : List Entry
  check : Option CheckRun
  deriving DecidableEq, Repr

/-- Take engine (section 10.1). `filledAt` is the station time of the append that found the store full, until the clock moves on: what an
END at that same station time needs (R155), the model's own (log 29). -/
structure TakeEngine where
  phase : Phase
  take : Nat
  start : Option Word
  rate : Nat
  playLen : Nat
  tau : Nat
  marks : PerChan Bool
  length : Nat
  result : TakeResult
  fault : TakeFault
  spoiled : Bool
  holdover : Bool
  serial : Byte
  liveHeld : Bool
  filledAt : Option Word
  deriving DecidableEq, Repr

/-- Lamp outputs set by the panel scan (R176); REFUSED is lit while the refusal lamp timer runs. -/
structure Lamps where
  ready : Bool
  recording : Bool
  play : Bool
  stopped : Bool
  fault : Bool
  spoiled : Bool
  deriving DecidableEq, Repr

/-- Desk unit (chapter 11); filters pass PRESSED, or 1, as true, in the order of `Lines`. -/
structure Desk where
  buttons : List Filt
  key : Filt
  selects : List Filt
  holdTimer : Option Word
  serial : Nat
  current : DeskContent
  watched : Option Nat
  done : Bool
  refusalTimer : Option Word
  lamps : Lamps
  nextScan : Option Word
  deriving DecidableEq, Repr

/-- The whole station, the levels of its lines, and the commands that wait. -/
structure State where
  pending : List Instr
  clock : Word
  lines : Lines
  inputs : List LineSample
  sampled : List (List Instr)
  order : List Nat
  draws : Nat
  su : StartUp
  cfg : Cfg
  fb : PerChan Feedback
  mo : PerChan Motion
  rf : PerChan Reference
  bd : PerChan Binding
  ft : FrameTimer
  tk : Trunk
  pt : PeerTable
  zm : ZoneMonitor
  sc : StopCtl
  ts : Store
  te : TakeEngine
  dk : Desk
  deriving DecidableEq, Repr

/-! ## Why a step can stop -/

/-- Faults. The spec names nothing that stops the machine, so there is none: causes, discards, refusals of requests and take
faults are part of the state (safe: no step ends in a fault). -/
inductive Fault where
  deriving DecidableEq, Repr

/-- Refusals. -/
inductive Refusal where
  /-- Raised by exec for a command that has no meaning yet; every command has one, so none is raised (safe). -/
  | notModelled (mnemonic : String)
  deriving DecidableEq, Repr

/-! ## Reset values -/

/-- The desk-command fields of a station that publishes no command (R170, R177). -/
def DeskContent.zero : DeskContent := { kind := 0, serial := 0, take := 0, start := 0, rate := 0, length := 0 }

/-- A channel taken as UNUSED (R1). -/
def ChanCfg.unused : ChanCfg :=
  { kind := .unused, analog := false, reversed := false, qfilt := 0, analogZero := 0, limits := false, activeLow := false
    vmax := 0, amax := 0, astop := 0, kp := 0, ki := 0, kf := 0, sh := 0, imax := 0, feLimit := 0, pwmPeriod := 0
    refKind := .index, refNegative := false, refSpeed := 0, refPosition := 0, parkPosition := 0, softLo := 0, softHi := 0
    refTimeout := 0, stallThreshold := 0, minSpan := 0, endMargin := 0, refDrive := 0, inPosition := 0, takeTolerance := 0
    bindKind := .none, srcStation := 0, srcChannel := 0, wheelTimeout := 0, center := 0, deadband := 0, gain := 0
    points := [] }

/-- What the blocks work with until the finish, and on a station with an invalid image: every channel UNUSED (R1), code 2
(R58), publish_delay 2,000 (R78), peer_timeout 3, no required peer and no desk (R89), every polarity ACTIVE_HIGH (R104). The spec gives
no cue_percent, stop_timeout, brake_engage, brake_release or wheel_period there: 25, 1000, 0, 0 and 2 (DESIGN CHOICE, log 43). -/
def Cfg.unconfigured : Cfg :=
  { desk := 0, frameRate := 2, publishDelay := 2000, peerTimeout := 3, required := 0, cuePercent := 25, stopTimeout := 1000
    brakeEngage := 0, brakeRelease := 0, wheelPeriod := 2, polarity := 0, chans := .all .unused }

/-- Line levels the model starts with (DESIGN CHOICE, log 4): encoder, FREF and chain lines low, panel lines high, RESET high, the
supply good, straps 0, a configuration memory that does not answer, an undriven trunk. -/
def Lines.initial : Lines :=
  { chans := .all { qa := false, qb := false, qi := false, ain := 0, limp := false, limn := false }
    fref := false, estop := false, presence := 0, buttons := 1023, key := true, selects := 511, reset := true, supply := true
    straps := 0, memory := none, trunk := true }

/-- R17. -/
def Feedback.initial : Feedback :=
  { qa := ⟨false, 0⟩, qb := ⟨false, 0⟩, qi := ⟨false, 0⟩, rises := 0, x := 0, illegal := 0, rail := false, saturation := false
    railRun := 0, goodRun := 0, group := [], limPos := ⟨false, 0⟩, limNeg := ⟨false, 0⟩, capture := .disarmed
    provisional := none, frozen := none, nextLeak := none, nextConversion := none }

/-- R40. -/
def Motion.initial : Motion :=
  { mode := .off, hold := 0, target := 0, p := 0, v := 0, integ := 0, u := 0, ep := 0, pos := 0, cap := 100, lag := 0, sd := 0
    targetClamped := false, softLimit := false, saturated := false, following := false, ring := 0
    pwmHigh := 0, pwmNext := 0, pwmPhase := 0, dir := false, dirNext := false, nextUpdate := none }

/-- R41. -/
def Reference.initial : Reference :=
  { state := .notReferenced, softLo := 0, softHi := 0, stall := 0, endLo := none, endHi := none, origin := .notReferenced
    offset := none, realign := false, timer := none, goal := 0, backOff := false }

/-- R51. -/
def Binding.initial : Binding := { held := none, seq := none, fresh := false, timer := none, mapClamped := false }

/-- R70. -/
def FrameTimer.initial : FrameTimer :=
  { lock := .free, lastEvent := none, lastPulse := false, deadline := none, lockCount := 0, holdCount := 0, period := 40000
    glitches := 0, count := 0, aligned := false, reading := none, frefLow := false }

/-- R87. -/
def Counters.zero : Counters :=
  { collisions := 0, late := 0, framing := 0, oversize := 0, crc := 0, kind := 0, length := 0, source := 0 }

/-- R88. The table there gives the last transition and the last line level no value: 0 and recessive until the finish sets both from the
clock and the line (DESIGN CHOICE, log 46). -/
def Trunk.initial : Trunk :=
  { stateSlot := .empty, wheelSlot := none, stopSlot := none, flight := none, stateSeq := 0, wheelSeq := 0, wheelTimer := none
    quietAt := none, lastTransition := 0, level := true, rx := .idle, heard := [], report := none, counters := .zero }

/-- R90. -/
def PeerRecord.initial : PeerRecord := { freshness := .absent, age := 0, seq := none, gaps := 0, content := none }

/-- R90. -/
def PeerTable.initial : PeerTable :=
  { peers := List.replicate 30 .initial, earlier := none, join := none, adopted := 0, confirmed := none }

/-- R117. -/
def ZoneMonitor.initial : ZoneMonitor :=
  { presence := List.replicate 4 ⟨true, 0⟩, zones := [], caps := .all 100, nextScan := none }

/-- The RESTART record of a station (R134). -/
def CauseRec.restart (station : BitVec 5) : CauseRec :=
  { kind := .restart, origin := station.setWidth 8, channel := 0, zone := 0, frame := 0, met := .halted }

/-- R134. -/
def StopCtl.initial (station : BitVec 5) : StopCtl :=
  { state := .halted, brakeReleased := false, first := some (.restart station), last := some (.restart station), causes := 1
    releaseFrame := 0, result := .none, resultCause := none, pendingRelease := false
    stopTimer := none, brakeTimer := none, releaseTimer := none, estop := ⟨false, 0⟩, dupWindow := 0, stopSerial := 0
    remembered := List.replicate 30 none }

/-- R149, after a power reset. -/
def Store.initial : Store := { slots := [], free := List.range 128, dir := [], check := none }

/-- R151. -/
def TakeEngine.initial : TakeEngine :=
  { phase := .idle, take := 0, start := none, rate := 256, playLen := 0, tau := 0, marks := .all false, length := 0
    result := .none, fault := .none, spoiled := false, holdover := false, serial := 0, liveHeld := false
    filledAt := none }

/-- R177. -/
def Desk.initial : Desk :=
  { buttons := List.replicate 10 ⟨true, 0⟩, key := ⟨true, 0⟩, selects := List.replicate 9 ⟨true, 0⟩, holdTimer := none
    serial := 0, current := .zero, watched := none, done := false, refusalTimer := none
    lamps := { ready := false, recording := false, play := false, stopped := false, fault := false, spoiled := false }
    nextScan := none }

/-- R178: the unit is HELD with validity UNDECIDED and an empty buffer. -/
def StartUp.held (byPower : Bool) : StartUp :=
  { phase := .held, validity := .undecided, station := 0, buffer := [], heldByPower := byPower, resetRun := 0
    bus := [] }

/-- The machine right after a power reset, while the reset is held: every block at its reset values (R178), nothing waiting. -/
def State.reset : State :=
  { pending := [], clock := 0, lines := .initial, inputs := [], sampled := [], order := [], draws := 0, su := .held true
    cfg := .unconfigured, fb := .all .initial, mo := .all .initial, rf := .all .initial, bd := .all .initial, ft := .initial
    tk := .initial, pt := .initial, zm := .initial, sc := .initial 0, ts := .initial, te := .initial, dk := .initial }

end Sys2Proof.Machine
end

