-- ==== Sys2Proof/Machine/Ops.lean ====
section
/-! DEFINITION. Named operations over the state: channel records, the clock, the free order of events, the take memory. -/

namespace Sys2Proof.Machine

/-! ## Channel records -/

/-- The feedback record of a channel changed by `f`. -/
def modFb (ch : Chan) (f : Feedback → Feedback) (s : State) : State := { s with fb := s.fb.set ch (f (s.fb.get ch)) }

/-- The motion record of a channel changed by `f`. -/
def modMo (ch : Chan) (f : Motion → Motion) (s : State) : State := { s with mo := s.mo.set ch (f (s.mo.get ch)) }

/-- The reference record of a channel changed by `f`. -/
def modRf (ch : Chan) (f : Reference → Reference) (s : State) : State := { s with rf := s.rf.set ch (f (s.rf.get ch)) }

/-- The source record of a channel changed by `f`. -/
def modBd (ch : Chan) (f : Binding → Binding) (s : State) : State := { s with bd := s.bd.set ch (f (s.bd.get ch)) }

/-- A channel's configuration as handed out. -/
def chanCfg (s : State) (ch : Chan) : ChanCfg := s.cfg.chans.get ch

/-- Whether a channel is an AXIS channel. -/
def isAxis (s : State) (ch : Chan) : Bool := (chanCfg s ch).kind = .axis

/-- Whether a channel is a WHEEL channel. -/
def isWheel (s : State) (ch : Chan) : Bool := (chanCfg s ch).kind = .wheel

/-- The AXIS channels of the station, in the order A, B, C: the recorded channels of a take (R150). -/
def axisChans (s : State) : List Chan := Chan.list.filter (isAxis s)

/-- An operation carried out for each of some channels in turn. -/
def forChans (f : Chan → State → State) : List Chan → State → State
  | [], s => s
  | ch :: rest, s => forChans f rest (f ch s)

/-! ## The station -/

/-- The start-up unit has finished (R178); before that no block acts on events of its own. -/
def started (s : State) : Bool := s.su.phase = .done

/-- The station holds a valid image. -/
def validImage (s : State) : Bool := s.su.validity = .valid

/-- The station number as records and frames carry it (R179). -/
def stationByte (s : State) : Byte := s.su.station.setWidth 8

/-- The station is take-capable: a valid image with at least one AXIS channel (R150). -/
def takeCapable (s : State) : Bool := validImage s && Chan.list.any (isAxis s)

/-- The station is the desk station, and its desk unit is active (R170). -/
def deskActive (s : State) : Bool := started s && validImage s && s.cfg.desk ≠ 0 && s.cfg.desk = s.su.station.toNat

/-- The station executes desk commands: a valid image whose desk field names a desk (R98). -/
def executesDesk (s : State) : Bool := started s && validImage s && s.cfg.desk ≠ 0

/-- A desk command as it reaches its executing block; a station that executes none stays as it is (R98). -/
def deskCommand (f : State → State) (s : State) : State := if executesDesk s then f s else s

/-- The event of a timer happens at the timer's station time: the clock is moved there unless it already reads that time or a
later one (log 3). -/
def advanceTo (time : Word) (s : State) : State := if reached s.clock time then s else { s with clock := time }

/-! ## Free order -/

/-- A free choice among `n` possibilities: the outside's next entry of `order`, or the free value of `Config.choice` (log 2). -/
def draw (n : Nat) (s : State) : Nat × State :=
  match s.order with
  | k :: rest => (k % n, { s with order := rest, draws := s.draws + 1 })
  | [] => (Config.choice s.draws % n, { s with draws := s.draws + 1 })

/-- A list in a free order: every order of it is possible. -/
def shuffle {α : Type} : List α → State → List α × State
  | [], s => ([], s)
  | x :: xs, s =>
    let (ys, s₁) := shuffle xs s
    let (k, s₂) := draw (ys.length + 1) s₁
    (ys.insertIdx k x, s₂)

/-- Events of several blocks that take one event independently, carried out in a free order (R66, R92). -/
def inAnyOrder (events : List (State → State)) (s : State) : State :=
  let (chosen, s₁) := shuffle events s
  chosen.foldl (fun t f => f t) s₁

/-! ## Take memory (R135) -/

/-- The content of a slot. -/
def slotRead : List (Nat × Word) → Nat → Word
  | [], _ => 0
  | (k, v) :: rest, a => if k = a then v else slotRead rest a

/-- A slot put before the rest of the memory; a slot that holds 0 is not listed. -/
def putSlot (a : Nat) (w : Word) (rest : List (Nat × Word)) : List (Nat × Word) := if w = 0#32 then rest else (a, w) :: rest

/-- The memory with one slot written. -/
def slotWrite : List (Nat × Word) → Nat → Word → List (Nat × Word)
  | [], a, w => putSlot a w []
  | (k, v) :: rest, a, w =>
    if a < k then putSlot a w ((k, v) :: rest)
    else if a = k then putSlot a w rest
    else (k, v) :: slotWrite rest a w

/-- Slots strictly rising from `low` on, below 65,536, none holding 0. -/
def slotsWfFrom (low : Nat) : List (Nat × Word) → Bool
  | [] => true
  | (k, v) :: rest => low ≤ k && k < 65536 && v ≠ 0#32 && slotsWfFrom (k + 1) rest

/-- The canonical form of the take memory. -/
def Memory.wf (m : List (Nat × Word)) : Bool := slotsWfFrom 0 m

/-- A slot of the take memory: slot s of page p is memory slot p × 512 + s (R135). -/
def memorySlot (page slot : Nat) : Nat := page * Config.slotsPerPage + slot

end Sys2Proof.Machine
end

