-- ==== Sys2Proof/Machine/Operands.lean ====
section
/-! DEFINITION. The fields of commands and frames: codes (section 12.4.4), STATE, WHEEL and STOP bodies as bytes (R181), the reading
of a received body, and the conversions between counts and ring positions. -/

namespace Sys2Proof.Machine

/-! ## Codes, numbered from 0 in the order listed -/

def codeStop : StopState → Byte
  | .run => 0
  | .stopping => 1
  | .braking => 2
  | .halted => 3
  | .releasing => 4

/-- Code 0 is none, an empty record. -/
def codeCause : CauseKind → Byte
  | .restart => 1
  | .configInvalid => 2
  | .estopChain => 3
  | .deskStop => 4
  | .peerStop => 5
  | .peerSilent => 6
  | .duplicateStation => 7
  | .zoneBreach => 8
  | .hardLimit => 9
  | .following => 10
  | .feedback => 11
  | .stopTimeout => 12

def codeRelease : ReleaseResult → Byte
  | .none => 0
  | .released => 1
  | .refusedBusy => 2
  | .refusedCause => 3

def codeLock : Lock → Byte
  | .free => 0
  | .locking => 1
  | .locked => 2
  | .holdover => 3

def codePhase : Phase → Byte
  | .idle => 0
  | .armedRec => 1
  | .recording => 2
  | .checking => 3
  | .cueing => 4
  | .cued => 5
  | .playing => 6

def codeResult : TakeResult → Byte
  | .none => 0
  | .done => 1
  | .stopped => 2
  | .aborted => 3
  | .refused => 4

def codeFault : TakeFault → Byte
  | .none => 0
  | .takeExists => 1
  | .takeMissing => 2
  | .takeProtected => 3
  | .dirFull => 4
  | .storeFull => 5
  | .takeDamaged => 6
  | .rateMismatch => 7
  | .channelMismatch => 8
  | .notReferenced => 9
  | .notRunning => 10
  | .notLocked => 11
  | .notCued => 12
  | .lateStart => 13
  | .shortTake => 14
  | .busy => 15
  | .lockLost => 16
  | .alignLost => 17

def codeFreshness : Freshness → Byte
  | .absent => 0
  | .fresh => 1
  | .stale => 2

def codeChanKind : ChanKind → Byte
  | .unused => 0
  | .axis => 1
  | .wheel => 2

/-- The reference state in bits 7 to 4 and the failure reason in bits 3 to 0. -/
def codeRef : RefState → Byte
  | .notReferenced => 0
  | .search1 => 16
  | .search2 => 32
  | .parking => 48
  | .referenced => 64
  | .failed .timeout => 81
  | .failed .spanShort => 82
  | .failed .stopped => 83
  | .failed .aborted => 84

/-- Desk command kinds: 0 is NONE; these ten can be adopted (R98). -/
inductive DeskKind where
  | record | end_ | cue | run | abort | erase | protect | live | reference | release
  deriving DecidableEq, Repr

def codeDesk : DeskKind → Byte
  | .record => 1
  | .end_ => 2
  | .cue => 3
  | .run => 4
  | .abort => 5
  | .erase => 6
  | .protect => 7
  | .live => 8
  | .reference => 9
  | .release => 10

/-- The desk command kind a code names, if it names one. -/
def deskKind? (code : Byte) : Option DeskKind :=
  [DeskKind.record, .end_, .cue, .run, .abort, .erase, .protect, .live, .reference, .release].find? (fun k => codeDesk k = code)

/-! ## Bodies as bytes -/

/-- A natural number in one byte. -/
def nat8 (n : Nat) : Byte := BitVec.ofNat 8 n

/-- A natural number in a 16-bit field. -/
def nat16 (n : Nat) : List Byte := be16 (BitVec.ofNat 16 n)

/-- A natural number in a 32-bit field. -/
def nat32 (n : Nat) : List Byte := be32 (BitVec.ofNat 32 n)

/-- A signed number in a 32-bit field, two's complement. -/
def int32 (i : Int) : List Byte := be32 (BitVec.ofInt 32 i)

/-- A Bool as one bit of a byte. -/
def bit (b : Bool) (place : Nat) : Byte := if b then BitVec.ofNat 8 (2 ^ place) else 0

/-- The kind byte of a cause record: code 0 when it is empty (R77). -/
def causeKindByte (c : Option CauseRec) : Byte := (c.map fun r => codeCause r.kind).getD 0

/-- The origin byte of a cause record. -/
def causeOriginByte (c : Option CauseRec) : Byte := (c.map fun r => r.origin).getD 0

/-- Met state and channel, zone id and frame count of a cause record: six bytes (section 12.4.2). -/
def causeTail : Option CauseRec → List Byte
  | none => [0, 0, 0, 0, 0, 0]
  | some r => ((codeStop r.met <<< 4) ||| (r.channel &&& 15)) :: r.zone :: be32 r.frame

/-- A channel record: 18 bytes. -/
def chanRecBytes (c : ChanRec) : List Byte :=
  [codeChanKind c.kind, codeRef c.ref] ++ int32 c.position ++ int32 c.velocity ++ nat32 c.sd ++ [nat8 c.cap, c.flags]
    ++ nat16 c.ring

/-- The desk-command fields: 11 bytes. -/
def deskBytes (d : DeskContent) : List Byte := [d.kind, d.serial, d.take] ++ be32 d.start ++ be16 d.rate ++ be16 d.length

/-- The trunk diagnostics: eight counters of two bytes. -/
def counterBytes (c : Counters) : List Byte :=
  nat16 c.collisions ++ nat16 c.late ++ nat16 c.framing ++ nat16 c.oversize ++ nat16 c.crc ++ nat16 c.kind ++ nat16 c.length
    ++ nat16 c.source

/-- The 123 bytes of a STATE body (section 12.4.2). -/
def stateBytes (b : StateBody) : List Byte :=
  [b.seq] ++ be32 b.count
    ++ [bit b.capable 7 ||| (codeLock b.lock <<< 5) ||| bit b.aligned 4, codeStop b.stop.state,
        causeKindByte b.stop.first, causeOriginByte b.stop.first, causeKindByte b.stop.last, causeOriginByte b.stop.last,
        nat8 b.stop.causes, codeRelease b.stop.result, (b.stop.resultCause.map codeCause).getD 0, b.presence.setWidth 8,
        codePhase b.phase, nat8 b.take]
    ++ nat16 b.length
    ++ [codeResult b.result, codeFault b.fault, bit b.spoiled 0 ||| bit b.holdover 1, b.serial]
    ++ deskBytes b.desk
    ++ chanRecBytes b.chans.a ++ chanRecBytes b.chans.b ++ chanRecBytes b.chans.c
    ++ nat16 b.glitches ++ counterBytes b.counters
    ++ [nat8 b.peer, codeFreshness b.peerFresh, nat8 b.peerAge] ++ nat16 b.peerGaps
    ++ causeTail b.stop.first ++ causeTail b.stop.last

/-- The 13 bytes of a WHEEL body (section 12.4.3). -/
def wheelBytes (seq : Byte) (values : PerChan Int) : List Byte :=
  [seq] ++ int32 values.a ++ int32 values.b ++ int32 values.c

/-- The 9 bytes of a STOP body (section 12.4.3). -/
def stopBytes (b : StopBody) : List Byte := [b.origin, codeCause b.kind, b.channel, b.zone] ++ be32 b.frame ++ [b.serial]

/-! ## Reading a received body (R181: each rule acts on the codes it names) -/

/-- Frame count of the build. -/
def bodyCount (b : List Byte) : Word := word32At b 1

/-- The take-capable flag. -/
def bodyCapable (b : List Byte) : Bool := (byteAt b 5).getLsbD 7

/-- Whether the published stop state is STOPPING, BRAKING or HALTED (R129). -/
def bodyStopped (b : List Byte) : Bool :=
  byteAt b 6 = codeStop .stopping || byteAt b 6 = codeStop .braking || byteAt b 6 = codeStop .halted

/-- The published level of presence line 1 to 4: true OCCUPIED. -/
def bodyPresence (b : List Byte) (line : Nat) : Bool := (byteAt b 14).getLsbD (line - 1)

/-- The desk-command content. -/
def bodyDesk (b : List Byte) : DeskContent :=
  { kind := byteAt b 23, serial := byteAt b 24, take := byteAt b 25, start := word32At b 26, rate := word16At b 30
    length := word16At b 32 }

/-- Where the record of channel 1 to 3 begins. -/
def chanRecAt (channel : Nat) : Nat := 34 + 18 * (channel - 1)

/-- Whether the record publishes the channel as REFERENCED. -/
def bodyReferenced (b : List Byte) (channel : Nat) : Bool := natAt b (chanRecAt channel + 1) / 16 = 4

/-- The published position, velocity and stopping distance of a channel. -/
def bodyMotion (b : List Byte) (channel : Nat) : Int × Int × Int :=
  (intAt b (chanRecAt channel + 2), intAt b (chanRecAt channel + 6), (word32At b (chanRecAt channel + 10)).toNat)

/-! ## Ring positions (R19, R53, R139, R157) -/

/-- The place of a count between the soft limits: 0 at soft_lo, 65,535 at soft_hi, clamped. -/
def ringOfCount (softLo softHi count : Int) : Int := clampInt 0 65535 (floorDiv ((count - softLo) * 65535) (softHi - softLo))

/-- The count of a ring position. -/
def countOfRing (softLo softHi ring : Int) : Int := softLo + floorDiv (ring * (softHi - softLo)) 65535

/-- The whole counts of a setpoint: floor(P / 256). -/
def wholeCounts (p : Int) : Int := floorDiv p 256

end Sys2Proof.Machine
end

