-- ==== Sys2Proof/Machine/Flags.lean ====
section
/-! DEFINITION. Conditions, flags and output levels that are computed from the records that hold them. -/

namespace Sys2Proof.Machine

/-! ## Feedback unit -/

/-- The illegal-rate condition: the counter at 8 or above (R4). -/
def illegalRate (f : Feedback) : Bool := 8 ≤ f.illegal

/-- FB_FAULT: any of the illegal-rate, rail and saturation conditions is present (R14). -/
def fbFault (f : Feedback) : Bool := illegalRate f || f.rail || f.saturation

/-- The published wheel value: X, or the frozen value (R16). -/
def publishedWheel (f : Feedback) : Int := f.frozen.getD f.x

/-! ## Reference sequencer -/

/-- A run is in progress: SEARCH_1, SEARCH_2 or PARKING (section 3.2). -/
def inRun (r : Reference) : Bool := r.state = .search1 || r.state = .search2 || r.state = .parking

/-- An END_STOPS run is in progress on a channel (section 3.2). -/
def endStopsRun (s : State) (ch : Chan) : Bool := (chanCfg s ch).refKind = .endStops && inRun (s.rf.get ch)

/-- A channel is REFERENCED. -/
def referenced (s : State) (ch : Chan) : Bool := (s.rf.get ch).state = .referenced

/-- The home switch of a SWITCH channel: the switch at the end of travel in ref_dir (section 3.1). -/
def homeSwitch (c : ChanCfg) : Switch := if c.refNegative then .neg else .pos

/-- The filtered state of a limit switch. -/
def limitState (f : Feedback) : Switch → Bool
  | .pos => f.limPos.level
  | .neg => f.limNeg.level

/-! ## Binding unit -/

/-- WHEEL_STALE (R51). -/
def wheelStale (s : State) (ch : Chan) : Bool := (chanCfg s ch).bindKind ≠ .none && !(s.bd.get ch).fresh

/-- MAP_CLAMPED: cleared in modes other than LIVE and on channels without a MAP binding (R53). -/
def mapClampedFlag (s : State) (ch : Chan) : Bool :=
  (s.mo.get ch).mode = .live && (chanCfg s ch).bindKind = .map && (s.bd.get ch).mapClamped

/-- The flag byte of a channel record, bit 7 to bit 0 (R19, section 12.4.2). -/
def chanFlags (s : State) (ch : Chan) : Byte :=
  let m := s.mo.get ch
  let f := s.fb.get ch
  bit m.targetClamped 7 ||| bit m.softLimit 6 ||| bit m.saturated 5 ||| bit f.limPos.level 4 ||| bit f.limNeg.level 3
    ||| bit (fbFault f) 2 ||| bit (mapClampedFlag s ch) 1 ||| bit (wheelStale s ch) 0

/-! ## Outputs -/

/-- DRV_EN: asserted on an AXIS channel while its mode is not OFF (R38). -/
def drvEn (s : State) (ch : Chan) : Bool := isAxis s ch && (s.mo.get ch).mode ≠ .off

/-- BRK: asserted on an AXIS channel while the brake command is RELEASED (R38, R118). -/
def brk (s : State) (ch : Chan) : Bool := isAxis s ch && s.sc.brakeReleased

/-- PWM: asserted during the high width that begins each period (R36). -/
def pwmLevel (s : State) (ch : Chan) : Bool := isAxis s ch && (s.mo.get ch).pwmPhase < (s.mo.get ch).pwmHigh

/-- DIR (R37). -/
def dirLevel (s : State) (ch : Chan) : Bool := isAxis s ch && (s.mo.get ch).dir

/-- The REFUSED lamp: lit while the refusal lamp timer runs (R176). -/
def refusedLamp (s : State) : Bool := s.dk.refusalTimer.isSome

/-! ## Stop controller -/

/-- A channel that the stop controller counts as at rest: in OFF, or its last update ended with v = 0 (R39, R122). -/
def atRest (s : State) (ch : Chan) : Bool := !isAxis s ch || (s.mo.get ch).mode = .off || (s.mo.get ch).v = 0

/-- Every enabled channel is at rest (R122). -/
def allAtRest (s : State) : Bool := Chan.list.all (atRest s)

/-- Station n is a required peer: marked in the image, and not this station (R89). -/
def requiredPeer (s : State) (n : Nat) : Bool := s.cfg.required.getLsbD n && n ≠ s.su.station.toNat

/-- The record of station 1 to 30 (R89). -/
def peerRecord (s : State) (n : Nat) : PeerRecord := s.pt.peers.getD (n - 1) .initial

/-- The station numbers of the peer table. -/
def peerNumbers : List Nat := (List.range 30).map (· + 1)

/-- Whether any required peer is not FRESH (R95, R132). -/
def requiredSilent (s : State) : Bool := peerNumbers.any fun n => requiredPeer s n && (peerRecord s n).freshness ≠ .fresh

/-- The first persisting cause in the order of R132, each as it stands. An ENTERED KEEP_OUT zone is read by its status (R116,
log 12). -/
def persistingCause (s : State) : Option CauseKind :=
  if s.su.validity = .invalid then some .configInvalid
  else if !s.sc.estop.level then some .estopChain
  else if Chan.list.any fun ch => isAxis s ch && fbFault (s.fb.get ch) then some .feedback
  else if requiredSilent s then some .peerSilent
  else if 0 < s.sc.dupWindow then some .duplicateStation
  else if s.zm.zones.any fun z => z.cfg.keepOut && z.status = .entered then some .zoneBreach
  else none

end Sys2Proof.Machine
end

