-- ==== Sys2Proof/Machine/Requests.lean ====
section
/-! DEFINITION. Mode requests to the motion unit (section 2.2.1): the three of the stop controller, which always take effect, and
those of the reference sequencer, the binding unit and the take engine, which are accepted or refused. -/

namespace Sys2Proof.Machine

/-- OFF request (R21, R36, R37): from any mode to OFF, PWM low and DIR deasserted at once. SOFT_LIMIT is not among the fields R21 clears:
it stays until the first update in OFF clears it (R24, R31; DESIGN CHOICE, log 24). -/
def requestOff (ch : Chan) (s : State) : State :=
  modMo ch (fun m =>
    { m with
      mode := .off, v := 0, integ := 0, u := 0, p := (s.fb.get ch).x * 256, following := false
      pwmHigh := 0, pwmNext := 0, dir := false, dirNext := false }) s

/-- OFF request to a channel not already in OFF (R118). -/
def cutChannel (ch : Chan) (s : State) : State := if (s.mo.get ch).mode = .off then s else requestOff ch s

/-- STOPPING request (R21): a channel not in OFF goes to HOLD at floor(P/256). -/
def requestStopping (ch : Chan) (s : State) : State :=
  modMo ch (fun m => if m.mode = .off then m else { m with mode := .hold, hold := wholeCounts m.p }) s

/-- HOLD-at-release request (R21). -/
def requestRelease (ch : Chan) (s : State) : State :=
  modMo ch (fun m =>
    { m with mode := .hold, p := (s.fb.get ch).x * 256, v := 0, integ := 0, u := 0, hold := (s.fb.get ch).x }) s

/-- The requests that can be refused, with who makes them (R22). -/
inductive ModeRequest where
  | ref
  | holdBySequencer (point : Int)
  | holdByEngine (point : Int)
  | live
  | cue
  | play
  deriving DecidableEq, Repr

/-- Why a request is refused (section 2.2.1). -/
inductive Refused where
  | busy | mode | notReferenced
  deriving DecidableEq, Repr

/-- Whether the table of R22 lists a mode for a request. -/
def acceptedFrom : ModeRequest → Mode → Bool
  | .ref, m => m = .hold || m = .ref
  | .holdBySequencer _, m => m = .ref || m = .hold
  | .holdByEngine _, m => m = .hold || m = .live || m = .cue || m = .play
  | .live, m => m = .hold || m = .live
  | .cue, m => m = .hold || m = .live || m = .cue
  | .play, m => m = .cue || m = .play

/-- Whether a request needs a REFERENCED channel (R22). -/
def needsReference : ModeRequest → Bool
  | .live | .cue | .play => true
  | .ref | .holdBySequencer _ | .holdByEngine _ => false

/-- Why R22 refuses a request, none when it accepts it. BUSY comes first, as R22 says. Of the reasons that apply beside it R22 gives no
order: the model answers MODE for the mode, then NOT_REFERENCED, then MODE for a binding NONE (DESIGN CHOICE, log 23). -/
def refusal (r : ModeRequest) (ch : Chan) (s : State) : Option Refused :=
  if s.sc.state ≠ .run then some .busy
  else if !acceptedFrom r (s.mo.get ch).mode then some .mode
  else if needsReference r && !referenced s ch then some .notReferenced
  else if r = .live && (chanCfg s ch).bindKind = .none then some .mode
  else none

/-- The record after an accepted request: P, v, I and u stay as they are (R23). -/
def acceptMode : ModeRequest → Motion → Motion
  | .ref, m => { m with mode := .ref }
  | .holdBySequencer h, m => { m with mode := .hold, hold := h }
  | .holdByEngine h, m => { m with mode := .hold, hold := h }
  | .live, m => { m with mode := .live }
  | .cue, m => { m with mode := .cue }
  | .play, m => { m with mode := .play }

/-- A request with its answer: a refused one changes nothing (R22). -/
def request (r : ModeRequest) (ch : Chan) (s : State) : Option Refused × State :=
  match refusal r ch s with
  | some why => (some why, s)
  | none => (none, modMo ch (acceptMode r) s)

/-- A request whose answer the requester does not act on. -/
def ask (r : ModeRequest) (ch : Chan) (s : State) : State := (request r ch s).2

/-- The take engine asks for HOLD at floor(P / 256) on some channels (R23, R164). -/
def holdAtSetpoint (chans : List Chan) (s : State) : State :=
  forChans (fun ch t => ask (.holdByEngine (wholeCounts (t.mo.get ch).p)) ch t) chans s

/-- The same request on every channel of a list, with the reason of the first refusal. -/
def requestAll (r : ModeRequest) : List Chan → State → Option Refused × State
  | [], s => (none, s)
  | ch :: rest, s =>
    let (a, s₁) := request r ch s
    let (b, s₂) := requestAll r rest s₁
    (a.orElse fun _ => b, s₂)

/-- LIVE requests of the binding unit (R55): each AXIS channel with a MAP or RATE binding. A refusal is not repeated. -/
def liveRequests (s : State) : State :=
  forChans (fun ch t => if (chanCfg t ch).bindKind = .none then t else ask .live ch t) (axisChans s) s

end Sys2Proof.Machine
end

