-- ==== Sys2Proof/Machine/Store.lean ====
section
/-! DEFINITION. The take store (chapter 9): the frame layout, the requests of the take engine and their answers. An answer is a
fault code of the take report, `none` when the request is carried out. -/

namespace Sys2Proof.Machine

/-! ## Layout (R138) -/

/-- k: the number of channels in a mask. -/
def maskCount (m : PerChan Bool) : Nat := m.a.toNat + m.b.toNat + m.c.toNat

/-- j: the place of a channel among the recorded channels in the order A, B, C. -/
def maskPlace (m : PerChan Bool) : Chan → Nat
  | .A => 0
  | .B => m.a.toNat
  | .C => m.a.toNat + m.b.toNat

/-- The channels of a mask in order. -/
def maskChans (m : PerChan Bool) : List Chan := Chan.list.filter fun ch => m.get ch

/-- Frames per page: floor(512 / k). -/
def framesPerPage (k : Nat) : Nat := Config.slotsPerPage / k

/-- The memory slot of frame i at a channel's place. A take's page list reaches every frame it counts (R137). -/
def sampleSlot (e : Entry) (i : Nat) (ch : Chan) : Nat :=
  let k := maskCount e.mask
  memorySlot (e.pages.getD (i / framesPerPage k) 0) (i % framesPerPage k * k + maskPlace e.mask ch)

/-! ## Directory -/

/-- The entry that carries a take number (R146). -/
def lookupTake (dir : List Entry) (take : Nat) : Option Entry := dir.find? fun e => e.take = take

/-- The entry with status RECORDING: at most one (R137). -/
def recordingEntry (dir : List Entry) : Option Entry := dir.find? fun e => e.status = .recording

/-- The directory with the entry of a take changed. -/
def changeTake (take : Nat) (f : Entry → Entry) (dir : List Entry) : List Entry :=
  dir.map fun e => if e.take = take then f e else e

/-- The slots with consecutive samples written from a slot on. -/
def writeSamples : List (Nat × Word) → Nat → List Word → List (Nat × Word)
  | slots, _, [] => slots
  | slots, a, w :: ws => writeSamples (slotWrite slots a w) (a + 1) ws

/-! ## Samples (R139) -/

/-- The sample of a setpoint: whole counts, or a ring position. -/
def sampleOf (normalized : Bool) (softLo softHi p : Int) : Word :=
  if normalized then BitVec.ofInt 32 (ringOfCount softLo softHi (wholeCounts p)) else BitVec.ofInt 32 (wholeCounts p)

/-- The sample kind a channel's reference kind gives: NORMALIZED for END_STOPS (R139). -/
def normalizedKind (s : State) (ch : Chan) : Bool := (chanCfg s ch).refKind = .endStops

/-- The channel mask of the station's AXIS channels. -/
def axisMask (s : State) : PerChan Bool := { a := isAxis s .A, b := isAxis s .B, c := isAxis s .C }

/-- The sample kinds of the station's AXIS channels (R139). -/
def axisKinds (s : State) : PerChan Bool :=
  { a := isAxis s .A && normalizedKind s .A, b := isAxis s .B && normalizedKind s .B, c := isAxis s .C && normalizedKind s .C }

/-- The samples of one frame, of the channels of a mask in order, from the setpoints as they stand. -/
def frameSamples (mask kinds : PerChan Bool) (s : State) : List Word :=
  (maskChans mask).map fun ch => sampleOf (kinds.get ch) (s.rf.get ch).softLo (s.rf.get ch).softHi (s.mo.get ch).p

/-! ## Requests -/

/-- Create (R140): the conditions in order, then the entry with its first page and frame 0. -/
def storeCreate (take : Nat) (mask kinds : PerChan Bool) (rate : Nat) (samples : List Word) (ts : Store) : TakeFault × Store :=
  if (recordingEntry ts.dir).isSome then (.busy, ts)
  else if (lookupTake ts.dir take).isSome then (.takeExists, ts)
  else if 16 ≤ ts.dir.length then (.dirFull, ts)
  else
    match ts.free with
    | [] => (.storeFull, ts)
    | page :: rest =>
      (.none,
        { ts with
          free := rest
          slots := writeSamples ts.slots (memorySlot page 0) samples
          dir := ts.dir ++
            [{ take := take, status := .recording, protect := false, mask := mask, normalized := kinds, rate := rate, length := 1
               pages := [page], crc := samples.foldl crc32Sample crc32Start }] })

/-- Frame i of an entry written at its slots and fed into the check register, with the page list it then has (R141). -/
def writeFrame (e : Entry) (pages : List Nat) (samples : List Word) (ts : Store) : Store :=
  let e' := { e with pages := pages }
  let k := maskCount e.mask
  let base := memorySlot (e'.pages.getD (e.length / framesPerPage k) 0) (e.length % framesPerPage k * k)
  { ts with
    slots := writeSamples ts.slots base samples
    dir := changeTake e.take
      (fun x => { x with pages := pages, length := e.length + 1, crc := samples.foldl crc32Sample e.crc }) ts.dir }

/-- The store is full: the entry becomes COMPLETE at its present length (R141). -/
def storeFull (e : Entry) (ts : Store) : TakeFault × Store :=
  (.storeFull, { ts with dir := changeTake e.take (fun x => { x with status := .complete }) ts.dir })

/-- Append (R141). -/
def storeAppend (samples : List Word) (ts : Store) : TakeFault × Store :=
  match recordingEntry ts.dir with
  | none => (.busy, ts)
  | some e =>
    if e.length = 65535 then storeFull e ts
    else if e.length % framesPerPage (maskCount e.mask) = 0 then
      match ts.free with
      | [] => storeFull e ts
      | page :: rest => (.none, writeFrame e (e.pages ++ [page]) samples { ts with free := rest })
    else (.none, writeFrame e e.pages samples ts)

/-- Finish (R142): the RECORDING entry takes the outcome as its status. -/
def storeFinish (outcome : TakeStatus) (ts : Store) : Store :=
  { ts with dir := ts.dir.map fun e => if e.status = .recording then { e with status := outcome } else e }

/-- How long a check of `n` samples takes: ceil(n / 2,048) × 1,000 µs (R144). -/
def checkTime (n : Nat) : Nat := ceilDiv n 2048 * 1000

/-- Check request (R144). -/
def storeCheck (take : Nat) (now : Word) (ts : Store) : TakeFault × Store :=
  match lookupTake ts.dir take with
  | none => (.takeMissing, ts)
  | some e =>
    match e.status with
    | .recording => (.busy, ts)
    | .damaged => (.takeDamaged, ts)
    | .complete | .interrupted =>
      (.none, { ts with check := some { take := take, completes := after now (checkTime (e.length * maskCount e.mask)) } })

/-- The register of a check run over frames i to i + n − 1 of an entry, in the order written (R143, R144). -/
def checkFrames (slots : List (Nat × Word)) (e : Entry) : Nat → Nat → Word → Word
  | 0, _, r => r
  | n + 1, i, r =>
    checkFrames slots e n (i + 1) ((maskChans e.mask).foldl (fun r ch => crc32Sample r (slotRead slots (sampleSlot e i ch))) r)

/-- The check word an entry's samples give: the register inverted (R143). -/
def checkWordOf (slots : List (Nat × Word)) (e : Entry) : Word := ~~~(checkFrames slots e e.length 0 crc32Start)

/-- Completion of a check run (R144): true for INTACT. A mismatch marks the entry DAMAGED. -/
def storeCheckDone (run : CheckRun) (ts : Store) : Bool × Store :=
  match lookupTake ts.dir run.take with
  | none => (false, { ts with check := none })
  | some e =>
    if checkWordOf ts.slots e = ~~~e.crc then (true, { ts with check := none })
    else (false, { ts with check := none, dir := changeTake run.take (fun x => { x with status := .damaged }) ts.dir })

/-- Abandon (R145). -/
def storeAbandon (ts : Store) : Store := { ts with check := none }

/-- Erase (R147): the conditions in order, then the pages go to the tail of the free-page list. -/
def storeErase (take : Nat) (ts : Store) : TakeFault × Store :=
  match lookupTake ts.dir take with
  | none => (.takeMissing, ts)
  | some e =>
    if e.protect then (.takeProtected, ts)
    else if e.status = .recording || ts.check.any (fun r => r.take = take) then (.busy, ts)
    else (.none, { ts with free := ts.free ++ e.pages, dir := ts.dir.filter fun x => x.take ≠ take })

/-- Protect (R148): the flag is inverted. -/
def storeProtect (take : Nat) (ts : Store) : TakeFault × Store :=
  if (lookupTake ts.dir take).isSome then
    (.none, { ts with dir := changeTake take (fun x => { x with protect := !x.protect }) ts.dir })
  else (.takeMissing, ts)

/-- A sample read (R146): a frame at or past the length gives the last frame's sample. -/
def sampleRead (ts : Store) (e : Entry) (i : Nat) (ch : Chan) : Word :=
  slotRead ts.slots (sampleSlot e (if i < e.length then i else e.length - 1) ch)

/-- A sample as the number it holds: signed counts, or an unsigned ring position (R139). -/
def sampleValue (normalized : Bool) (w : Word) : Int := if normalized then w.toNat else w.toInt

/-- What a warm reset leaves of the store (R149). -/
def storeWarmReset (ts : Store) : Store := { storeFinish .interrupted ts with check := none }

end Sys2Proof.Machine
end

