-- ==== Sys2Proof/Machine/Stops.lean ====
section
/-! DEFINITION. The stop controller (chapter 8): causes, stop states and their entries, the stop notice and what the blocks do with
it, STOP bodies, and the executed release. One operation, `raiseCause`, is the taking of a cause. -/

namespace Sys2Proof.Machine

/-! ## What the notice does in other blocks -/

/-- The capture disarmed (R7). -/
def disarm (f : Feedback) : Feedback := { f with capture := .disarmed, provisional := none }

/-- The reference state after a run fails with STOPPED (R49): the one it began from, qualified. -/
def stoppedFrom : RefState → RefState
  | .failed _ => .failed .stopped
  | .notReferenced | .search1 | .search2 | .parking | .referenced => .notReferenced

/-- The reference record after a run has ended without a reference: no offset, no timer, and a realignment noted where the rule that ends it
says so. The stall count is stopped at 0, which R48 alone says and no rule of STOPPED or ABORTED, and a back-off is over (DESIGN CHOICE,
log 51). -/
def clearRun (state : RefState) (realign : Bool) (r : Reference) : Reference :=
  { r with
    state := state, offset := none, timer := none, stall := 0, backOff := false, realign := r.realign || realign }

/-- The measured ends discarded (R49, R50). -/
def dropEnds (r : Reference) : Reference := { r with endLo := none, endHi := none }

/-- A run in progress fails with STOPPED (R49); an END_STOPS run notes a realignment. -/
def failRunStopped (ch : Chan) (s : State) : State :=
  let r := s.rf.get ch
  if inRun r then
    modFb ch disarm
      (modRf ch (fun r => dropEnds (clearRun (stoppedFrom r.origin) ((chanCfg s ch).refKind = .endStops) r)) s)
  else s

/-- A take phase ends: IDLE, no schedule, no held live order (R150, R166). That the start frame S becomes none, and that rate, L and τ
stay, no rule says (DESIGN CHOICE, log 37), nor that the in-place marks of a CUEING that ends here stay until the next (DESIGN CHOICE,
log 48). -/
def endPhase (result : TakeResult) (fault : TakeFault) (s : State) : State :=
  { s with te := { s.te with phase := .idle, start := none, result := result, fault := fault, liveHeld := false } }

/-- The store's finish request made by the engine (R142). -/
def finishTake (outcome : TakeStatus) (s : State) : State := { s with ts := storeFinish outcome s.ts }

/-- The take engine takes a notice that RUN is left (R167). CHECKING runs on and keeps a held live order until it ends, as R166 ties the
discarding to a phase's end (DESIGN CHOICE, log 47). -/
def takeStopped (s : State) : State :=
  match s.te.phase with
  | .armedRec | .cueing | .cued | .playing => endPhase .stopped .none s
  | .recording => endPhase .stopped .none (finishTake .interrupted s)
  | .idle | .checking => s

/-- STOPPED follows each stop notice on an active desk (R176). -/
def stoppedLamp (new : StopState) (s : State) : State :=
  if deskActive s then { s with dk := { s.dk with lamps := { s.dk.lamps with stopped := new ≠ .run } } } else s

/-- The stop notice (R119): the sequencer fails runs and the take engine ends its work when RUN is left, the binding unit makes
its LIVE requests when RUN is entered, and the STOPPED lamp follows. -/
def stopNotice (old new : StopState) (s : State) : State :=
  let s₁ := if old = .run && new ≠ .run then takeStopped (forChans failRunStopped Chan.list s) else s
  let s₂ := if new = .run then liveRequests s₁ else s₁
  stoppedLamp new s₂

/-! ## Entries into stop states -/

/-- The stop state changed, with no timer but those named running. -/
def setStop (new : StopState) (stop brake release : Option Word) (s : State) : State :=
  { s with sc := { s.sc with state := new, stopTimer := stop, brakeTimer := brake, releaseTimer := release } }

/-- The brake command. -/
def setBrake (released : Bool) (s : State) : State := { s with sc := { s.sc with brakeReleased := released } }

/-- Entry into BRAKING with the drives enabled (R122, R123): the brakes are applied and the brake timer started. -/
def enterBraking (s : State) : State :=
  let old := s.sc.state
  stopNotice old .braking (setBrake false (setStop .braking none (some (after s.clock (s.cfg.brakeEngage * 1000))) none s))

/-- Entry into BRAKING by a CUT cause (R121, R118): every channel is put in OFF. -/
def enterBrakingCut (s : State) : State :=
  let old := s.sc.state
  let s₁ := setBrake false (setStop .braking none (some (after s.clock (s.cfg.brakeEngage * 1000))) none s)
  stopNotice old .braking (forChans cutChannel (axisChans s₁) s₁)

/-- Entry into STOPPING (R121, R122): channels to HOLD, the stop timer started, and BRAKING at once when all are at rest. -/
def enterStopping (s : State) : State :=
  let old := s.sc.state
  let s₁ := setStop .stopping (some (after s.clock (s.cfg.stopTimeout * 1000))) none none s
  let s₂ := stopNotice old .stopping (forChans requestStopping (axisChans s₁) s₁)
  if allAtRest s₂ then enterBraking s₂ else s₂

/-- Entry into HALTED (R123). -/
def enterHalted (s : State) : State :=
  let old := s.sc.state
  let s₁ := setStop .halted none none none s
  stopNotice old .halted (forChans cutChannel (axisChans s₁) s₁)

/-- Entry into RUN at the expiry of brake_release (R133). -/
def enterRun (s : State) : State :=
  let old := s.sc.state
  stopNotice old .run (setStop .run none none none s)

/-- Entry into RELEASING at frame event F (R133): records emptied, release frame set, serials forgotten, brakes released,
channels held where they stand, release timer started. -/
def enterReleasing (s : State) : State :=
  let old := s.sc.state
  let s₁ := setBrake true (setStop .releasing none none (some (after s.clock (s.cfg.brakeRelease * 1000))) s)
  let s₂ : State :=
    { s₁ with
      sc := { s₁.sc with
        first := none, last := none, causes := 0, releaseFrame := s₁.ft.count, result := .released, resultCause := none
        remembered := List.replicate 30 none } }
  stopNotice old .releasing (forChans requestRelease (axisChans s₂) s₂)

/-! ## Causes -/

/-- The class of a kind (section 8.2): true for CUT. RESTART has no class and is never raised. -/
def isCut : CauseKind → Bool
  | .configInvalid | .estopChain | .hardLimit | .following | .feedback | .stopTimeout => true
  | .restart | .deskStop | .peerStop | .peerSilent | .duplicateStation | .zoneBreach => false

/-- A STOP body handed to the STOP slot with 3 repeats (R81); an attempt in flight keeps the old body. -/
def offerStop (body : StopBody) (s : State) : State :=
  { s with
    tk := { s.tk with
      stopSlot := some { body := body, repeats := 3 }
      flight := s.tk.flight.map fun f => if f.cls = .stop then { f with replaced := true } else f } }

/-- The STOP body of a local cause, with the next stop serial (R127). -/
def makeStopBody (kind : CauseKind) (origin channel zone : Byte) (s : State) : State :=
  let body : StopBody :=
    { origin := origin, kind := kind, channel := channel, zone := zone, frame := s.ft.count, serial := s.sc.stopSerial }
  offerStop body { s with sc := { s.sc with stopSerial := s.sc.stopSerial + 1 } }

/-- The stop state leaves the station under way: RUN or RELEASING. -/
def underWay (st : StopState) : Bool := st = .run || st = .releasing

/-- The records of a cause (R120): the last-cause record and the count always, the first-cause record in RUN and RELEASING. -/
def recordCause (kind : CauseKind) (origin channel zone : Byte) (s : State) : State :=
  let r : CauseRec :=
    { kind := kind, origin := origin, channel := channel, zone := zone, frame := s.ft.count, met := s.sc.state }
  { s with
    sc := { s.sc with
      first := if underWay s.sc.state then some r else s.sc.first
      last := some r, causes := satIncr 255 s.sc.causes } }

/-- What the class of a cause does in the stop state it meets (R121). -/
def actOnCause (cut : Bool) (s : State) : State :=
  match s.sc.state with
  | .run | .releasing => if cut then enterBrakingCut s else enterStopping s
  | .stopping => if cut then enterBrakingCut s else s
  | .braking => if cut then forChans cutChannel (axisChans s) s else s
  | .halted => s

/-- The stop controller takes a cause (R120, R121, R127): it is recorded, a local one met in RUN or RELEASING makes a STOP body,
and its class decides what follows. -/
def raiseCause (kind : CauseKind) (origin channel zone : Byte) (s : State) : State :=
  let local_ := kind ≠ .peerStop
  let s₁ := recordCause kind origin channel zone s
  let s₂ := if local_ && underWay s.sc.state then makeStopBody kind origin channel zone s₁ else s₁
  actOnCause (isCut kind) s₂

/-- A cause of this station that carries a channel (R13, R15, R33). -/
def raiseChannel (kind : CauseKind) (ch : Chan) (s : State) : State :=
  raiseCause kind (stationByte s) (BitVec.ofNat 8 ch.number) 0 s

/-- A cause of this station without channel or zone. -/
def raiseOwn (kind : CauseKind) (s : State) : State := raiseCause kind (stationByte s) 0 0 s

/-- CONFIG_INVALID (R134): in HALTED it replaces RESTART in the first-cause record, with frame count 0, and the count rises by one, to the
2 of R134 when RESTART was the only cause. After causes recorded before the finish the count rises by one too, as R120 says of every cause
(DESIGN CHOICE, log 52). -/
def raiseConfigInvalid (s : State) : State :=
  let r : CauseRec :=
    { kind := .configInvalid, origin := stationByte s, channel := 0, zone := 0, frame := 0, met := .halted }
  { s with sc := { s.sc with first := some r, last := some r, causes := satIncr 255 s.sc.causes } }

/-! ## Release -/

/-- A pending release executed at a frame event (R132). -/
def executeRelease (s : State) : State :=
  match s.sc.state with
  | .halted =>
    match persistingCause s with
    | some kind => { s with sc := { s.sc with result := .refusedCause, resultCause := some kind } }
    | none => enterReleasing s
  | .stopping | .braking | .releasing => { s with sc := { s.sc with result := .refusedBusy, resultCause := none } }
  | .run => { s with sc := { s.sc with result := .none, resultCause := none } }

/-- The frame report of the stop controller (R131). -/
def stopReport (s : State) : StopReport :=
  { state := s.sc.state, first := s.sc.first, last := s.sc.last, causes := s.sc.causes, result := s.sc.result
    resultCause := s.sc.resultCause }

/-- The stop controller's taking of a frame event (R131): window, pending release, report. -/
def stopFrameEvent (s : State) : State :=
  let s₁ : State := { s with sc := { s.sc with dupWindow := s.sc.dupWindow - 1 } }
  let s₂ : State :=
    if s₁.sc.pendingRelease then executeRelease { s₁ with sc := { s₁.sc with pendingRelease := false } } else s₁
  { s₂ with tk := { s₂.tk with report := some (stopReport s₂) } }

/-! ## Commands of the stop controller -/

/-- ESTOP_FILTERED_CHANGE (R125). The filter samples from the reset on, with any image. -/
def execEstopFilteredChange (closed : Bool) (s : State) : Host.Outcome State Fault Refusal :=
  if s.su.phase = .held || s.sc.estop.level = closed then .next s
  else
    let s₁ : State :=
      { s with sc := { s.sc with estop := { level := closed, run := 0 } }, lines := { s.lines with estop := closed } }
    .next (if closed then s₁ else raiseOwn .estopChain s₁)

/-- STOP_TIMER_EXPIRY (R122): STOP_TIMEOUT, when the timer runs. -/
def execStopTimerExpiry (s : State) : Host.Outcome State Fault Refusal :=
  match s.sc.stopTimer with
  | none => .next s
  | some time =>
    let s₁ := advanceTo time s
    .next (raiseOwn .stopTimeout { s₁ with sc := { s₁.sc with stopTimer := none } })

/-- BRAKE_TIMER_EXPIRY (R123): HALTED, when the timer runs. -/
def execBrakeTimerExpiry (s : State) : Host.Outcome State Fault Refusal :=
  match s.sc.brakeTimer with
  | none => .next s
  | some time => .next (enterHalted (advanceTo time s))

/-- RELEASE_TIMER_EXPIRY (R133): RUN, when the timer runs. -/
def execReleaseTimerExpiry (s : State) : Host.Outcome State Fault Refusal :=
  match s.sc.releaseTimer with
  | none => .next s
  | some time => .next (enterRun (advanceTo time s))

/-- A pending release held (R131). -/
def holdRelease (s : State) : State := { s with sc := { s.sc with pendingRelease := true } }

/-- RELEASE (R98, R131): held as a pending release until the next frame event. -/
def execRelease (s : State) : Host.Outcome State Fault Refusal := .next (deskCommand holdRelease s)

/-- The filtered level of a panel button, by its place among the panel's lines: true PRESSED (R170). -/
def pressed (place : Nat) (s : State) : Bool := (s.dk.buttons.getD place ⟨true, 0⟩).level

/-- A button's filtered level PRESSED, and its line low (log 4). -/
def setPressed (place : Nat) (s : State) : State :=
  { s with
    dk := { s.dk with buttons := s.dk.buttons.set place { level := true, run := 0 } }
    lines := { s.lines with buttons := s.lines.buttons &&& ~~~(1#10 <<< place) } }

/-- The place of STOP among the panel's lines. -/
def stopPlace : Nat := 9

/-- STOP_BUTTON_PRESS (R126, R170, R173): a change of the button's filtered level from RELEASED to PRESSED raises DESK_STOP on the active
desk station. -/
def execStopButtonPress (s : State) : Host.Outcome State Fault Refusal :=
  if deskActive s && !pressed stopPlace s then .next (raiseOwn .deskStop (setPressed stopPlace s)) else .next s

end Sys2Proof.Machine
end

