-- ==== Sys2Proof/Machine/Reference.lean ====
section
/-! DEFINITION. The reference sequencer (sections 3.1 to 3.6): starting and ending runs, captures and offsets, what a run does at
the start and at the end of a servo update. -/

namespace Sys2Proof.Machine

/-! ## The FEEDBACK cause, met also by an offset shift -/

/-- An onset of a FEEDBACK condition (R15, R16): a cause on an AXIS channel, a frozen wheel value on a WHEEL channel. -/
def feedbackOnset (ch : Chan) (s : State) : State :=
  match (chanCfg s ch).kind with
  | .axis => raiseChannel .feedback ch s
  | .wheel => modFb ch (fun f => { f with frozen := f.frozen.orElse fun _ => some f.x }) s
  | .unused => s

/-- When the last condition has cleared the published wheel value is X again (R16). -/
def thaw (f : Feedback) : Feedback := if fbFault f then f else { f with frozen := none }

/-- The count shifted by δ (R6), with whether this is an onset of the saturation condition. -/
def shiftCount (δ : Int) (f : Feedback) : Feedback × Bool :=
  let sum := f.x + δ
  if sum < -Config.maxCount || Config.maxCount < sum then
    ({ f with x := clampInt (-Config.maxCount) Config.maxCount sum, saturation := true }, !f.saturation)
  else if -Config.maxCount < sum && sum < Config.maxCount then ({ f with x := sum, saturation := false }, false)
  else ({ f with x := sum }, false)

/-! ## Captures (R7, R8, R44) -/

/-- The capture armed for a source (R7): only a quadrature AXIS channel arms. -/
def armCapture (source : CaptureSource) (ch : Chan) (s : State) : State :=
  if isAxis s ch && !(chanCfg s ch).analog then
    modFb ch (fun f => { f with capture := .armed source, provisional := none }) s
  else s

/-- What a SWITCH run arms for: its home switch. -/
def homeSource (c : ChanCfg) : CaptureSource := if c.refNegative then .switchNeg else .switchPos

/-- A capture event (R44): noted as a pending offset in SEARCH_1 of an INDEX or SWITCH run, discarded otherwise. -/
def captureEvent (count : Int) (ch : Chan) (s : State) : State :=
  let c := chanCfg s ch
  if (s.rf.get ch).state = .search1 && (c.refKind = .index || c.refKind = .switch) then
    modRf ch (fun r => { r with offset := some (c.refPosition - count) }) s
  else s

/-- The count captured, and the event handed to the sequencer. -/
def capture (count : Int) (ch : Chan) (s : State) : State :=
  captureEvent count ch (modFb ch (fun f => { f with capture := .captured count, provisional := none }) s)

/-! ## Starting a run (R42, R43) -/

/-- The far travel in a direction (R43). -/
def farTravel (negative : Bool) : Int := if negative then -Config.maxCount else Config.maxCount

/-- Whether SEARCH_1 searches negative: ref_dir, or the negative stop of END_STOPS. -/
def searchNegative (c : ChanCfg) : Bool := c.refKind = .endStops || c.refNegative

/-- Whether a run begins with a back-off: a SWITCH run whose home switch is active (R43). -/
def beginsBackOff (c : ChanCfg) (f : Feedback) : Bool := c.refKind = .switch && limitState f (homeSwitch c)

/-- Whether REFERENCE starts a run on a channel (R42). -/
def wantsRun (s : State) (ch : Chan) : Bool :=
  let c := chanCfg s ch
  c.kind = .axis && c.refKind ≠ .absolute &&
    (match (s.rf.get ch).state with
     | .notReferenced => true
     | .failed _ => true
     | .search1 | .search2 | .parking | .referenced => false)

/-- The reference record at entry into SEARCH_1. -/
def beginRun (now : Word) (c : ChanCfg) (back : Bool) (r : Reference) : Reference :=
  { r with
    state := .search1, origin := r.state, stall := 0, endLo := none, endHi := none, offset := none
    timer := some (after now (c.refTimeout * 1000000)), backOff := back
    goal := farTravel (xor (searchNegative c) back) }

/-- The capture a run arms when it enters SEARCH_1. -/
def armForRun (ch : Chan) (back : Bool) (s : State) : State :=
  match (chanCfg s ch).refKind with
  | .index => armCapture .index ch s
  | .switch => if back then s else armCapture (homeSource (chanCfg s ch)) ch s
  | .endStops | .absolute => s

/-- A run started on one channel: the motion unit is asked for REF, and on acceptance SEARCH_1 is entered. -/
def startRun (ch : Chan) (s : State) : State :=
  if wantsRun s ch then
    match request .ref ch s with
    | (some _, s₁) => s₁
    | (none, s₁) =>
      let back := beginsBackOff (chanCfg s ch) (s.fb.get ch)
      armForRun ch back (modRf ch (beginRun s.clock (chanCfg s ch) back) s₁)
  else s

/-- Whether the sequencer takes a REFERENCE command (R42). -/
def takesReference (s : State) : Bool :=
  s.sc.state = .run && s.te.phase = .idle && !(Chan.list.any fun ch => inRun (s.rf.get ch))

/-- REFERENCE as handed over by the peer table (R42). -/
def referenceCommand (s : State) : State := if takesReference s then forChans startRun Chan.list s else s

/-! ## Ending a run early (R47, R48, R50) -/

/-- The hold point asked for when a run ends: X for END_STOPS, floor(P/256) otherwise. -/
def endPoint (ch : Chan) (s : State) : Int :=
  if (chanCfg s ch).refKind = .endStops then (s.fb.get ch).x else wholeCounts (s.mo.get ch).p

/-- A run fails with a reason and HOLD is asked for; an END_STOPS run notes a realignment. -/
def failRun (reason : FailReason) (ch : Chan) (s : State) : State :=
  ask (.holdBySequencer (endPoint ch s)) ch
    (modFb ch disarm (modRf ch (clearRun (.failed reason) ((chanCfg s ch).refKind = .endStops)) s))

/-- ABORT fails a run in progress with ABORTED (R50). -/
def abortRun (ch : Chan) (s : State) : State :=
  if inRun (s.rf.get ch) then failRun .aborted ch (modRf ch dropEnds s) else s

/-- ABORT as handed to the sequencer (R50). -/
def abortRuns (s : State) : State := forChans abortRun Chan.list s

/-! ## At the start of a servo update (R18, R43, R44, R46) -/

/-- A backed-off home switch reads inactive: the capture is armed and the search turns to ref_dir (R43). -/
def turnBackOff (ch : Chan) (s : State) : State :=
  let r := s.rf.get ch
  let c := chanCfg s ch
  if r.state = .search1 && r.backOff && !limitState (s.fb.get ch) (homeSwitch c) then
    armCapture (homeSource c) ch (modRf ch (fun r => { r with backOff := false, goal := farTravel c.refNegative }) s)
  else s

/-- The reference record after an offset is applied: the image's soft limits in force, PARKING, the clamped park target. -/
def enterParking (c : ChanCfg) (r : Reference) : Reference :=
  { r with
    state := .parking, offset := none, softLo := c.softLo, softHi := c.softHi
    goal := clampInt c.softLo c.softHi c.parkPosition }

/-- A pending offset applied (R44): X and P shifted by the same counts, the capture disarmed, PARKING entered. An onset of the
saturation condition by the shift raises its cause after the run has entered PARKING; that cause is taken at once, so that the rest of the
update runs in the mode the cut has left, OFF (DESIGN CHOICE, log 40). -/
def applyOffset (ch : Chan) (s : State) : State :=
  match (s.rf.get ch).offset with
  | none => s
  | some δ =>
    let (f, onset) := shiftCount δ (s.fb.get ch)
    let s₁ := modFb ch (fun _ => disarm f) s
    let s₂ := modMo ch (fun m => { m with p := m.p + δ * 256 }) s₁
    let s₃ := modRf ch (enterParking (chanCfg s ch)) s₂
    if onset then feedbackOnset ch s₃ else s₃

/-- A pending realignment, in a mode other than OFF (R46, R49): P at X × 256, v and I at 0. One noted by R46, R47, R48 or R50, which say "the
next update" and name no mode, also waits through updates in OFF, as R49 says of its own (DESIGN CHOICE, log 34). -/
def realign (ch : Chan) (s : State) : State :=
  if (s.rf.get ch).realign && (s.mo.get ch).mode ≠ .off then
    modRf ch (fun r => { r with realign := false })
      (modMo ch (fun m => { m with p := (s.fb.get ch).x * 256, v := 0, integ := 0 }) s)
  else s

/-- What the sequencer does before the limiter runs. -/
def beforeUpdate (ch : Chan) (s : State) : State := realign ch (applyOffset ch (turnBackOff ch s))

/-! ## At the end of a servo update (R45, R46, R47) -/

/-- Whether an update counts toward a stall (R46). -/
def stalled (s : State) (ch : Chan) : Bool :=
  let t : Int := (chanCfg s ch).stallThreshold
  match (s.rf.get ch).state with
  | .search1 => decide ((s.mo.get ch).ep ≤ -t)
  | .search2 => decide (t ≤ (s.mo.get ch).ep)
  | .notReferenced | .parking | .referenced | .failed _ => false

/-- A stall in SEARCH_1: end_lo recorded, SEARCH_2 entered, a realignment noted (R46). -/
def firstStall (pos : Int) (r : Reference) : Reference :=
  { r with state := .search2, stall := 0, endLo := some pos, goal := farTravel false, realign := true }

/-- A stall in SEARCH_2: end_hi recorded and the span checked (R47). -/
def secondStall (pos : Int) (ch : Chan) (s : State) : State :=
  let c := chanCfg s ch
  let lo := (s.rf.get ch).endLo.getD 0
  let span := pos - lo
  let s₁ := modRf ch (fun r => { r with stall := 0, endHi := some pos, realign := true }) s
  if span < c.minSpan || span ≤ 2 * (c.endMargin : Int) then failRun .spanShort ch s₁
  else
    modRf ch (fun r =>
      { r with
        state := .parking, softLo := lo + c.endMargin, softHi := pos - c.endMargin
        goal := floorDiv (lo + pos) 2 }) s₁

/-- The stall count of an END_STOPS search (R46): the 50th stalled update in a row declares a stall. -/
def stallCheck (ch : Chan) (s : State) : State :=
  let r := s.rf.get ch
  if (chanCfg s ch).refKind = .endStops && (r.state = .search1 || r.state = .search2) then
    if stalled s ch then
      if r.stall + 1 < 50 then modRf ch (fun r => { r with stall := r.stall + 1 }) s
      else if r.state = .search1 then modRf ch (firstStall (s.mo.get ch).pos) s
      else secondStall (s.mo.get ch).pos ch s
    else modRf ch (fun r => { r with stall := 0 }) s
  else s

/-- Parking is complete when the new setpoint rests on the park target (R45): REFERENCED, and HOLD there. -/
def parkCheck (ch : Chan) (s : State) : State :=
  let r := s.rf.get ch
  let m := s.mo.get ch
  if r.state = .parking && m.p = r.goal * 256 && m.v = 0 then
    ask (.holdBySequencer r.goal) ch (modRf ch (fun r => { r with state := .referenced, timer := none }) s)
  else s

/-- What the sequencer does with the record an update has written: a channel that parks has left its search. -/
def afterUpdate (ch : Chan) (s : State) : State :=
  if (s.rf.get ch).state = .parking then parkCheck ch s else stallCheck ch s

/-! ## Commands -/

/-- REFERENCE (R42). -/
def execReference (s : State) : Host.Outcome State Fault Refusal := .next (deskCommand referenceCommand s)

/-- RUN_TIMER_EXPIRY (R48): the run fails with TIMEOUT; after the run has ended the timer does nothing. -/
def execRunTimerExpiry (ch : Chan) (s : State) : Host.Outcome State Fault Refusal :=
  match (s.rf.get ch).timer with
  | none => .next s
  | some time =>
    let s₁ := modRf ch (fun r => { r with timer := none }) (advanceTo time s)
    .next (if inRun (s₁.rf.get ch) then failRun .timeout ch s₁ else s₁)

end Sys2Proof.Machine
end

