-- ==== Sys2Proof/Machine/Feedback.lean ====
section
/-! DEFINITION. The feedback unit of a channel (chapter 1): counting, illegal transitions, captures, analog conversions, limit
switches. -/

namespace Sys2Proof.Machine

/-- The encoder lines of a channel are read: an AXIS or WHEEL channel with fb_type QUADRATURE (R1). -/
def readsEncoder (s : State) (ch : Chan) : Bool :=
  started s && (chanCfg s ch).kind ≠ .unused && !(chanCfg s ch).analog

/-- The limit lines of a channel are read: an AXIS channel with limits PRESENT (R1). -/
def readsLimits (s : State) (ch : Chan) : Bool := started s && isAxis s ch && (chanCfg s ch).limits

/-- The raw lines of a channel changed by `f`. -/
def modLines (ch : Chan) (f : ChanLines → ChanLines) (s : State) : State :=
  { s with lines := { s.lines with chans := s.lines.chans.set ch (f (s.lines.chans.get ch)) } }

/-! ## Quadrature (R3 to R5) -/

/-- The direction of a step by which line has changed and the pair before it: in the sequence 00, 10, 11, 01, 00 of (QA, QB) a
change of QA is positive when the two levels were equal, a change of QB when they differed (R3). -/
def stepPositive (qa qb : Bool) : QuadLine → Bool
  | .qa => qa = qb
  | .qb => qa ≠ qb

/-- The step in counts, with count_dir applied (R3). -/
def stepOf (reversed : Bool) (qa qb : Bool) (line : QuadLine) : Int :=
  if xor (stepPositive qa qb line) reversed then 1 else -1

/-- One step counted (R3, R5), with whether it is an onset of the saturation condition. -/
def countStep (δ : Int) (f : Feedback) : Feedback × Bool :=
  if f.x + δ < -Config.maxCount || Config.maxCount < f.x + δ then ({ f with saturation := true }, !f.saturation)
  else ({ f with x := f.x + δ, saturation := false }, false)

/-- The accepted level of QA or QB changed. The run count is the one the samples left (R2): under a transition given from outside it stays
too, and carries over to the new level (DESIGN CHOICE, log 49). -/
def toggle (q : Filt) : Filt := { q with level := !q.level }

/-- The accepted level of one encoder line changed. -/
def toggleLine (line : QuadLine) (f : Feedback) : Feedback :=
  match line with
  | .qa => { f with qa := toggle f.qa }
  | .qb => { f with qb := toggle f.qb }

/-- The raw lines QA and QB follow an accepted change that no pending run contradicts (log 4). -/
def followQuad (ch : Chan) (s : State) : State :=
  let f := s.fb.get ch
  modLines ch (fun l =>
    { l with
      qa := if f.qa.run = 0 then f.qa.level else l.qa
      qb := if f.qb.run = 0 then f.qb.level else l.qb }) s

/-- LEGAL_TRANSITION (R3, R5). -/
def execLegalTransition (ch : Chan) (line : QuadLine) (s : State) : Host.Outcome State Fault Refusal :=
  if readsEncoder s ch then
    let f := s.fb.get ch
    let (g, onset) := countStep (stepOf (chanCfg s ch).reversed f.qa.level f.qb.level line) f
    let s₁ := followQuad ch (modFb ch (fun _ => thaw (toggleLine line g)) s)
    .next (if onset then feedbackOnset ch s₁ else s₁)
  else .next s

/-- ILLEGAL_TRANSITION (R3, R4): the count stays, the counter rises; its arrival at 8 is the onset. At 0, at 8 and at 255 too the two orders
of a transition and a leak at one station time differ, against R4's last sentence: the model follows the counter's own rule, each event as
it is taken (DESIGN CHOICE, log 33). -/
def execIllegalTransition (ch : Chan) (s : State) : Host.Outcome State Fault Refusal :=
  if readsEncoder s ch then
    let s₁ := followQuad ch
      (modFb ch (fun f => { f with qa := toggle f.qa, qb := toggle f.qb, illegal := satIncr 255 f.illegal }) s)
    .next (if (s.fb.get ch).illegal = 7 then feedbackOnset ch s₁ else s₁)
  else .next s

/-- LEAK_EVENT (R4): the counter falls by one if it is above 0, and the next leak event is 100 ms on. What it leaves with a transition of the
same station time follows the order in which the two are taken (DESIGN CHOICE, log 33). -/
def execLeakEvent (ch : Chan) (s : State) : Host.Outcome State Fault Refusal :=
  match (s.fb.get ch).nextLeak with
  | none => .next s
  | some time =>
    .next (modFb ch (fun f => thaw { f with illegal := f.illegal - 1, nextLeak := some (after time 100000) })
      (advanceTo time s))

/-- The accepted level of QI risen, with its line high; a rise that the samples have shown is taken off the count of those that wait,
and the level stands as the samples left it (R2). -/
def riseIndex (ch : Chan) (s : State) : State :=
  if 0 < (s.fb.get ch).rises then modFb ch (fun f => { f with rises := f.rises - 1 }) s
  else modLines ch (fun l => { l with qi := true }) (modFb ch (fun f => { f with qi := ⟨true, 0⟩ }) s)

/-- INDEX_RISE (R7): a change of the accepted level of QI from low to high captures the count when the capture is ARMED for INDEX. A
level that is high and has no sampled rise waiting cannot rise (log 1). -/
def execIndexRise (ch : Chan) (s : State) : Host.Outcome State Fault Refusal :=
  let f := s.fb.get ch
  if readsEncoder s ch && (0 < f.rises || !f.qi.level) then
    .next (if f.capture = .armed .index then capture f.x ch (riseIndex ch s) else riseIndex ch s)
  else .next s

/-! ## Analog (R9 to R11) -/

/-- A rail sample: 0 to 63, or 65,472 to 65,535 (R9). -/
def railSample (r : Nat) : Bool := r ≤ 63 || 65472 ≤ r

/-- X from the average of a group (R10). -/
def analogPosition (c : ChanCfg) (average : Nat) : Int :=
  if c.reversed then (c.analogZero : Int) - average else (average : Int) - c.analogZero

/-- The runs of rail and good conversions and the rail condition (R11). -/
def railTrack (reading : Nat) (f : Feedback) : Feedback :=
  let railRun := if railSample reading then satIncr 4 f.railRun else 0
  let goodRun := if railSample reading then 0 else satIncr 4 f.goodRun
  { f with
    railRun := railRun, goodRun := goodRun
    rail := if railRun = 4 then true else if goodRun = 4 then false else f.rail }

/-- A reading joins its group; the fourth ends it, and a wholly good group sets X (R9, R10). -/
def groupTrack (c : ChanCfg) (reading : Nat) (f : Feedback) : Feedback :=
  let group := f.group ++ [reading]
  if group.length < 4 then { f with group := group }
  else
    { f with
      group := []
      x := if group.any railSample then f.x else analogPosition c (group.foldl (· + ·) 0 / 4) }

/-- ANALOG_CONVERSION (R9 to R11): conversions follow one another every 250 µs. -/
def execAnalogConversion (ch : Chan) (reading : BitVec 16) (s : State) : Host.Outcome State Fault Refusal :=
  match (s.fb.get ch).nextConversion with
  | none => .next s
  | some time =>
    let f := s.fb.get ch
    let g := railTrack reading.toNat f
    let onset := g.rail && !f.rail
    let s₁ := advanceTo time s
    let s₂ := if onset then feedbackOnset ch (modFb ch (fun _ => g) s₁) else modFb ch (fun _ => g) s₁
    .next (modFb ch (fun f =>
      thaw { groupTrack (chanCfg s ch) reading.toNat f with nextConversion := some (after time 250) }) s₂)

/-! ## Limit switches (R8, R12, R13) -/

/-- The capture waits for a switch (R8). -/
def armedFor (f : Feedback) : Switch → Bool
  | .pos => f.capture = .armed .switchPos
  | .neg => f.capture = .armed .switchNeg

/-- The filtered state of a switch set, its pending run ended. -/
def setLimit (sw : Switch) (active : Bool) (f : Feedback) : Feedback :=
  match sw with
  | .pos => { f with limPos := { level := active, run := 0 } }
  | .neg => { f with limNeg := { level := active, run := 0 } }

/-- The raw level of a switch's line that reads as active or inactive, with lim_polarity (R12). -/
def setLimitLine (activeLow : Bool) (sw : Switch) (active : Bool) (l : ChanLines) : ChanLines :=
  match sw with
  | .pos => { l with limp := xor active activeLow }
  | .neg => { l with limn := xor active activeLow }

/-- The switch is the home signal of a SWITCH run in progress (R13). -/
def homeSignal (s : State) (ch : Chan) (sw : Switch) : Bool :=
  (chanCfg s ch).refKind = .switch && inRun (s.rf.get ch) && homeSwitch (chanCfg s ch) = sw

/-- The velocity points toward a switch (R13). -/
def movingToward (v : Int) : Switch → Bool
  | .pos => 0 < v
  | .neg => v < 0

/-- A switch has become active: the armed home switch captures its provisional count (R8), and any other raises HARD_LIMIT when
the channel moves toward it (R13). With no count noted, as when the capture was armed after the raw level had turned and before the filter
confirmed it, this change captures nothing and the capture stays ARMED (DESIGN CHOICE, log 45). -/
def switchActive (ch : Chan) (sw : Switch) (s : State) : State :=
  let s₁ :=
    if armedFor (s.fb.get ch) sw then
      match (s.fb.get ch).provisional with
      | some n => capture n ch s
      | none => s
    else s
  if !homeSignal s ch sw && movingToward (s.mo.get ch).v sw then raiseChannel .hardLimit ch s₁ else s₁

/-- LIMIT_FILTERED_CHANGE (R12, R13). -/
def execLimitFilteredChange (ch : Chan) (sw : Switch) (active : Bool) (s : State) : Host.Outcome State Fault Refusal :=
  if readsLimits s ch && limitState (s.fb.get ch) sw ≠ active then
    let s₁ := modLines ch (setLimitLine (chanCfg s ch).activeLow sw active) (modFb ch (setLimit sw active) s)
    .next (if active then switchActive ch sw s₁ else s₁)
  else .next s

/-- PROVISIONAL_COUNT_NOTED (R8): a raw turn to active notes the count, a raw return to inactive drops it. The command is taken as the turn it
reports also when the raw level already stands there: given again, active notes the count anew over the one held (DESIGN CHOICE, log 39). -/
def execProvisionalCountNoted (ch : Chan) (sw : Switch) (active : Bool) (s : State) : Host.Outcome State Fault Refusal :=
  if readsLimits s ch then
    let s₁ := modLines ch (setLimitLine (chanCfg s ch).activeLow sw active) s
    .next (if armedFor (s.fb.get ch) sw then
      modFb ch (fun f => { f with provisional := if active then some f.x else none }) s₁
    else s₁)
  else .next s

end Sys2Proof.Machine
end

