-- ==== Sys2Proof/Machine/Binding.lean ====
section
/-! DEFINITION. The binding unit (sections 3.7 to 3.10): source records, MAP and RATE targets. -/

namespace Sys2Proof.Machine

/-! ## Source records (R51, R52) -/

/-- A channel is bound to a wheel of a station. -/
def boundTo (s : State) (ch : Chan) (station : Nat) : Bool :=
  isAxis s ch && (chanCfg s ch).bindKind ≠ .none && (chanCfg s ch).srcStation = station

/-- A local source takes the published wheel value at each servo update of the bound channel, and is FRESH from then on; one that
names no WHEEL channel stays empty and STALE (R51). -/
def refreshLocal (ch : Chan) (s : State) : State :=
  if boundTo s ch s.su.station.toNat then
    match Chan.ofNumber? (chanCfg s ch).srcChannel with
    | some src =>
      if isWheel s src then
        modBd ch (fun b => { b with held := some (publishedWheel (s.fb.get src)), fresh := true }) s
      else s
    | none => s
  else s

/-- Whether a WHEEL frame is newer than what a record holds (R52). -/
def newerWheel (held : Option Byte) (seq : Byte) : Bool :=
  match held with
  | none => true
  | some last => 1 ≤ (seq - last).toNat && (seq - last).toNat ≤ 127

/-- One source record takes a WHEEL frame (R52). -/
def takeWheel (now : Word) (timeout : Nat) (seq : Byte) (value : Int) (b : Binding) : Binding :=
  if newerWheel b.seq seq then
    { b with held := some value, seq := some seq, fresh := true, timer := some (after now (timeout * 1000)) }
  else b

/-- A WHEEL frame handed to each source record bound to its station (R52, R84); a local source has no such frames. -/
def wheelArrival (source : Nat) (seq : Byte) (values : PerChan Int) (s : State) : State :=
  forChans (fun ch t =>
    if boundTo t ch source && source ≠ t.su.station.toNat then
      match Chan.ofNumber? (chanCfg t ch).srcChannel with
      | some src => modBd ch (takeWheel t.clock (chanCfg t ch).wheelTimeout seq (values.get src)) t
      | none => t
    else t) Chan.list s

/-! ## Targets (R53, R54) -/

/-- The ring position of a wheel value from a point on, with MAP_CLAMPED (R53): the value is not below the point's. -/
def mapFrom (w : Int) (p : MapPoint) : List MapPoint → Int × Bool
  | [] => (p.r, decide (p.w < w))
  | q :: rest =>
    if w < q.w then (p.r + floorDiv (((q.r : Int) - p.r) * (w - p.w)) (q.w - p.w), false) else mapFrom w q rest

/-- The ring position of a wheel value on a map, with MAP_CLAMPED (R53). A valid image gives a MAP binding 2 to 16 points. -/
def mapRing (points : List MapPoint) (w : Int) : Int × Bool :=
  match points with
  | [] => (0, false)
  | p :: rest => if w < p.w then (p.r, true) else mapFrom w p rest

/-- The deflection of a wheel value with the deadband taken off (R54). -/
def deflection (center deadband w : Int) : Int :=
  let d := w - center
  if d ≤ deadband && -deadband ≤ d then 0 else if 0 < d then d - deadband else d + deadband

/-- The RATE target (R54). -/
def rateTarget (c : ChanCfg) (b : Binding) (p : Int) : Int :=
  let d := if b.fresh then (b.held.map (deflection c.center c.deadband)).getD 0 else 0
  wholeCounts p + floorDiv (d * c.gain) 256

/-- The MAP target and MAP_CLAMPED (R53). -/
def mapTarget (c : ChanCfg) (b : Binding) (r : Reference) (p : Int) : Int × Bool :=
  match b.held with
  | none => (wholeCounts p, false)
  | some w => (countOfRing r.softLo r.softHi (mapRing c.points w).1, (mapRing c.points w).2)

/-! ## Command -/

/-- WHEEL_STALE_EXPIRY (R52): the source is STALE and keeps its held value. -/
def execWheelStaleExpiry (ch : Chan) (s : State) : Host.Outcome State Fault Refusal :=
  match (s.bd.get ch).timer with
  | none => .next s
  | some time => .next (modBd ch (fun b => { b with fresh := false, timer := none }) (advanceTo time s))

end Sys2Proof.Machine
end

