-- ==== Sys2Proof/Machine/Takes.lean ====
section
/-! DEFINITION. The take engine (chapter 10): the adopted take commands, recording, cueing and playing, and what ends a phase. -/

namespace Sys2Proof.Machine

/-! ## Report -/

/-- The fault code of a refused mode request. The codes have none for MODE, which R157 and R160 cannot meet (log 13). -/
def faultOf : Refused → TakeFault
  | .busy => .busy
  | .notReferenced => .notReferenced
  | .mode => .busy

/-- A command refused (R150): result REFUSED with its fault, the rest of the report as it was. -/
def refuseTake (fault : TakeFault) (s : State) : State := { s with te := { s.te with result := .refused, fault := fault } }

/-- An adopted take command on a take-capable station (R150): the serial is taken, then the command is handled. -/
def takeCommand (serial : Byte) (f : State → State) (s : State) : State :=
  if takeCapable s then f { s with te := { s.te with serial := serial } } else s

/-- A phase ends with result DONE, and a held live order is handed to the binding unit (R166). -/
def endDone (fault : TakeFault) (s : State) : State :=
  let s₁ := endPhase .done fault s
  if s.te.liveHeld then liveRequests s₁ else s₁

/-- Every AXIS channel is REFERENCED. -/
def allReferenced (s : State) : Bool := (axisChans s).all (referenced s)

/-- S lies after the own frame count: (S − count) modulo 2^32 is from 1 to 2^31 − 1 (R152). -/
def liesAfter (start count : Word) : Bool := 1 ≤ (start - count).toNat && (start - count).toNat < 2 ^ 31

/-! ## Recording (R152 to R155) -/

/-- Why a RECORD is refused: the conditions of R152 in order. -/
def recordFault (take : Nat) (start : Word) (s : State) : TakeFault :=
  if s.te.phase ≠ .idle then .busy
  else if s.sc.state ≠ .run then .notRunning
  else if s.ft.lock ≠ .locked then .notLocked
  else if !s.ft.aligned then .alignLost
  else if !allReferenced s then .notReferenced
  else if take < 1 || 99 < take then .takeMissing
  else if (lookupTake s.ts.dir take).isSome then .takeExists
  else if 16 ≤ s.ts.dir.length then .dirFull
  else if !liesAfter start s.ft.count then .lateStart
  else .none

/-- RECORD handled (R152). -/
def recordTake (take : Nat) (start : Word) (s : State) : State :=
  match recordFault take start s with
  | .none =>
    { s with
      te := { s.te with
        phase := .armedRec, start := some start, take := take, length := 0, result := .none, fault := .none
        spoiled := false, holdover := false } }
  | fault => refuseTake fault s

/-- The start frame of a recording (R153). S is none from here on (DESIGN CHOICE, log 37). -/
def startRecording (s : State) : State :=
  match storeCreate s.te.take (axisMask s) (axisKinds s) s.cfg.frameRate (frameSamples (axisMask s) (axisKinds s) s) s.ts with
  | (.none, ts) => { s with ts := ts, te := { s.te with phase := .recording, length := 1, start := none } }
  | (fault, _) => endPhase .refused fault s

/-- The length of the RECORDING entry. -/
def recordingLength (ts : Store) (kept : Nat) : Nat := ((recordingEntry ts.dir).map fun e => e.length).getD kept

/-- The samples of the next frame, by the entry's own channels and kinds (R154). -/
def nextSamples (s : State) : List Word :=
  match recordingEntry s.ts.dir with
  | none => []
  | some e => frameSamples e.mask e.normalized s

/-- Each frame event after the start frame (R154). -/
def appendFrame (s : State) : State :=
  match storeAppend (nextSamples s) s.ts with
  | (.none, ts) => { s with ts := ts, te := { s.te with length := recordingLength ts s.te.length } }
  | (.storeFull, ts) => endDone .storeFull { s with ts := ts, te := { s.te with filledAt := some s.clock } }
  | (_, ts) => { s with ts := ts }

/-- The report still shows what an append of this very station time has left when it found the store full: DONE with STORE_FULL. -/
def filledNow (s : State) : Bool :=
  s.te.filledAt = some s.clock && s.te.result = .done && s.te.fault = .storeFull

/-- END handled (R155). After an append that found the store full at the same station time the report stays DONE with STORE_FULL, as R142
and R155 say; any other END in IDLE is refused (DEDUCED, log 29). -/
def endTake (s : State) : State :=
  match s.te.phase with
  | .recording => endDone .none (finishTake .complete s)
  | .armedRec => endPhase .aborted .none s
  | .idle => if filledNow s then s else refuseTake .busy s
  | .checking | .cueing | .cued | .playing => refuseTake .busy s

/-! ## Cueing (R156 to R158) -/

/-- Why a CUE is refused: the conditions of R156 in order. -/
def cueFault (take : Nat) (s : State) : TakeFault :=
  if s.te.phase ≠ .idle then .busy
  else
    match lookupTake s.ts.dir take with
    | none => .takeMissing
    | some e =>
      if e.status = .damaged then .takeDamaged
      else if e.rate ≠ s.cfg.frameRate then .rateMismatch
      else if e.mask ≠ axisMask s || e.normalized ≠ axisKinds s then .channelMismatch
      else if !allReferenced s then .notReferenced
      else .none

/-- The reported length of a take from the store's lookup. -/
def takeLength (ts : Store) (take : Nat) : Nat := ((lookupTake ts.dir take).map fun e => e.length).getD 0

/-- CUE handled (R156). -/
def cueTake (take : Nat) (s : State) : State :=
  match cueFault take s with
  | .none =>
    let s₁ : State :=
      { s with
        te := { s.te with
          phase := .checking, take := take, length := takeLength s.ts take, result := .none, fault := .none
          spoiled := false, holdover := false } }
    match storeCheck take s.clock s.ts with
    | (.none, ts) => { s₁ with ts := ts }
    | (fault, _) => endPhase .refused fault s₁
  | fault => refuseTake fault s

/-- An intact check in RUN (R157): CUEING, with mode CUE asked for on every recorded channel. -/
def startCueing (s : State) : State :=
  let s₁ : State := { s with te := { s.te with phase := .cueing, marks := .all false } }
  match requestAll .cue (axisChans s) s₁ with
  | (none, s₂) => s₂
  | (some why, s₂) =>
    endPhase .refused (faultOf why) (holdAtSetpoint ((axisChans s).filter fun ch => (s₂.mo.get ch).mode = .cue) s₂)

/-- The engine takes the completion of the check run in CHECKING (R157). -/
def checkAnswer (intact : Bool) (s : State) : State :=
  if s.te.phase ≠ .checking then s
  else if !intact then endPhase .refused .takeDamaged s
  else if s.sc.state ≠ .run then endPhase .refused .notRunning s
  else startCueing s

/-- CUED entered (R158): at once ended when the lock state is FREE; holdover set when it is HOLDOVER. The marks are not kept. -/
def enterCued (s : State) : State :=
  let s₁ : State := { s with te := { s.te with phase := .cued, marks := .all false } }
  match s.ft.lock with
  | .free => endPhase .aborted .lockLost (holdAtSetpoint (axisChans s₁) s₁)
  | .holdover => { s₁ with te := { s₁.te with holdover := true } }
  | .locking | .locked => s₁

/-- The update's cap of 0 holds the channel off its target. -/
def heldByCap (m : Motion) : Bool := m.cap = 0 && m.p ≠ m.target * 256

/-- A channel's record shows it in place (R158). One that a cap of 0 holds off its cue point is not: R158 says that it keeps the phase in
CUEING, though v′ = 0 and |ep| may be within in_position there (DEDUCED, log 38). -/
def inPlace (c : ChanCfg) (m : Motion) : Bool := m.ep.natAbs ≤ c.inPosition && m.v = 0 && !heldByCap m

/-- What the engine does with a servo update's record: marks in CUEING (R158), the spoiled flag in PLAYING (R163). -/
def takeAfterUpdate (ch : Chan) (s : State) : State :=
  match s.te.phase with
  | .cueing =>
    let s₁ : State := { s with te := { s.te with marks := s.te.marks.set ch (inPlace (chanCfg s ch) (s.mo.get ch)) } }
    if (axisChans s₁).all fun c => s₁.te.marks.get c then enterCued s₁ else s₁
  | .playing =>
    if (chanCfg s ch).takeTolerance < (s.mo.get ch).lag then { s with te := { s.te with spoiled := true } } else s
  | .idle | .armedRec | .recording | .checking | .cued => s

/-! ## Playing (R159 to R162) -/

/-- A rate below 64 is taken as 64 and one above 256 as 256 (R159). -/
def playRate (rate : Nat) : Nat := max 64 (min 256 rate)

/-- Why a RUN is refused: the conditions of R159 in order. -/
def runFault (take : Nat) (start : Word) (length : Nat) (s : State) : TakeFault :=
  if s.te.phase ≠ .cued || s.te.take ≠ take then .notCued
  else if !s.ft.aligned then .alignLost
  else if length < 2 || s.te.length < length then .shortTake
  else if !liesAfter start s.ft.count then .lateStart
  else .none

/-- RUN handled (R159): the play is scheduled. -/
def runTake (take : Nat) (start : Word) (rate length : Nat) (s : State) : State :=
  match runFault take start length s with
  | .none =>
    { s with
      te := { s.te with
        start := some start, rate := playRate rate, playLen := length, result := .none, fault := .none } }
  | fault => refuseTake fault s

/-- The play's start frame (R160). S is none from here on (DESIGN CHOICE, log 37). -/
def startPlay (s : State) : State :=
  match requestAll .play (axisChans s) s with
  | (some why, s₁) => endPhase .aborted (faultOf why) (holdAtSetpoint (axisChans s) s₁)
  | (none, s₁) =>
    { s₁ with
      te := { s₁.te with
        phase := .playing, tau := 0, length := s₁.te.playLen, start := none, spoiled := false
        holdover := s₁.ft.lock = .holdover } }

/-- A sample of the current take on a channel as the value it holds; 0 when no entry carries the take, which no take work
meets (R147 erases nothing outside IDLE). -/
def takeSample (s : State) (i : Nat) (ch : Chan) : Int :=
  match lookupTake s.ts.dir s.te.take with
  | none => 0
  | some e => sampleValue (e.normalized.get ch) (sampleRead s.ts e i ch)

/-- Whether the current take holds ring positions for a channel. -/
def takeNormalized (s : State) (ch : Chan) : Bool :=
  ((lookupTake s.ts.dir s.te.take).map fun e => e.normalized.get ch).getD false

/-- A value of the take in counts: a ring position is turned into counts with the soft limits in force (R157). -/
def takeCounts (s : State) (ch : Chan) (value : Int) : Int :=
  if takeNormalized s ch then countOfRing (s.rf.get ch).softLo (s.rf.get ch).softHi value else value

/-- The cue target: sample 0 in counts (R157). -/
def cueTarget (s : State) (ch : Chan) : Int := takeCounts s ch (takeSample s 0 ch)

/-- The interpolation period (R64). -/
def interpolationPeriod (s : State) : Nat :=
  if s.ft.lock = .locked then s.ft.period else Config.nominalPeriod s.cfg.frameRate

/-- φ: how far an update lies within the frame, in 65,536ths, at most 65,535 (R162). -/
def framePart (elapsedUs period : Nat) : Nat := min 65535 (elapsedUs * 65536 / period)

/-- The value between two samples at a play position (R162, step 3). -/
def interpolate (value : Nat → Int) (len tauNow : Nat) : Int :=
  let i := tauNow / 65536
  if len ≤ i + 1 then value (len - 1)
  else value i + floorDiv ((value (i + 1) - value i) * ((tauNow - i * 65536 : Nat) : Int)) 65536

/-- The play target of an update (R162). -/
def playTarget (s : State) (ch : Chan) : Int :=
  let φ := framePart (elapsed s.clock (s.ft.lastEvent.getD s.clock)) (interpolationPeriod s)
  let tauNow := s.te.tau + s.te.rate * 256 * φ / 65536
  takeCounts s ch (interpolate (fun i => takeSample s i ch) s.te.playLen tauNow)

/-- HOLD asked for at the last sample, on every recorded channel (R161). -/
def holdAtLast (s : State) : State :=
  forChans (fun ch t => ask (.holdByEngine (takeCounts t ch (takeSample t (t.te.playLen - 1) ch))) ch t) (axisChans s) s

/-- Each frame event of a play after its start frame (R161). -/
def advancePlay (s : State) : State :=
  let last := (s.te.playLen - 1) * 65536
  let tau := s.te.tau + s.te.rate * 256
  if last ≤ tau then endDone .none (holdAtLast { s with te := { s.te with tau := last } })
  else { s with te := { s.te with tau := tau } }

/-- The take engine takes a frame event, the frame count already risen (R153, R154, R160, R161). -/
def takeFrameEvent (s : State) : State :=
  match s.te.phase with
  | .armedRec => if s.te.start = some s.ft.count then startRecording s else s
  | .recording => appendFrame s
  | .cued => if s.te.start = some s.ft.count then startPlay s else s
  | .playing => advancePlay s
  | .idle | .checking | .cueing => s

/-! ## ABORT, ERASE, PROTECT, LIVE (R164 to R166) -/

/-- ABORT handled (R164). -/
def abortTake (s : State) : State :=
  match s.te.phase with
  | .idle => s
  | .armedRec => endPhase .aborted .none s
  | .recording => endPhase .aborted .none (finishTake .interrupted s)
  | .checking => endPhase .aborted .none { s with ts := storeAbandon s.ts }
  | .cueing | .cued | .playing => endPhase .aborted .none (holdAtSetpoint (axisChans s) s)

/-- ERASE handled (R165). -/
def eraseTake (take : Nat) (s : State) : State :=
  if s.te.phase ≠ .idle then refuseTake .busy s
  else
    match storeErase take s.ts with
    | (.none, ts) => { s with ts := ts, te := { s.te with take := take, length := 0, result := .done, fault := .none } }
    | (fault, _) => refuseTake fault s

/-- PROTECT handled (R165). -/
def protectTake (take : Nat) (s : State) : State :=
  match storeProtect take s.ts with
  | (.none, ts) => { s with ts := ts }
  | (fault, _) => refuseTake fault s

/-- LIVE handled (R166). -/
def liveOrder (s : State) : State :=
  if s.te.phase = .idle then liveRequests s else { s with te := { s.te with liveHeld := true } }

/-! ## Lock and alignment notices (R168, R169) -/

/-- A phase ended by a lost lock or an alignment correction, with HOLD asked for where the channels are in CUE or PLAY. -/
def loseTake (fault : TakeFault) (s : State) : State :=
  match s.te.phase with
  | .armedRec => endPhase .aborted fault s
  | .recording => endPhase .aborted fault (finishTake .interrupted s)
  | .cued | .playing => endPhase .aborted fault (holdAtSetpoint (axisChans s) s)
  | .idle | .checking | .cueing => s

/-- A lock notice (R168). -/
def lockNotice (new : Lock) (s : State) : State :=
  match new with
  | .free => loseTake .lockLost s
  | .holdover =>
    match s.te.phase with
    | .armedRec | .recording | .cued | .playing => { s with te := { s.te with holdover := true } }
    | .idle | .checking | .cueing => s
  | .locked | .locking => s

/-! ## Commands -/

/-- RECORD (R150, R152). -/
def execRecord (serial take : Byte) (start : Word) (s : State) : Host.Outcome State Fault Refusal :=
  .next (deskCommand (takeCommand serial (recordTake take.toNat start)) s)

/-- END (R150, R155). -/
def execEndTake (serial : Byte) (s : State) : Host.Outcome State Fault Refusal :=
  .next (deskCommand (takeCommand serial endTake) s)

/-- CUE (R150, R156). -/
def execCue (serial take : Byte) (s : State) : Host.Outcome State Fault Refusal :=
  .next (deskCommand (takeCommand serial (cueTake take.toNat)) s)

/-- RUN (R150, R159). -/
def execRun (serial take : Byte) (start : Word) (rate length : BitVec 16) (s : State) : Host.Outcome State Fault Refusal :=
  .next (deskCommand (takeCommand serial (runTake take.toNat start rate.toNat length.toNat)) s)

/-- ABORT (R150, R164, R50): handed to the take engine and to the reference sequencer. -/
def execAbort (serial : Byte) (s : State) : Host.Outcome State Fault Refusal :=
  .next (deskCommand (fun t => abortRuns (takeCommand serial abortTake t)) s)

/-- ERASE (R150, R165). -/
def execErase (serial take : Byte) (s : State) : Host.Outcome State Fault Refusal :=
  .next (deskCommand (takeCommand serial (eraseTake take.toNat)) s)

/-- PROTECT (R150, R165). -/
def execProtect (serial take : Byte) (s : State) : Host.Outcome State Fault Refusal :=
  .next (deskCommand (takeCommand serial (protectTake take.toNat)) s)

/-- LIVE (R150, R166). -/
def execLive (serial : Byte) (s : State) : Host.Outcome State Fault Refusal :=
  .next (deskCommand (takeCommand serial liveOrder) s)

/-- CHECK_RUN_COMPLETION (R144, R157). -/
def execCheckRunCompletion (s : State) : Host.Outcome State Fault Refusal :=
  match s.ts.check with
  | none => .next s
  | some run =>
    let s₁ := advanceTo run.completes s
    let (intact, ts) := storeCheckDone run s₁.ts
    .next (checkAnswer intact { s₁ with ts := ts })

/-! ## Adopted commands handed on by the peer table (R98) -/

/-- A desk command handed to its executing blocks. -/
def executeDesk (c : DeskContent) (s : State) : State :=
  match deskKind? c.kind with
  | none => s
  | some .record => takeCommand c.serial (recordTake c.take.toNat c.start) s
  | some .end_ => takeCommand c.serial endTake s
  | some .cue => takeCommand c.serial (cueTake c.take.toNat) s
  | some .run => takeCommand c.serial (runTake c.take.toNat c.start c.rate.toNat c.length.toNat) s
  | some .abort => abortRuns (takeCommand c.serial abortTake s)
  | some .erase => takeCommand c.serial (eraseTake c.take.toNat) s
  | some .protect => takeCommand c.serial (protectTake c.take.toNat) s
  | some .live => takeCommand c.serial liveOrder s
  | some .reference => referenceCommand s
  | some .release => holdRelease s

end Sys2Proof.Machine
end

