-- ==== Sys2Proof/Machine/Zones.lean ====
section
/-! DEFINITION. The zone monitor (chapter 7): presence changes, arming records, the zone scan, caps and breaches. -/

namespace Sys2Proof.Machine

/-! ## Arming (R105 to R108) -/

/-- The zone table changed zone by zone. -/
def mapZones (f : Zone → Zone) (s : State) : State := { s with zm := { s.zm with zones := s.zm.zones.map f } }

/-- ARMED with the clear hold timer stopped. -/
def armZone (z : Zone) : Zone := { z with arming := .armed, timer := none }

/-- The clear hold started: HOLDING, the timer running for clear_hold. -/
def holdZone (now : Word) (z : Zone) : Zone :=
  { z with arming := .holding, timer := some (after now (z.cfg.clearHold * 1000)) }

/-- A zone armed by a line 1 to 4 of a station. -/
def armedBy (station line : Nat) (z : Zone) : Bool := z.cfg.source = .line station line

/-- A filtered change of a local line as its zones take it (R105). -/
def localChange (now : Word) (occupied : Bool) (z : Zone) : Zone :=
  if occupied then armZone z else if z.arming = .armed then holdZone now z else z

/-- A zone's record at the finish (R105, R109): ARMED, or HOLDING when its local line is then filtered CLEAR. -/
def freshZone (now : Word) (station : Nat) (presence : List Filt) (c : ZoneCfg) : Zone :=
  let z : Zone := { cfg := c, arming := .armed, timer := none, mark := false, status := .idle }
  match c.source with
  | .always => z
  | .line st line => if st = station && !(presence.getD (line - 1) ⟨true, 0⟩).level then holdZone now z else z

/-- A reading of a remote line (R107). -/
def remoteReading (now : Word) (occupied consecutive : Bool) (z : Zone) : Zone :=
  if occupied then { armZone z with mark := false }
  else if !consecutive then { armZone z with mark := true }
  else if !z.mark then { z with mark := true }
  else if z.arming = .armed then holdZone now z
  else z

/-- The presence notice of a STATE arrival (R92, R107), as each zone with a remote line of the source takes it. -/
def presenceNotice (source : Nat) (body : List Byte) (consecutive : Bool) (s : State) : State :=
  mapZones (fun z =>
    match z.cfg.source with
    | .always => z
    | .line st line =>
      if st = source && st ≠ s.su.station.toNat then remoteReading s.clock (bodyPresence body line) consecutive z else z) s

/-- The scan's first part: each zone with a remote source whose record is not FRESH is armed (R108). -/
def armSilent (s : State) : State :=
  mapZones (fun z =>
    match z.cfg.source with
    | .always => z
    | .line st _ =>
      if st ≠ s.su.station.toNat && (peerRecord s st).freshness ≠ .fresh then { armZone z with mark := false } else z) s

/-! ## Terms (R111, R112) -/

/-- Status of a term. -/
inductive TermStatus where
  | unknown | inside | reachable | clear
  deriving DecidableEq, Repr

/-- The inputs of a term: position, velocity and stopping distance, none when it is UNKNOWN (R111). Between an OFF request and the channel's
next update they are pos and sd as the last update left them beside the v = 0 of R21 (DESIGN CHOICE, log 42). -/
def termInputs (s : State) (t : Term) : Option (Int × Int × Int) :=
  if t.station = s.su.station.toNat then
    match Chan.ofNumber? t.channel with
    | some ch => if referenced s ch then some ((s.mo.get ch).pos, (s.mo.get ch).v, ((s.mo.get ch).sd : Int)) else none
    | none => none
  else
    match (peerRecord s t.station).freshness, (peerRecord s t.station).content with
    | .fresh, some body => if bodyReferenced body t.channel then some (bodyMotion body t.channel) else none
    | _, _ => none

/-- The reach interval (R112). -/
def reach (pos v sd : Int) : Int × Int := if 0 < v then (pos, pos + sd) else if v < 0 then (pos - sd, pos) else (pos, pos)

/-- The status of a term from its inputs (R112). -/
def statusOfInputs (lo hi pos v sd : Int) : TermStatus :=
  if lo ≤ pos && pos ≤ hi then .inside
  else if (reach pos v sd).1 ≤ hi && lo ≤ (reach pos v sd).2 then .reachable
  else .clear

/-- The status of a term at a scan. -/
def termStatus (s : State) (t : Term) : TermStatus :=
  match termInputs s t with
  | none => .unknown
  | some (pos, v, sd) => statusOfInputs t.lo t.hi pos v sd

/-! ## Zones, caps and breaches (R113 to R115) -/

/-- The status of a zone from its arming state and the statuses of its terms (R113). -/
def statusOfTerms (arming : Arming) (terms : List TermStatus) : ZoneStatus :=
  if arming = .disarmed then .idle
  else if terms.all fun t => t = .inside then .entered
  else if terms.any fun t => t = .clear then .clear
  else .threatened

/-- The status of a zone at a scan. -/
def zoneStatus (s : State) (z : Zone) : ZoneStatus := statusOfTerms z.arming (z.cfg.terms.map (termStatus s))

/-- A zone that caps the channels it acts on: THREATENED or ENTERED. -/
def capping (z : Zone) : Bool := z.status = .threatened || z.status = .entered

/-- The cap of a channel: the least of the capping zones that act on it, or 100 (R114). -/
def capOf (zones : List Zone) (ch : Chan) : Nat :=
  zones.foldl (fun cap z => if capping z && z.cfg.actsOn.get ch then min cap z.cfg.cap else cap) 100

/-- The KEEP_OUT zones that a scan finds newly ENTERED. -/
def newlyEntered (s : State) : List Zone :=
  s.zm.zones.filter fun z => z.cfg.keepOut && zoneStatus s z = .entered && z.status ≠ .entered

/-- Their ids, ascending (R115). -/
def newBreaches (s : State) : List Nat := ((newlyEntered s).map fun z => z.cfg.id).insertionSort (· ≤ ·)

/-- The statuses and the caps written together (R114). -/
def writeStatuses (s : State) : State :=
  let zones := s.zm.zones.map fun z => { z with status := zoneStatus s z }
  { s with zm := { s.zm with zones := zones, caps := { a := capOf zones .A, b := capOf zones .B, c := capOf zones .C } } }

/-- ZONE_BREACH raised for each of some zones in turn (R115). -/
def raiseBreaches (ids : List Nat) (s : State) : State :=
  ids.foldl (fun t id => raiseCause .zoneBreach (stationByte t) 0 (BitVec.ofNat 8 id) t) s

/-- One scan (R110). -/
def zoneScan (s : State) : State :=
  let s₁ := armSilent s
  raiseBreaches (newBreaches s₁) (writeStatuses s₁)

/-! ## Commands -/

/-- The raw level of a presence line that reads as occupied or clear (R104). -/
def setPresenceLine (line : Fin 4) (level : Bool) (s : State) : State :=
  { s with
    lines := { s.lines with
      presence := if level then s.lines.presence ||| (1#4 <<< line.val) else s.lines.presence &&& ~~~(1#4 <<< line.val) } }

/-- PRESENCE_FILTERED_CHANGE (R104, R105). The filter samples from the reset on. A change that the sample at the finish's own microsecond
has shown and that is taken after the finish stays the change that was shown (DESIGN CHOICE, log 28). -/
def execPresenceFilteredChange (line : Fin 4) (occupied : Bool) (s : State) : Host.Outcome State Fault Refusal :=
  if s.su.phase = .held || (s.zm.presence.getD line.val ⟨true, 0⟩).level = occupied then .next s
  else
    let s₁ := setPresenceLine line (xor occupied (s.cfg.polarity.getLsbD line.val)) s
    let s₂ : State := { s₁ with zm := { s₁.zm with presence := s₁.zm.presence.set line.val ⟨occupied, 0⟩ } }
    .next (mapZones (fun z =>
      if armedBy s.su.station.toNat (line.val + 1) z then localChange s.clock occupied z else z) s₂)

/-- The clear hold timer of the zone with an id. -/
def holdTimer (s : State) (id : Nat) : Option Word := (s.zm.zones.find? fun z => z.cfg.id = id).bind fun z => z.timer

/-- CLEAR_HOLD_EXPIRY (R106): DISARMED, when the timer runs. -/
def execClearHoldExpiry (zone : Nat) (s : State) : Host.Outcome State Fault Refusal :=
  match holdTimer s zone with
  | none => .next s
  | some time =>
    .next (mapZones (fun z => if z.cfg.id = zone then { z with arming := .disarmed, timer := none } else z)
      (advanceTo time s))

/-- ZONE_SCAN (R110): the scans follow one another every 1,000 µs. -/
def execZoneScan (s : State) : Host.Outcome State Fault Refusal :=
  match s.zm.nextScan with
  | none => .next s
  | some time =>
    let s₁ := advanceTo time s
    .next (zoneScan { s₁ with zm := { s₁.zm with nextScan := some (after time 1000) } })

end Sys2Proof.Machine
end

