-- ==== Sys2Proof/Machine/Peers.lean ====
section
/-! DEFINITION. The peer table (chapter 6): STATE arrivals and the notices they give, ageing, and the adoption of desk commands. -/

namespace Sys2Proof.Machine

/-- The record of a station changed; a number outside 1 to 30 names none. -/
def modPeer (n : Nat) (f : PeerRecord → PeerRecord) (s : State) : State :=
  if n = 0 then s
  else { s with pt := { s.pt with peers := s.pt.peers.set (n - 1) (f (s.pt.peers.getD (n - 1) .initial)) } }

/-! ## Taking a STATE frame (R91) -/

/-- Whether an arrival is consecutive with the frame before it. -/
def consecutive (held : Option Byte) (seq : Byte) : Bool := held.any fun last => seq - last = 1

/-- The gap count after an arrival. -/
def gapsAfter (held : Option Byte) (seq : Byte) (gaps : Nat) : Nat :=
  match held with
  | none => gaps
  | some last =>
    let d := (seq - last).toNat
    if 2 ≤ d && d ≤ 127 then min 65535 (gaps + (d - 1)) else gaps

/-- The record after an arrival. -/
def takeState (body : List Byte) (r : PeerRecord) : PeerRecord :=
  { r with
    freshness := .fresh, age := 0, seq := some (byteAt body 0), gaps := gapsAfter r.seq (byteAt body 0) r.gaps
    content := some body }

/-! ## Desk commands (R98 to R103) -/

/-- A content that can be adopted (R98). -/
def adoptable (c : DeskContent) : Bool := (deskKind? c.kind).isSome && 1 ≤ c.serial.toNat && c.serial.toNat ≤ 15

/-- The content that sets the adopted serial to 0 (R100). -/
def isNone (c : DeskContent) : Bool := c.kind = 0 && c.serial = 0

/-- Whether a reading is adopted (R99): paired with the earlier content, its serial neither adopted nor the join serial. -/
def adopts (seq : Byte) (c : DeskContent) (pt : PeerTable) : Bool :=
  adoptable c && (pt.earlier.any fun e => seq = e.1 + 1 && c = e.2) && c.serial ≠ pt.adopted && pt.join ≠ some c.serial

/-- A reading's fields after it has been compared (R99, R100). -/
def rememberReading (seq : Byte) (c : DeskContent) (pt : PeerTable) : PeerTable :=
  { pt with
    earlier := some (seq, c)
    adopted := if adopts seq c pt then c.serial else if isNone c then 0 else pt.adopted }

/-- The join serial after an arrival (R101): taken when the record was ABSENT, emptied at a serial that differs from it. -/
def joinAfter (wasAbsent : Bool) (c : DeskContent) (join : Option Byte) : Option Byte :=
  if wasAbsent then (if adoptable c then some c.serial else none)
  else if join = some c.serial then join else none

/-- A reading at an arrival from the desk (R99, R100): a command adopted is handed on at once. -/
def adoptArrival (seq : Byte) (c : DeskContent) (s : State) : State :=
  let s₁ : State := { s with pt := rememberReading seq c s.pt }
  if adopts seq c s.pt then executeDesk c s₁ else s₁

/-- The sent notice of a STATE frame (R102): on the desk station it is a reading, and a command that would be adopted waits as the
confirmed command. -/
def sentNotice (seq : Byte) (c : DeskContent) (s : State) : State :=
  if deskActive s then
    let pt := rememberReading seq c s.pt
    { s with
      pt := { pt with
        confirmed := if adopts seq c s.pt then some c else if isNone c then none else s.pt.confirmed } }
  else s

/-- The confirmed command handed on at the desk station's next frame event (R102). -/
def handConfirmed (s : State) : State :=
  match s.pt.confirmed with
  | none => s
  | some c => executeDesk c { s with pt := { s.pt with confirmed := none } }

/-! ## Notices of a STATE arrival (R92) -/

/-- The stop notice of an arrival (R129). -/
def peerStopNotice (source : Nat) (body : List Byte) (s : State) : State :=
  if bodyStopped body && s.sc.releaseFrame.toNat ≤ (bodyCount body).toNat then
    let origin := byteAt body 8
    raiseCause .peerStop (if origin = 0 then BitVec.ofNat 8 source else origin) 0 0 s
  else s

/-- Whether arrivals from a station are readings of the desk: a valid image whose desk field names that other station. -/
def fromDesk (s : State) (source : Nat) : Bool :=
  validImage s && s.cfg.desk ≠ 0 && s.cfg.desk = source && source ≠ s.su.station.toNat

/-- A confirmed correction (R69): the take engine is told first, then the count moves, and the stop controller takes the adjusted
count as its release frame. -/
def correctAlignment (d : Word) (s : State) : State :=
  let s₁ := loseTake .alignLost s
  let count := s₁.ft.count + d
  { s₁ with
    ft := { s₁.ft with count := count, aligned := true, reading := none }
    sc := { s₁.sc with releaseFrame := count } }

/-- An alignment reading (R68). d is kept modulo 2^32, as which it is compared and added. -/
def alignmentReading (seq : Byte) (deskCount : Word) (s : State) : State :=
  let d := deskCount - s.ft.count
  if d = 0 then { s with ft := { s.ft with aligned := true, reading := some (seq, 0) } }
  else if s.ft.reading.any fun r => seq = r.1 + 1 && r.2 = d then correctAlignment d s
  else { s with ft := { s.ft with aligned := false, reading := some (seq, d) } }

/-- A STATE arrival (R91, R92, R101): the record first, then the notices in a free order. -/
def stateArrival (source : Nat) (body : List Byte) (s : State) : State :=
  let r := peerRecord s source
  let seq := byteAt body 0
  let c := bodyDesk body
  let s₁ := modPeer source (takeState body) s
  let notices := [presenceNotice source body (consecutive r.seq seq), peerStopNotice source body]
  if fromDesk s source then
    let s₂ : State := { s₁ with pt := { s₁.pt with join := joinAfter (r.freshness = .absent) c s₁.pt.join } }
    inAnyOrder (notices ++ [alignmentReading seq (bodyCount body), adoptArrival seq c]) s₂
  else inAnyOrder notices s₁

/-! ## Ageing (R93, R95) -/

/-- One record aged (R93): STALE above peer_timeout, ABSENT at 64. -/
def ageRecord (timeout : Nat) (r : PeerRecord) : PeerRecord :=
  if r.freshness = .absent then r
  else
    let age := satIncr 255 r.age
    if age = 64 then { r with age := age, freshness := .absent, content := none, seq := none }
    else if r.freshness = .fresh && timeout < age then { r with age := age, freshness := .stale }
    else { r with age := age }

/-- Whether ageing makes the desk record ABSENT, which empties its earlier desk content and join serial (R93). -/
def deskFades (s : State) : Bool :=
  s.cfg.desk ≠ 0 && (peerRecord s s.cfg.desk).freshness ≠ .absent && (peerRecord s s.cfg.desk).age = 63

/-- Every record aged. -/
def agePeers (s : State) : State :=
  { s with
    pt := { s.pt with
      peers := s.pt.peers.map (ageRecord s.cfg.peerTimeout)
      earlier := if deskFades s then none else s.pt.earlier
      join := if deskFades s then none else s.pt.join } }

/-- PEER_SILENT for each required record that is not FRESH, ascending (R95). -/
def raiseSilent (s : State) : State :=
  (peerNumbers.filter fun n => requiredPeer s n && (peerRecord s n).freshness ≠ .fresh).foldl
    (fun t n => raiseCause .peerSilent (BitVec.ofNat 8 n) 0 0 t) s

/-- The peer table's ageing at a frame event (R93, R95). -/
def ageFrameEvent (s : State) : State := raiseSilent (agePeers s)

/-! ## STOP frames (R128) -/

/-- The arrival of a STOP frame of another station. -/
def stopArrival (source : Nat) (body : List Byte) (s : State) : State :=
  let serial := byteAt body 8
  if s.sc.remembered.getD (source - 1) none = some serial then s
  else
    let s₁ : State := { s with sc := { s.sc with remembered := s.sc.remembered.set (source - 1) (some serial) } }
    if s.sc.releaseFrame.toNat ≤ (word32At body 4).toNat then
      raiseCause .peerStop (byteAt body 0) (byteAt body 2) (byteAt body 3) s₁
    else s₁

/-- A frame with this station's own number (R86, R130). -/
def duplicateArrival (s : State) : State :=
  raiseOwn .duplicateStation { s with sc := { s.sc with dupWindow := 64 } }

end Sys2Proof.Machine
end

