-- ==== Sys2Proof/Machine/Desk.lean ====
section
/-! DEFINITION. The desk unit (chapter 11): participants and checks, publication, the abort watch, the lamps. -/

namespace Sys2Proof.Machine

/-! ## Participants (R173) -/

/-- What the desk unit reads of a participant, as the codes of section 12.4.4. -/
structure Report where
  stop : Byte
  phase : Byte
  take : Byte
  length : BitVec 16
  result : Byte
  fault : Byte
  spoiled : Bool
  holdover : Bool
  serial : Byte
  deriving DecidableEq, Repr

/-- The report of a peer, from its last content. -/
def peerReport (b : List Byte) : Report :=
  { stop := byteAt b 6, phase := byteAt b 15, take := byteAt b 16, length := word16At b 17, result := byteAt b 19
    fault := byteAt b 20, spoiled := (byteAt b 21).getLsbD 0, holdover := (byteAt b 21).getLsbD 1, serial := byteAt b 22 }

/-- The desk station's own report, from its take engine and stop controller. -/
def ownReport (s : State) : Report :=
  { stop := codeStop s.sc.state, phase := codePhase s.te.phase, take := nat8 s.te.take, length := BitVec.ofNat 16 s.te.length
    result := codeResult s.te.result, fault := codeFault s.te.fault, spoiled := s.te.spoiled
    holdover := s.te.holdover, serial := s.te.serial }

/-- A peer as a participant: FRESH and take-capable. -/
def participantOf (r : PeerRecord) : Option Report :=
  match r.freshness, r.content with
  | .fresh, some body => if bodyCapable body then some (peerReport body) else none
  | _, _ => none

/-- The participants' reports. -/
def participants (s : State) : List Report :=
  s.pt.peers.filterMap participantOf ++ (if takeCapable s then [ownReport s] else [])

/-- Every participant shows the same take number. -/
def sameTake : List Report → Bool
  | [] => true
  | r :: rs => rs.all fun q => q.take = r.take

/-- At least one participant, every one of them in a phase. -/
def allIn (phase : Phase) (ps : List Report) : Bool := !ps.isEmpty && ps.all fun r => r.phase = codePhase phase

/-! ## Panel selects (R172) -/

/-- A filtered level as a number. -/
def levelAt (f : List Filt) (i : Nat) : Nat := (f.getD i ⟨true, 0⟩).level.toNat

/-- The take number of the take-select lines. -/
def takeSelect (s : State) : Nat :=
  let f := s.dk.selects
  levelAt f 6 * 64 + levelAt f 5 * 32 + levelAt f 4 * 16 + levelAt f 3 * 8 + levelAt f 2 * 4 + levelAt f 1 * 2 + levelAt f 0

/-- A take number from 1 to 99. -/
def validTake (n : Nat) : Bool := 1 ≤ n && n ≤ 99

/-- The rate of the rate-select lines: 256, 192, 128 or 64. -/
def rateSelect (s : State) : Nat := 256 - 64 * (levelAt s.dk.selects 8 * 2 + levelAt s.dk.selects 7)

/-! ## Publication (R174, R175) -/

/-- The serial after a serial: 1 to 15 and back to 1, or 1 from 0. -/
def nextSerial (n : Nat) : Nat := if n < 15 then n + 1 else 1

/-- The watch after a publication (R175): a RECORD or RUN makes its serial the watched one and clears done, also at the station time of the
scan that would publish the automatic ABORT, of which R175 also says that the watch stays done in either order (DESIGN CHOICE, log 44). -/
def watchAfter (kind : DeskKind) (serial : Nat) (d : Desk) : Option Nat × Bool :=
  if kind = .record || kind = .run then (some serial, false)
  else (if d.watched = some serial then none else d.watched, d.done)

/-- A command published with the next serial. -/
def publish (kind : DeskKind) (take : Byte) (start : Word) (rate length : BitVec 16) (s : State) : State :=
  let serial := nextSerial s.dk.serial
  { s with
    dk := { s.dk with
      serial := serial
      current := { kind := codeDesk kind, serial := nat8 serial, take := take, start := start, rate := rate, length := length }
      watched := (watchAfter kind serial s.dk).1
      done := (watchAfter kind serial s.dk).2 } }

/-- The check of a press (R173). -/
def deskCheck (b : Button) (s : State) : Bool :=
  let ps := participants s
  match b with
  | .record =>
    allIn .idle ps && (ps.all fun r => r.stop = codeStop .run) && s.ft.lock = .locked && validTake (takeSelect s)
  | .cue => allIn .idle ps && validTake (takeSelect s)
  | .run => allIn .cued ps && sameTake ps
  | .erase | .protect => validTake (takeSelect s)
  | .end_ | .abort | .live | .reference => true

/-- The take number that the participants show. -/
def shownTake (s : State) : Byte := ((participants s).head?.map fun r => r.take).getD 0

/-- The least reported length among the participants. -/
def leastLength (s : State) : Nat := (participants s).foldl (fun n r => min n r.length.toNat) 65535

/-- The start frame of RECORD and RUN: four frames ahead (R174). -/
def startFrame (s : State) : Word := s.ft.count + 4

/-- The publication of a press whose check passes (R174). -/
def publishButton (b : Button) (s : State) : State :=
  let take := nat8 (takeSelect s)
  match b with
  | .record => publish .record take (startFrame s) 0 0 s
  | .end_ => publish .end_ 0 0 0 0 s
  | .cue => publish .cue take 0 0 0 s
  | .run => publish .run (shownTake s) (startFrame s) (BitVec.ofNat 16 (rateSelect s)) (BitVec.ofNat 16 (leastLength s)) s
  | .abort => publish .abort 0 0 0 0 s
  | .live => publish .live 0 0 0 0 s
  | .erase => publish .erase take 0 0 0 s
  | .protect => publish .protect take 0 0 0 s
  | .reference => publish .reference 0 0 0 0 s

/-- A failing check: the refusal lamp timer is started at 1,000 ms. -/
def refusePress (s : State) : State := { s with dk := { s.dk with refusalTimer := some (after s.clock 1000000) } }

/-! ## Panel scan (R175, R176) -/

/-- A report that the abort watch acts on. -/
def watchTrips (serial : Nat) (r : Report) : Bool :=
  r.serial.toNat = serial
    && (r.result = codeResult .refused || r.fault = codeFault .storeFull || r.fault = codeFault .lockLost
      || r.fault = codeFault .alignLost)

/-- The abort watch at a scan: an ABORT published, and the done flag set. -/
def abortWatch (s : State) : State :=
  match s.dk.watched with
  | none => s
  | some serial =>
    if !s.dk.done && (participants s).any (watchTrips serial) then
      let s₁ := publish .abort 0 0 0 0 s
      { s₁ with dk := { s₁.dk with done := true } }
    else s

/-- A fault code other than NONE of the code list; a value outside the list is none of its codes (R181). -/
def showsFault (r : Report) : Bool := 1 ≤ r.fault.toNat && r.fault.toNat ≤ 17

/-- The lamps of a scan. -/
def scanLamps (s : State) : Lamps :=
  let ps := participants s
  { ready := allIn .cued ps && sameTake ps
    recording := ps.any fun r => r.phase = codePhase .recording
    play := ps.any fun r => r.phase = codePhase .playing
    stopped := s.sc.state ≠ .run
    fault := ps.any showsFault
    spoiled := ps.any fun r => r.spoiled }

/-- One panel scan. -/
def panelScan (s : State) : State :=
  let s₁ := abortWatch s
  { s₁ with dk := { s₁.dk with lamps := scanLamps s₁ } }

/-! ## Commands -/

/-- The place of a command button among the panel's lines. -/
def buttonPlace : Button → Nat
  | .record => 0
  | .end_ => 1
  | .cue => 2
  | .run => 3
  | .abort => 4
  | .live => 5
  | .erase => 6
  | .protect => 7
  | .reference => 8

/-- BUTTON_PRESS (R170, R173, R174): a change of the button's filtered level from RELEASED to PRESSED. -/
def execButtonPress (button : Button) (s : State) : Host.Outcome State Fault Refusal :=
  if deskActive s && !pressed (buttonPlace button) s then
    let s₁ := setPressed (buttonPlace button) s
    .next (if deskCheck button s₁ then publishButton button s₁ else refusePress s₁)
  else .next s

/-- RELEASE_KEY_PRESS (R171): a change of the key's filtered level to PRESSED starts the hold timer at 1,000 ms. -/
def execReleaseKeyPress (s : State) : Host.Outcome State Fault Refusal :=
  if deskActive s && !s.dk.key.level then
    .next { s with
      dk := { s.dk with key := { level := true, run := 0 }, holdTimer := some (after s.clock 1000000) }
      lines := { s.lines with key := false } }
  else .next s

/-- RELEASE_KEY_LETGO (R171): a change of the key's filtered level to RELEASED stops a running hold timer. -/
def execReleaseKeyLetgo (s : State) : Host.Outcome State Fault Refusal :=
  if deskActive s && s.dk.key.level then
    .next { s with
      dk := { s.dk with key := { level := false, run := 0 }, holdTimer := none }
      lines := { s.lines with key := true } }
  else .next s

/-- RELEASE_HOLD_EXPIRY (R171): RELEASE is published without a check. -/
def execReleaseHoldExpiry (s : State) : Host.Outcome State Fault Refusal :=
  match s.dk.holdTimer with
  | none => .next s
  | some time =>
    let s₁ := advanceTo time s
    .next (publish .release 0 0 0 0 { s₁ with dk := { s₁.dk with holdTimer := none } })

/-- REFUSAL_LAMP_EXPIRY (R176): REFUSED goes dark. -/
def execRefusalLampExpiry (s : State) : Host.Outcome State Fault Refusal :=
  match s.dk.refusalTimer with
  | none => .next s
  | some time =>
    let s₁ := advanceTo time s
    .next { s₁ with dk := { s₁.dk with refusalTimer := none } }

/-- PANEL_SCAN (R176): the scans follow one another every 1,000 µs. -/
def execPanelScan (s : State) : Host.Outcome State Fault Refusal :=
  match s.dk.nextScan with
  | none => .next s
  | some time =>
    let s₁ := advanceTo time s
    .next (panelScan { s₁ with dk := { s₁.dk with nextScan := some (after time 1000) } })

end Sys2Proof.Machine
end

