-- ==== Sys2Proof/Machine/Motion.lean ====
section
/-! DEFINITION. The motion unit (chapter 2): targets, the twelve limiter steps, the servo law, the record an update writes, and the
PWM generator. -/

namespace Sys2Proof.Machine

/-! ## Target and speed base (section 2.2, R20) -/

/-- The target of an update as its source gives it. -/
def rawTarget (s : State) (ch : Chan) : Int :=
  let m := s.mo.get ch
  let c := chanCfg s ch
  match m.mode with
  | .off => (s.fb.get ch).x
  | .hold => m.hold
  | .live =>
    if c.bindKind = .rate then rateTarget c (s.bd.get ch) m.p else (mapTarget c (s.bd.get ch) (s.rf.get ch) m.p).1
  | .cue => cueTarget s ch
  | .play => playTarget s ch
  | .ref => (s.rf.get ch).goal

/-- Whether the target is a point target: HOLD, LIVE with MAP, CUE and REF (R27). -/
def pointTarget (mode : Mode) (bind : BindKind) : Bool :=
  match mode with
  | .hold | .cue | .ref => true
  | .live => bind ≠ .rate
  | .off | .play => false

/-- The speed base of the mode (section 2.2). -/
def speedBase (mode : Mode) (cuePercent : Nat) (c : ChanCfg) : Nat :=
  match mode with
  | .off | .hold | .live | .play => c.vmax
  | .cue => c.vmax * cuePercent / 100
  | .ref => c.refSpeed

/-- What an update reads of other blocks (R18), as one value: the target as its source gives it, the speed base, whether the
target is a point, the stop state STOPPING, the cap, X, LIM+ and LIM−, REFERENCED, the soft limits in force, and an END_STOPS
run in progress. -/
structure UpdateInput where
  target : Int
  base : Nat
  point : Bool
  stopping : Bool
  cap : Nat
  x : Int
  limPos : Bool
  limNeg : Bool
  ref : Bool
  softLo : Int
  softHi : Int
  endStops : Bool
  deriving DecidableEq, Repr

/-! ## The limiter (R25 to R32) -/

/-- Step 1: the target clamped between the soft limits on a REFERENCED channel (R25). -/
def clampTarget (i : UpdateInput) : Int := if i.ref then clampInt i.softLo i.softHi i.target else i.target

/-- Step 3: the speed limit (R26). -/
def speedLimit (i : UpdateInput) : Nat := if i.stopping then 0 else i.base * i.cap / 100

/-- The speed from which a channel comes to rest within a distance at amax (R27, R28); no speed toward a distance of 0 or less. -/
def brakingSpeed (amax : Nat) (distance : Int) : Int := isqrt (2 * amax * distance.toNat)

/-- Step 5: the target braking bound (R27). -/
def boundToTarget (point : Bool) (amax : Nat) (e vd : Int) : Int :=
  if point then clampInt (-brakingSpeed amax |e|) (brakingSpeed amax |e|) vd else vd

/-- Step 6: the limit braking bound (R28). -/
def boundToLimits (i : UpdateInput) (amax : Nat) (p vd : Int) : Int :=
  if !i.ref then vd
  else if 0 < vd then min vd (brakingSpeed amax (i.softHi * 256 - p))
  else if vd < 0 then max vd (-brakingSpeed amax (p - i.softLo * 256))
  else vd

/-- Steps 7 and 9: the hard-limit escape clamps (R29). -/
def escape (i : UpdateInput) (v : Int) : Int := if (i.limPos && 0 < v) || (i.limNeg && v < 0) then 0 else v

/-- The acceleration limit: astop in STOPPING, amax otherwise (R30). -/
def accelLimit (i : UpdateInput) (c : ChanCfg) : Int := if i.stopping then c.astop else c.amax

/-- Steps 2 to 9: the new velocity (R26 to R30), from the clamped target, P and v. -/
def newVelocity (i : UpdateInput) (c : ChanCfg) (t p v : Int) : Int :=
  let e := t * 256 - p
  let lim : Int := speedLimit i
  let demand := escape i (boundToLimits i c.amax p (boundToTarget i.point c.amax e (clampInt (-lim) lim e)))
  escape i (clampInt (v - accelLimit i c) (v + accelLimit i c) demand)

/-- Step 10, the soft-limit clamp: P′, v′ and whether it acted (R31). -/
def softClamp (i : UpdateInput) (p v : Int) : Int × Int × Bool :=
  let lo := i.softLo * 256
  let hi := i.softHi * 256
  if !i.ref then (p + v, v, false)
  else if p ≤ hi && hi < p + v then (hi, 0, true)
  else if lo ≤ p && p + v < lo then (lo, 0, true)
  else if (hi < p && 0 < v) || (p < lo && v < 0) then (p, 0, true)
  else (p + v, v, false)

/-- Step 10, the range of P: P′ and v′ (R31). -/
def keepInRange (p v : Int) : Int × Int :=
  if Config.maxCount * 256 < p then (Config.maxCount * 256, 0)
  else if p < -(Config.maxCount * 256) then (-(Config.maxCount * 256), 0)
  else (p, v)

/-- Step 11: the stopping distance (R32). astop is at least 1 in a valid image. -/
def stoppingDistance (astop : Nat) (v : Int) : Nat := min 2147483647 (ceilDiv (v.natAbs * v.natAbs) (2 * astop * 256))

/-- Step 12: the lag (R32). -/
def lagOf (t p : Int) : Nat := min 2147483647 ((t * 256 - p).natAbs / 256)

/-- SOFT_LIMIT after an update: set by the clamp, and kept until P′ lies strictly between the soft limits (R31). -/
def softLimitFlag (i : UpdateInput) (acted was : Bool) (p : Int) : Bool :=
  acted || (was && !(i.softLo * 256 < p && p < i.softHi * 256))

/-- The record after the twelve steps of the limiter. -/
def limiter (i : UpdateInput) (c : ChanCfg) (m : Motion) : Motion :=
  let t := clampTarget i
  let stepped := softClamp i m.p (newVelocity i c t m.p m.v)
  let kept := keepInRange stepped.1 stepped.2.1
  { m with
    target := t, targetClamped := t ≠ i.target, p := kept.1, v := kept.2, cap := i.cap
    softLimit := softLimitFlag i stepped.2.2 m.softLimit kept.1
    sd := stoppingDistance c.astop kept.2, lag := lagOf t kept.1
    hold := if i.stopping && m.mode = .hold then wholeCounts kept.1 else m.hold }

/-! ## The servo law (R33 to R35) -/

/-- The position error, saturating (R33). -/
def positionError (p x : Int) : Int := clampInt (-Config.maxCount) Config.maxCount (wholeCounts p - x)

/-- The servo sum (R34). -/
def servoSum (c : ChanCfg) (ep integ v : Int) : Int := c.kp * ep + integ + floorDiv (c.kf * v) 256

/-- The drive value before its clamps (R34). -/
def rawDrive (c : ChanCfg) (acc : Int) : Int := floorDiv acc (2 ^ c.sh)

/-- The drive value (R34): clamped to ±32,767, and to ±ref_drive in an END_STOPS run. -/
def driveValue (i : UpdateInput) (c : ChanCfg) (acc : Int) : Int :=
  let u := clampInt (-32767) 32767 (rawDrive c acc)
  if i.endStops then clampInt (-c.refDrive) c.refDrive u else u

/-- The integrator after u is formed (R35). -/
def nextIntegrator (c : ChanCfg) (saturated : Bool) (ep u integ : Int) : Int :=
  if !saturated || c.ki * ep * u < 0 then clampInt (-c.imax) c.imax (integ + c.ki * ep) else integ

/-- The following condition (R33). -/
def followingNow (i : UpdateInput) (c : ChanCfg) (ep : Int) : Bool := c.feLimit < ep.natAbs && !i.endStops

/-- The high width for a drive value (R36). -/
def highWidth (period : Nat) (u : Int) : Nat := u.natAbs * period / 32768

/-- The record after the servo law, with u handed to the PWM generator. -/
def servoLaw (i : UpdateInput) (c : ChanCfg) (m : Motion) : Motion :=
  let ep := positionError m.p i.x
  let acc := servoSum c ep m.integ m.v
  let u := driveValue i c acc
  let saturated : Bool := u ≠ rawDrive c acc
  { m with
    ep := ep, pos := i.x, u := u, saturated := saturated, integ := nextIntegrator c saturated ep u m.integ
    following := followingNow i c ep, pwmNext := highWidth c.pwmPeriod u, dirNext := u < 0 }

/-- The record of an update in OFF (R24): the setpoint follows X. -/
def trackOff (i : UpdateInput) (m : Motion) : Motion :=
  { m with
    p := i.x * 256, v := 0, integ := 0, u := 0, ep := 0, target := i.x, pos := i.x, lag := 0, sd := 0, cap := i.cap
    targetClamped := false, softLimit := false, saturated := false, following := false, pwmNext := 0, dirNext := false }

/-- The normalized ring value: of a REFERENCED channel of reference kind END_STOPS, from the new setpoint (R19). -/
def ringValue (i : UpdateInput) (c : ChanCfg) (p : Int) : Nat :=
  if i.ref && c.refKind = .endStops then (ringOfCount i.softLo i.softHi (wholeCounts p)).toNat else 0

/-- The whole record of an update (R18). -/
def updateRecord (i : UpdateInput) (c : ChanCfg) (m : Motion) : Motion :=
  let m' := if m.mode = .off then trackOff i m else servoLaw i c (limiter i c m)
  { m' with ring := ringValue i c m'.p }

/-! ## The update as an event -/

/-- What an update reads (R18). -/
def updateInput (s : State) (ch : Chan) : UpdateInput :=
  { target := rawTarget s ch
    base := speedBase (s.mo.get ch).mode s.cfg.cuePercent (chanCfg s ch)
    point := pointTarget (s.mo.get ch).mode (chanCfg s ch).bindKind
    stopping := s.sc.state = .stopping
    cap := s.zm.caps.get ch
    x := (s.fb.get ch).x
    limPos := (s.fb.get ch).limPos.level
    limNeg := (s.fb.get ch).limNeg.level
    ref := referenced s ch
    softLo := (s.rf.get ch).softLo
    softHi := (s.rf.get ch).softHi
    endStops := endStopsRun s ch }

/-- MAP_CLAMPED as the update's target sets it, in LIVE with a MAP binding; clear in other modes and without one (R53). -/
def noteMapClamped (ch : Chan) (s : State) : State :=
  let c := chanCfg s ch
  if (s.mo.get ch).mode = .live && c.bindKind = .map then
    modBd ch (fun b => { b with mapClamped := (mapTarget c b (s.rf.get ch) (s.mo.get ch).p).2 }) s
  else modBd ch (fun b => { b with mapClamped := false }) s

/-- An onset of the following condition raises FOLLOWING (R33). -/
def followingOnset (onset : Bool) (ch : Chan) (s : State) : State := if onset then raiseChannel .following ch s else s

/-- The report of v′ to the stop controller (R39, R122): the last enabled channel at rest in STOPPING ends the ramp. -/
def velocityReport (s : State) : State := if s.sc.state = .stopping && allAtRest s then enterBraking s else s

/-- One servo update of a channel: the local wheel value is taken, the sequencer acts, the record is written, then FOLLOWING, the
sequencer and the take engine take what it wrote in a free order, and the velocity is reported. -/
def servoUpdate (ch : Chan) (s : State) : State :=
  let s₁ := noteMapClamped ch (beforeUpdate ch (refreshLocal ch s))
  let s₂ := modMo ch (updateRecord (updateInput s₁ ch) (chanCfg s₁ ch)) s₁
  let onset := (s₂.mo.get ch).following && !(s₁.mo.get ch).following
  velocityReport (inAnyOrder [followingOnset onset ch, afterUpdate ch, takeAfterUpdate ch] s₂)

/-- SERVO_UPDATE (R18): the updates of an AXIS channel follow one another every 1,000 µs. -/
def execServoUpdate (ch : Chan) (s : State) : Host.Outcome State Fault Refusal :=
  match (s.mo.get ch).nextUpdate with
  | none => .next s
  | some time =>
    .next (servoUpdate ch (modMo ch (fun m => { m with nextUpdate := some (after time 1000) }) (advanceTo time s)))

/-- The generator at the start of a period: the widths and the direction last handed over (R36, R37). `pwmPhase` keeps what a tick
has carried past the end of the period before. Given before the period's end, the event begins the next period at once, at its first unit
(DESIGN CHOICE, log 50). -/
def startPeriod (period : Nat) (m : Motion) : Motion :=
  { m with pwmHigh := m.pwmNext, dir := m.dirNext, pwmPhase := m.pwmPhase - period }

/-- PWM_PERIOD_START (R36, R37): on an AXIS channel; the other channels' outputs stay low and deasserted. One given from outside before the
period has ended is taken as the start it reports (DESIGN CHOICE, log 50). -/
def execPwmPeriodStart (ch : Chan) (s : State) : Host.Outcome State Fault Refusal :=
  if started s && isAxis s ch then .next (modMo ch (startPeriod (chanCfg s ch).pwmPeriod) s) else .next s

end Sys2Proof.Machine
end

