-- ==== Sys2Proof/Machine/Image.lean ====
section
/-! DEFINITION. The configuration image (sections 12.2 and 12.5): its fields, the walk over its records, and the checks of R180. -/

namespace Sys2Proof.Machine

/-! ## Reading fields -/

/-- An unsigned 16-bit field. -/
def n16 (b : List Byte) (i : Nat) : Nat := (word16At b i).toNat

/-- An unsigned 32-bit field. -/
def n32 (b : List Byte) (i : Nat) : Nat := (word32At b i).toNat

/-- A number within a range, ends included. -/
def inRange (lo hi n : Nat) : Bool := lo ≤ n && n ≤ hi

/-- A signed field within ±(2^31 − 1). -/
def inCounts (b : List Byte) (i : Nat) : Bool := -Config.maxCount ≤ intAt b i && intAt b i ≤ Config.maxCount

/-- A field where 0 selects a default. -/
def orDefault (default n : Nat) : Nat := if n = 0 then default else n

/-- A field that is 0 or within a range. -/
def zeroOr (lo hi n : Nat) : Bool := n = 0 || inRange lo hi n

/-! ## Records (R182) -/

/-- Where the channel blocks and the zone records begin, each block 87 bytes plus 6 for each map point. -/
def blockSize (b : List Byte) (o : Nat) : Nat := 87 + 6 * natAt b (o + 86)

/-- The offset of a channel block. -/
def blockAt (b : List Byte) : Chan → Nat
  | .A => 23
  | .B => 23 + blockSize b 23
  | .C => 23 + blockSize b 23 + blockSize b (23 + blockSize b 23)

/-- Where the zone records begin. -/
def zonesAt (b : List Byte) : Nat := blockAt b .C + blockSize b (blockAt b .C)

/-- The offsets of a number of zone records from an offset on, and the offset after the last of them. -/
def zoneWalk (b : List Byte) : Nat → Nat → List Nat × Nat
  | 0, o => ([], o)
  | count + 1, o =>
    let (rest, last) := zoneWalk b count (o + 10 + 10 * natAt b (o + 9))
    (o :: rest, last)

/-- The offsets of the image's zone records. -/
def zoneOffsets (b : List Byte) : List Nat := (zoneWalk b (natAt b 22) (zonesAt b)).1

/-- Every count field in its range, and the records ending two bytes before n (R180). -/
def structureCloses (b : List Byte) : Bool :=
  natAt b 22 ≤ 16
    && (Chan.list.all fun ch => natAt b (blockAt b ch + 86) ≤ 16)
    && ((zoneOffsets b).all fun o => inRange 1 4 (natAt b (o + 9)))
    && (zoneWalk b (natAt b 22) (zonesAt b)).2 + 2 = b.length

/-! ## Enumerated fields -/

/-- The channel kind of a block. -/
def kindAt (b : List Byte) (o : Nat) : ChanKind :=
  if natAt b o = 1 then .axis else if natAt b o = 2 then .wheel else .unused

/-- The reference kind of a block. -/
def refKindAt (b : List Byte) (o : Nat) : RefKind :=
  if natAt b (o + 33) = 1 then .switch
  else if natAt b (o + 33) = 2 then .endStops
  else if natAt b (o + 33) = 3 then .absolute
  else .index

/-- The binding kind of a block. -/
def bindKindAt (b : List Byte) (o : Nat) : BindKind :=
  if natAt b (o + 74) = 1 then .map else if natAt b (o + 74) = 2 then .rate else .none

/-- The map points of a block. -/
def pointsAt (b : List Byte) (o : Nat) : List MapPoint :=
  (List.range (natAt b (o + 86))).map fun i => { w := intAt b (o + 87 + 6 * i), r := n16 b (o + 91 + 6 * i) }

/-! ## Channel blocks -/

/-- The feedback fields of an AXIS or WHEEL channel. -/
def feedbackOk (b : List Byte) (o : Nat) : Bool := natAt b (o + 1) ≤ 1 && natAt b (o + 2) ≤ 1 && natAt b (o + 3) ≤ 31

/-- The limit fields of an AXIS channel. -/
def limitsOk (b : List Byte) (o : Nat) : Bool :=
  natAt b (o + 6) ≤ 1 && (natAt b (o + 6) = 0 || natAt b (o + 7) ≤ 1)

/-- The motion parameters (section 2.1.1). -/
def motionOk (b : List Byte) (o : Nat) : Bool :=
  inRange 1 8388607 (n32 b (o + 8)) && inRange 1 65535 (n16 b (o + 12)) && n16 b (o + 12) ≤ n16 b (o + 14)
    && natAt b (o + 22) ≤ 24 && n32 b (o + 23) ≤ 1073741824 && inRange 1 1048576 (n32 b (o + 27))
    && inRange 200 2000 (n16 b (o + 31))

/-- soft_lo below soft_hi. -/
def softOk (b : List Byte) (o : Nat) : Bool := intAt b (o + 47) < intAt b (o + 51)

/-- The fields of a reference run: ref_speed and ref_timeout. -/
def runOk (b : List Byte) (o : Nat) : Bool :=
  inRange 1 (n32 b (o + 8)) (n32 b (o + 35)) && zeroOr 1 120 (natAt b (o + 55))

/-- The reference fields that the kind uses (section 3.1), with the feedback type the kind needs. -/
def referenceOk (b : List Byte) (o : Nat) : Bool :=
  natAt b (o + 33) ≤ 3 &&
    match refKindAt b o with
    | .index | .switch =>
      natAt b (o + 1) = 0 && natAt b (o + 34) ≤ 1 && runOk b o && inCounts b (o + 39) && inCounts b (o + 43) && softOk b o
    | .endStops =>
      runOk b o && 1 ≤ n16 b (o + 56) && inRange 1 2147483647 (n32 b (o + 58)) && n32 b (o + 62) ≤ 1048576
        && inRange 1 32767 (n16 b (o + 66))
    | .absolute => natAt b (o + 1) = 1 && softOk b o

/-- Map values strictly increasing. -/
def increasing : List MapPoint → Bool
  | p :: q :: rest => p.w < q.w && increasing (q :: rest)
  | _ => true

/-- The source fields of a binding. -/
def sourceOk (b : List Byte) (o : Nat) : Bool :=
  inRange 1 30 (natAt b (o + 75)) && inRange 1 3 (natAt b (o + 76)) && zeroOr 5 100 (natAt b (o + 77))

/-- The binding fields that the kind uses (section 3.7). -/
def bindingOk (b : List Byte) (o : Nat) : Bool :=
  natAt b (o + 74) ≤ 2 &&
    match bindKindAt b o with
    | .none => natAt b (o + 86) = 0
    | .map =>
      sourceOk b o && 2 ≤ natAt b (o + 86) && increasing (pointsAt b o)
        && (refKindAt b o = .endStops || refKindAt b o = .absolute)
    | .rate => sourceOk b o && natAt b (o + 86) = 0

/-- The checks of one channel block (R180). Fields without a narrower range than their width need none. -/
def blockOk (b : List Byte) (o : Nat) : Bool :=
  natAt b o ≤ 2 &&
    match kindAt b o with
    | .unused => natAt b (o + 86) = 0
    | .wheel => feedbackOk b o && natAt b (o + 86) = 0
    | .axis =>
      feedbackOk b o && limitsOk b o && motionOk b o && referenceOk b o && bindingOk b o && n32 b (o + 70) ≤ 1048576

/-- A WHEEL channel's fields. -/
def wheelBlock (b : List Byte) (o : Nat) : ChanCfg :=
  { ChanCfg.unused with
    kind := .wheel, analog := natAt b (o + 1) = 1, reversed := natAt b (o + 2) = 1, qfilt := natAt b (o + 3)
    analogZero := n16 b (o + 4) }

/-- An AXIS channel's fields. -/
def axisBlock (b : List Byte) (o : Nat) : ChanCfg :=
  { kind := .axis, analog := natAt b (o + 1) = 1, reversed := natAt b (o + 2) = 1, qfilt := natAt b (o + 3)
    analogZero := n16 b (o + 4), limits := natAt b (o + 6) = 1, activeLow := natAt b (o + 7) = 1
    vmax := n32 b (o + 8), amax := n16 b (o + 12), astop := n16 b (o + 14)
    kp := n16 b (o + 16), ki := n16 b (o + 18), kf := n16 b (o + 20), sh := natAt b (o + 22)
    imax := n32 b (o + 23), feLimit := n32 b (o + 27), pwmPeriod := n16 b (o + 31)
    refKind := refKindAt b o, refNegative := natAt b (o + 34) = 1, refSpeed := n32 b (o + 35)
    refPosition := intAt b (o + 39), parkPosition := intAt b (o + 43), softLo := intAt b (o + 47), softHi := intAt b (o + 51)
    refTimeout := orDefault 60 (natAt b (o + 55)), stallThreshold := n16 b (o + 56)
    minSpan := n32 b (o + 58), endMargin := n32 b (o + 62), refDrive := n16 b (o + 66)
    inPosition := n16 b (o + 68), takeTolerance := n32 b (o + 70)
    bindKind := bindKindAt b o, srcStation := natAt b (o + 75), srcChannel := natAt b (o + 76)
    wheelTimeout := orDefault 20 (natAt b (o + 77))
    center := intAt b (o + 78), deadband := n16 b (o + 82), gain := n16 b (o + 84)
    points := if bindKindAt b o = .map then pointsAt b o else [] }

/-- A channel block as handed out. -/
def blockCfg (b : List Byte) (o : Nat) : ChanCfg :=
  match kindAt b o with
  | .unused => .unused
  | .wheel => wheelBlock b o
  | .axis => axisBlock b o

/-! ## Zone records (R109) -/

/-- One term of a zone record. -/
def termAt (b : List Byte) (o : Nat) : Term :=
  { station := natAt b o, channel := natAt b (o + 1), lo := intAt b (o + 2), hi := intAt b (o + 6) }

/-- The terms of a zone record. -/
def termsAt (b : List Byte) (o : Nat) : List Term :=
  (List.range (natAt b (o + 9))).map fun j => termAt b (o + 10 + 10 * j)

/-- A zone record as handed out. -/
def zoneAt (b : List Byte) (o : Nat) : ZoneCfg :=
  { id := natAt b o, keepOut := natAt b (o + 1) = 0, cap := natAt b (o + 2)
    source := if natAt b (o + 3) = 1 then .line (natAt b (o + 4)) (natAt b (o + 5)) else .always
    clearHold := if n16 b (o + 6) = 65535 then 2000 else n16 b (o + 6)
    actsOn := { a := (byteAt b (o + 8)).getLsbD 0, b := (byteAt b (o + 8)).getLsbD 1, c := (byteAt b (o + 8)).getLsbD 2 }
    terms := termsAt b o }

/-- A term's conditions: it names a station and a channel, lo is not above hi, both are counts, and a channel of this station is
not UNUSED. -/
def termOk (station : Nat) (kinds : PerChan ChanKind) (t : Term) : Bool :=
  inRange 1 30 t.station && inRange 1 3 t.channel && t.lo ≤ t.hi && -Config.maxCount ≤ t.lo
    && (t.station ≠ station || (Chan.ofNumber? t.channel).any fun ch => kinds.get ch ≠ .unused)

/-- A zone record's conditions (R109, R180, R182). -/
def zoneOk (station : Nat) (kinds : PerChan ChanKind) (b : List Byte) (o : Nat) : Bool :=
  inRange 1 16 (natAt b o) && natAt b (o + 1) ≤ 1 && natAt b (o + 2) ≤ 100 && natAt b (o + 3) ≤ 1
    && (natAt b (o + 3) = 0 || (inRange 1 30 (natAt b (o + 4)) && inRange 1 4 (natAt b (o + 5))))
    && (n16 b (o + 6) ≤ 10000 || n16 b (o + 6) = 65535)
    && natAt b (o + 8) ≤ 7
    && (termsAt b o).all (termOk station kinds)

/-- No zone id is used twice. -/
def uniqueIds : List Nat → Bool
  | [] => true
  | id :: rest => !rest.contains id && uniqueIds rest

/-! ## Header -/

/-- The header's fields in their ranges (R58, R78, R80, R89, R180, R182). -/
def headerOk (station : Nat) (b : List Byte) : Bool :=
  natAt b 2 = 1 && natAt b 3 = station && inRange 1 30 station && natAt b 4 ≤ 30 && natAt b 5 ≤ 7
    && zeroOr 1000 (Config.nominalPeriod (natAt b 5) - 4000) (n16 b 6)
    && zeroOr 2 8 (natAt b 8)
    && !(word32At b 9).getLsbD 0 && !(word32At b 9).getLsbD 31
    && zeroOr 10 100 (natAt b 13) && zeroOr 100 5000 (n16 b 14) && n16 b 16 ≤ 500 && n16 b 18 ≤ 500
    && natAt b 20 ≤ 8

/-- The CRC-16 of bytes 0 to n − 3 against the last two bytes. -/
def crcOk (b : List Byte) : Bool := crc16 (b.take (b.length - 2)) = word16At b (b.length - 2)

/-- The kinds of the three channels. -/
def kindsOf (b : List Byte) : PerChan ChanKind :=
  { a := kindAt b (blockAt b .A), b := kindAt b (blockAt b .B), c := kindAt b (blockAt b .C) }

/-- The whole check of R180 on a buffer of n bytes. -/
def imageOk (station : Nat) (b : List Byte) : Bool :=
  inRange 286 1024 b.length && n16 b 0 = b.length && structureCloses b && crcOk b && headerOk station b
    && (Chan.list.all fun ch => blockOk b (blockAt b ch))
    && ((zoneOffsets b).all (zoneOk station (kindsOf b) b))
    && uniqueIds ((zoneOffsets b).map (natAt b))

/-- The fields a valid image hands out, defaults taken at their values. -/
def imageCfg (b : List Byte) : Cfg :=
  { desk := natAt b 4, frameRate := natAt b 5, publishDelay := orDefault 2000 (n16 b 6)
    peerTimeout := orDefault 3 (natAt b 8), required := word32At b 9, cuePercent := orDefault 25 (natAt b 13)
    stopTimeout := orDefault 1000 (n16 b 14), brakeEngage := n16 b 16, brakeRelease := n16 b 18
    wheelPeriod := orDefault 2 (natAt b 20), polarity := (byteAt b 21).setWidth 4
    chans := { a := blockCfg b (blockAt b .A), b := blockCfg b (blockAt b .B), c := blockCfg b (blockAt b .C) } }

/-- The zone records a valid image hands out. -/
def imageZones (b : List Byte) : List ZoneCfg := (zoneOffsets b).map (zoneAt b)

end Sys2Proof.Machine
end

