-- ==== Sys2Proof/Machine/StartUp.lean ====
section
/-! DEFINITION. The start-up unit (chapter 12): the two resets, the release, and the finish at which every block takes its fields
or its invalid-image behaviour. -/

namespace Sys2Proof.Machine

/-! ## Resets (R178) -/

/-- Every block at its reset values, with the store given; the outside's part of the state stays. -/
def resetTo (byPower : Bool) (store : Store) (s : State) : State :=
  { State.reset with
    pending := s.pending, lines := s.lines, inputs := s.inputs, order := s.order, draws := s.draws
    su := .held byPower, ts := store }

/-- POWER_RESET (R178). During a warm reset the hold becomes the supply's (DESIGN CHOICE, log 31). -/
def execPowerReset (s : State) : Host.Outcome State Fault Refusal := .next (resetTo true .initial s)

/-- A power reset is held: it ends when the supply is good. -/
def powerHeld (s : State) : Bool := s.su.phase = .held && s.su.heldByPower

/-- WARM_RESET (R178): the take store keeps its slots, entries and free-page list (R149). While a power reset is held the hold stays the
supply's (DESIGN CHOICE, log 31). -/
def execWarmReset (s : State) : Host.Outcome State Fault Refusal :=
  .next (resetTo (powerHeld s) (storeWarmReset s.ts) s)

/-! ## Release (R178, R179) -/

/-- A filter that takes its first sample, or one under a new reading of its line: a sample that differs begins a run. -/
def resample (sample : Bool) (f : Filt) : Filt := { f with run := if sample = f.level then 0 else max 1 f.run }

/-- Whether a presence line reads as occupied (R104). -/
def readsOccupied (polarity presence : BitVec 4) (i : Nat) : Bool := xor (presence.getLsbD i) (polarity.getLsbD i)

/-- The presence filters after a sample under a polarity. -/
def resamplePresence (polarity : BitVec 4) (s : State) : List Filt :=
  s.zm.presence.mapIdx fun i f => resample (readsOccupied polarity s.lines.presence i) f

/-- The lines at the end of a reset: the straps as sampled, and the line that ended the hold at its level: the supply good, or RESET high
(log 4). -/
def releaseLines (byPower : Bool) (straps : BitVec 5) (l : Lines) : Lines :=
  if byPower then { l with straps := straps, supply := true } else { l with straps := straps, reset := true }

/-- What the unit sends on the memory bus after a release: ten clock pulses and a stop condition, which end a transfer cut short, then the
read from address 0 at device address 83 (R178). -/
def releaseBus : List BusAction := [.clockPulses 10, .stop, .read 83 0]

/-- RESET_RELEASE (R178, R179): the straps are sampled, the unit reads, the clock counts from 0, and the chain and presence filters
take their first samples (R104, R125). The RESTART record names the station (R134). -/
def execResetRelease (straps : BitVec 5) (s : State) : Host.Outcome State Fault Refusal :=
  if s.su.phase = .held then
    let restart := fun (c : Option CauseRec) => c.map fun r => { r with origin := straps.setWidth 8 }
    .next { s with
      clock := 0
      lines := releaseLines s.su.heldByPower straps s.lines
      su := { s.su with phase := .reading, station := straps, resetRun := 0, bus := releaseBus }
      sc := { s.sc with
        first := restart s.sc.first, last := restart s.sc.last, estop := resample s.lines.estop s.sc.estop }
      zm := { s.zm with presence := resamplePresence 0 s } }
  else .next s

/-! ## The image read (R178) -/

/-- The image length that the first two bytes give. -/
def statedLength (m : List Byte) : Nat := n16 m 0

/-- The image buffer after the read: the whole image, or the two length bytes when the length is out of range. -/
def readBuffer : Option (List Byte) → List Byte
  | none => []
  | some m => if inRange 286 1024 (statedLength m) then m.take (statedLength m) else m.take 2

/-- How long the read takes in µs: (9n + 50) bit times of 2.5 µs; 170 when it stops after the length, 50 without an
acknowledgement. An odd number of half microseconds ends within the next microsecond (DEDUCED, log 14). -/
def readTime : Option (List Byte) → Nat
  | none => 50
  | some m => if inRange 286 1024 (statedLength m) then ceilDiv ((9 * statedLength m + 50) * 5) 2 else 170

/-! ## The finish (R178, R180): what each block takes -/

/-- The feedback record at the finish (R4, R9, R17). -/
def finishFeedback (now : Word) (c : ChanCfg) (l : ChanLines) (f : Feedback) : Feedback :=
  if c.kind = .unused then f
  else
    let g : Feedback :=
      if c.analog then { f with nextConversion := some (after now 250) }
      else { f with qa := ⟨l.qa, 0⟩, qb := ⟨l.qb, 0⟩, qi := ⟨l.qi, 0⟩, nextLeak := some (after now 100000) }
    if c.kind = .axis && c.limits then
      { g with
        limPos := resample (xor l.limp c.activeLow) ⟨true, 0⟩, limNeg := resample (xor l.limn c.activeLow) ⟨true, 0⟩ }
    else g

/-- The motion record at the finish: the first servo update of an AXIS channel is 1,000 µs on (R18). -/
def finishMotion (now : Word) (c : ChanCfg) (m : Motion) : Motion :=
  if c.kind = .axis then { m with nextUpdate := some (after now 1000) } else m

/-- The reference record at the finish: an ABSOLUTE channel is REFERENCED with the image's soft limits (R41). -/
def finishReference (c : ChanCfg) (r : Reference) : Reference :=
  if c.kind = .axis && c.refKind = .absolute then
    { r with state := .referenced, softLo := c.softLo, softHi := c.softHi }
  else r

/-- The frame timer at the finish (R59, R64, R68). The level of FREF standing at the finish counts as its first sample, so that a line low
then makes an arrival of a high next sample (DESIGN CHOICE, log 25). -/
def finishFrameTimer (now : Word) (frefHigh : Bool) (code : Nat) (aligned : Bool) (t : FrameTimer) : FrameTimer :=
  { t with
    deadline := some (after now (Config.nominalPeriod code)), period := Config.nominalPeriod code, aligned := aligned
    frefLow := !frefHigh }

/-- The trunk controller at the finish (R71, R72, R80). -/
def finishTrunk (now : Word) (level : Bool) (wheelMs : Option Nat) (t : Trunk) : Trunk :=
  { t with
    lastTransition := now, level := level, wheelTimer := wheelMs.map fun ms => after now (ms * 1000) }

/-- The desk unit of an active desk at the finish: its filters take their first samples (R170), the first scan is 1,000 µs on. -/
def finishDesk (now : Word) (l : Lines) (d : Desk) : Desk :=
  { d with
    buttons := d.buttons.mapIdx fun i f => resample (!l.buttons.getLsbD i) f
    key := resample (!l.key) d.key
    selects := d.selects.mapIdx fun i f => resample (!l.selects.getLsbD i) f
    nextScan := some (after now 1000) }

/-- The finish with an invalid image (R180): the blocks keep the values they work with, and CONFIG_INVALID is raised. -/
def finishInvalid (s : State) : State :=
  raiseConfigInvalid
    { s with
      su := { s.su with phase := .done, validity := .invalid }
      ft := finishFrameTimer s.clock s.lines.fref s.cfg.frameRate false s.ft
      tk := finishTrunk s.clock s.lines.trunk none s.tk }

/-- The wheel period of a station that runs a wheel timer (R80). -/
def wheelMillis (c : Cfg) : Option Nat :=
  if Chan.list.any fun ch => (c.chans.get ch).kind = .wheel then some c.wheelPeriod else none

/-- The zone monitor at the finish with a valid image (R104, R105, R109): every cap stays 100 until the first scan (R117). -/
def finishZones (c : Cfg) (zones : List ZoneCfg) (s : State) : ZoneMonitor :=
  { s.zm with
    presence := resamplePresence c.polarity s
    zones := zones.map (freshZone s.clock s.su.station.toNat s.zm.presence), caps := .all 100
    nextScan := some (after s.clock 1000) }

/-- One value for each channel from three records. -/
def zip3 {α β γ δ : Type} (f : α → β → γ → δ) (x : PerChan α) (y : PerChan β) (z : PerChan γ) : PerChan δ :=
  { a := f x.a y.a z.a, b := f x.b y.b z.b, c := f x.c y.c z.c }

/-- The finish with a valid image: every block takes its fields (R180). -/
def finishValid (c : Cfg) (zones : List ZoneCfg) (s : State) : State :=
  let isDesk : Bool := c.desk ≠ 0 && c.desk = s.su.station.toNat
  { s with
    su := { s.su with phase := .done, validity := .valid }
    cfg := c
    fb := zip3 (finishFeedback s.clock) c.chans s.lines.chans s.fb
    mo := zip3 (fun x m (_ : Unit) => finishMotion s.clock x m) c.chans s.mo (.all ())
    rf := zip3 (fun x r (_ : Unit) => finishReference x r) c.chans s.rf (.all ())
    ft := finishFrameTimer s.clock s.lines.fref c.frameRate isDesk s.ft
    tk := finishTrunk s.clock s.lines.trunk (wheelMillis c) s.tk
    zm := finishZones c zones s
    dk := if isDesk then finishDesk s.clock s.lines s.dk else s.dk }

/-- START_UP_FINISH (R178, R180): at the last byte read the image is checked, and the unit enters DONE. -/
def execStartUpFinish (memory : Option (List Byte)) (s : State) : Host.Outcome State Fault Refusal :=
  if s.su.phase = .reading then
    let b := readBuffer memory
    let s₁ := advanceTo (after 0 (readTime memory)) { s with su := { s.su with buffer := b } }
    .next (if imageOk s.su.station.toNat b then finishValid (imageCfg b) (imageZones b) s₁ else finishInvalid s₁)
  else .next s

end Sys2Proof.Machine
end

