-- ==== Sys2Proof/Machine/FrameTimer.lean ====
section
/-! DEFINITION. The frame timer (chapter 4) and what the blocks do at a frame event, the build of the STATE frame among it
(R77, R79, R97). -/

namespace Sys2Proof.Machine

/-! ## The STATE build (R77) -/

/-- A channel's record of a STATE frame (R19, R77): for a WHEEL channel the position is the published wheel value. -/
def chanRecord (s : State) (ch : Chan) : ChanRec :=
  let m := s.mo.get ch
  { kind := (chanCfg s ch).kind, ref := (s.rf.get ch).state
    position := if isWheel s ch then publishedWheel (s.fb.get ch) else m.pos
    velocity := m.v, sd := m.sd, cap := m.cap, flags := chanFlags s ch, ring := m.ring }

/-- The station number a frame's peer diagnostic reports on (R97). -/
def diagnosticStation (seq : Byte) : Nat := seq.toNat % 30 + 1

/-- The record a peer diagnostic reports; the station's own number reads as ABSENT, 0, 0 (R97). -/
def diagnosticRecord (s : State) (n : Nat) : PeerRecord := if n = s.su.station.toNat then .initial else peerRecord s n

/-- The filtered presence levels as published: bit 0 is P1. -/
def presenceLevels (f : List Filt) : BitVec 4 :=
  BitVec.ofNat 4 (((f.getD 0 ⟨true, 0⟩).level.toNat) + 2 * ((f.getD 1 ⟨true, 0⟩).level.toNat)
    + 4 * ((f.getD 2 ⟨true, 0⟩).level.toNat) + 8 * ((f.getD 3 ⟨true, 0⟩).level.toNat))

/-- The desk command a STATE frame carries (R77, R170). -/
def deskContent (s : State) : DeskContent := if deskActive s then s.dk.current else .zero

/-- The STATE frame of the state as it stands, the stop part from the frame report (R77, R131). -/
def buildBody (report : StopReport) (s : State) : StateBody :=
  let n := diagnosticStation s.tk.stateSeq
  let r := diagnosticRecord s n
  { seq := s.tk.stateSeq, count := s.ft.count, capable := takeCapable s, lock := s.ft.lock, aligned := s.ft.aligned
    stop := report, presence := presenceLevels s.zm.presence
    phase := s.te.phase, take := s.te.take, length := s.te.length, result := s.te.result, fault := s.te.fault
    spoiled := s.te.spoiled, holdover := s.te.holdover, serial := s.te.serial, desk := deskContent s
    chans := { a := chanRecord s .A, b := chanRecord s .B, c := chanRecord s .C }
    glitches := s.ft.glitches, counters := s.tk.counters
    peer := n, peerFresh := r.freshness, peerAge := r.age, peerGaps := r.gaps }

/-- A STATE frame in the slot before its send has begun. -/
def waitsInSlot : StateSlot → Bool
  | .empty => false
  | .waiting _ _ | .ready _ => true

/-- The build at a frame event (R77, R79): placed WAITING with its publish time; a frame it replaces is counted late. -/
def buildState (stamp : Word) (s : State) : State :=
  let body := buildBody (s.tk.report.getD (stopReport s)) s
  { s with
    tk := { s.tk with
      stateSlot := .waiting body (after stamp s.cfg.publishDelay)
      stateSeq := s.tk.stateSeq + 1
      counters := if waitsInSlot s.tk.stateSlot then { s.tk.counters with late := satIncr 65535 s.tk.counters.late }
        else s.tk.counters } }

/-- The slot with the stop part of its frame completed by a report. -/
def fillReport (r : StopReport) : StateSlot → StateSlot
  | .empty => .empty
  | .waiting body publish => .waiting { body with stop := r } publish
  | .ready body => .ready { body with stop := r }

/-- The frame report completes the frame of this event, whichever came first (R131). -/
def completeBuild (s : State) : State :=
  match s.tk.report with
  | none => s
  | some r => { s with tk := { s.tk with stateSlot := fillReport r s.tk.stateSlot, report := none } }

/-! ## Frame events (R66, R67) -/

/-- A confirmed RELEASE reaches the stop controller before it takes the frame event, so that it is executed at it (R102). -/
def handRelease (s : State) : State :=
  if s.pt.confirmed.any fun c => c.kind = codeDesk .release then handConfirmed s else s

/-- The stop controller's part of a frame event. -/
def stopPart (s : State) : State := stopFrameEvent (handRelease s)

/-- The blocks that take a frame event, each as an event of its own, with the lock notice when the lock state has changed. -/
def frameTasks (stamp : Word) (old new : Lock) : List (State → State) :=
  [buildState stamp, ageFrameEvent, handConfirmed, stopPart, takeFrameEvent]
    ++ (if old = new then [] else [lockNotice new])

/-- The deadline after a frame event (R59). -/
def deadlineAfter (code : Nat) (lock : Lock) (stamp : Word) : Word :=
  match lock with
  | .free => after stamp (Config.nominalPeriod code)
  | .locking | .locked | .holdover => after stamp (Config.nominalPeriod code + Config.tolerance code)

/-- The frame timer after a frame event, with the lock state already changed. -/
def stampEvent (code : Nat) (pulse : Bool) (stamp : Word) (t : FrameTimer) : FrameTimer :=
  { t with
    lastEvent := some stamp, lastPulse := pulse, count := t.count + 1, deadline := some (deadlineAfter code t.lock stamp) }

/-- A frame event (R66): `next` changes the lock state and its counts, then the event is handed to the blocks in a free order. Every block
reads the new lock state, also at an expiry that R61 and R63 say makes its event first and then goes to FREE (DESIGN CHOICE, log 41). -/
def frameEvent (pulse : Bool) (stamp : Word) (next : FrameTimer → FrameTimer) (s : State) : State :=
  let t := stampEvent s.cfg.frameRate pulse stamp (next s.ft)
  completeBuild (inAnyOrder (frameTasks stamp s.ft.lock t.lock) { s with ft := t })

/-! ## Lock states (R60 to R63) -/

/-- An interval within the tolerance of the nominal period. -/
def goodInterval (code interval : Nat) : Bool :=
  Config.nominalPeriod code - Config.tolerance code ≤ interval
    && interval ≤ Config.nominalPeriod code + Config.tolerance code

/-- LOCKING entered with the counts at 0. -/
def startLocking (t : FrameTimer) : FrameTimer := { t with lock := .locking, lockCount := 0, holdCount := 0 }

/-- The lock state after a pulse event that ends an interval since the last event (none before the first). -/
def pulseLock (code : Nat) (interval : Option Nat) (t : FrameTimer) : FrameTimer :=
  match t.lock, interval with
  | .free, _ => startLocking t
  | _, none => startLocking t
  | .locking, some d =>
    if !t.lastPulse then t
    else if goodInterval code d then
      { t with
        period := d, lockCount := t.lockCount + 1, lock := if t.lockCount + 1 = 8 then .locked else .locking }
    else { t with lockCount := 0 }
  | .locked, some d => if goodInterval code d then { t with period := d } else startLocking t
  | .holdover, some d => if goodInterval code d then { t with lock := .locked, holdCount := 0 } else startLocking t

/-- The lock state after a synthetic event. -/
def expiryLock (t : FrameTimer) : FrameTimer :=
  match t.lock with
  | .free => t
  | .locking => { t with lock := .free, lockCount := 0 }
  | .locked => { t with lock := .holdover, holdCount := 1 }
  | .holdover =>
    if t.holdCount + 1 = 3 then { t with lock := .free, holdCount := 0 } else { t with holdCount := t.holdCount + 1 }

/-- The interval from the last event to now. -/
def sinceEvent (s : State) : Option Nat := s.ft.lastEvent.map (elapsed s.clock)

/-- An arrival less than a half period after the last event is a glitch (R59). -/
def isGlitch (s : State) : Bool := (sinceEvent s).any fun d => d < Config.halfPeriod s.cfg.frameRate

/-! ## Commands -/

/-- FREF_ARRIVAL (R59 to R63, R65): a station without a valid image takes none. One given from outside is an arrival also when no low sample
has come since the last: the command stands for the low sample before it (DESIGN CHOICE, log 35). -/
def execFrefArrival (s : State) : Host.Outcome State Fault Refusal :=
  if started s && validImage s then
    let s₁ : State := { s with lines := { s.lines with fref := true }, ft := { s.ft with frefLow := false } }
    .next (if isGlitch s then { s₁ with ft := { s₁.ft with glitches := satIncr 65535 s₁.ft.glitches } }
      else frameEvent true s.clock (pulseLock s.cfg.frameRate (sinceEvent s)) s₁)
  else .next s

/-- FRAME_DEADLINE_EXPIRY (R60 to R63): a synthetic event stamped at the deadline. -/
def execFrameDeadlineExpiry (s : State) : Host.Outcome State Fault Refusal :=
  match s.ft.deadline with
  | none => .next s
  | some time => .next (frameEvent false time expiryLock (advanceTo time s))

end Sys2Proof.Machine
end

