-- ==== Sys2Proof/Machine/Trunk.lean ====
section
/-! DEFINITION. The trunk controller (chapter 5): quiet and access gaps, sends and their read-back, reception and its checks. -/

namespace Sys2Proof.Machine

/-! ## Frames -/

/-- The kind byte of a frame class (section 12.4.1). -/
def kindByte : FrameClass → Byte
  | .state => 1
  | .wheel => 2
  | .stop => 3

/-- The fixed body length of a kind byte; none when it names no kind. -/
def bodyLength? (kind : Byte) : Option Nat :=
  if kind = 1 then some 123 else if kind = 2 then some 13 else if kind = 3 then some 9 else none

/-- The base of a class (R73). -/
def gapBase : FrameClass → Nat
  | .stop => 0
  | .wheel => 32
  | .state => 64

/-- The access gap: base plus station number (R73). -/
def accessGap (cls : FrameClass) (station : BitVec 5) : Nat := gapBase cls + station.toNat

/-- The slot of the access cycle the clock has reached (R72). -/
def currentSlot (now quietAt : Word) : Nat := elapsed now quietAt % 128

/-- The body of the ready frame of a class, if it holds one. -/
def readyBody (cls : FrameClass) (t : Trunk) : Option (List Byte) :=
  match cls with
  | .stop => t.stopSlot.map fun x => stopBytes x.body
  | .wheel => t.wheelSlot
  | .state =>
    match t.stateSlot with
    | .ready body => some (stateBytes body)
    | .empty | .waiting _ _ => none

/-- What the sent notice of a STATE frame carries (R76): sequence and desk-command content. -/
def noticeOf (t : Trunk) : Byte × DeskContent :=
  match t.stateSlot with
  | .ready body => (body.seq, body.desk)
  | .empty | .waiting _ _ => (0, .zero)

/-! ## Sending (R73, R75, R76) -/

/-- The flight a send begins with. -/
def newFlight (cls : FrameClass) (body : List Byte) (s : State) : Flight :=
  { cls := cls, bits := lineBits (envelope (kindByte cls) (stationByte s) body), started := s.clock, others := []
    replaced := false, seq := (noticeOf s.tk).1, desk := (noticeOf s.tk).2 }

/-- A send begins: a STATE or WHEEL frame leaves its slot, the quiet ends, and the receive path takes no frame until the next
quiet (R85). The begin counts as a transition of the line, also on a line that another station holds dominant, whose level does not
change (DESIGN CHOICE, log 26). -/
def beginSend (cls : FrameClass) (body : List Byte) (s : State) : State :=
  { s with
    tk := { s.tk with
      flight := some (newFlight cls body s)
      stateSlot := if cls = .state then .empty else s.tk.stateSlot
      wheelSlot := if cls = .wheel then none else s.tk.wheelSlot
      quietAt := none, lastTransition := s.clock, rx := .deaf, heard := [] } }

/-- The station time of the next slot that equals a gap. -/
def gapTime (now quietAt : Word) (gap : Nat) : Word := after now ((gap + 128 - currentSlot now quietAt) % 128)

/-- SEND_START (R73): a ready frame of the class begins at its gap of the access cycle. -/
def execSendStart (cls : FrameClass) (s : State) : Host.Outcome State Fault Refusal :=
  match s.tk.quietAt, readyBody cls s.tk with
  | some quiet, some body =>
    if s.tk.flight.isSome then .next s
    else .next (beginSend cls body { s with clock := gapTime s.clock quiet (accessGap cls s.su.station) })
  | _, _ => .next s

/-- The first bit at which the line shows dominant where the station drives recessive (R75); what the others drive beyond the end
of the list is recessive. -/
def collisionAt : List Bool → List Bool → Option Nat
  | [], _ => none
  | _ :: _, [] => none
  | b :: bs, o :: os => if b && !o then some 0 else (collisionAt bs os).map (· + 1)

/-- Bits a send has driven when it ends: all of them, or up to the collision. -/
def bitsSent (bits others : List Bool) : Nat :=
  match collisionAt bits others with
  | none => bits.length
  | some k => k + 1

/-- The line levels while two drive at once: dominant if either drives dominant (R71). -/
def wired : List Bool → List Bool → List Bool
  | [], _ => []
  | bs, [] => bs
  | b :: bs, o :: os => (b && o) :: wired bs os

/-- The index after the last change of level, counted in bit times from `i`: a change at the start of bit j is at j. -/
def lastChange (level : Bool) (i last : Nat) : List Bool → Nat
  | [] => last
  | b :: bs => lastChange b (i + 1) (if b = level then last else i) bs

/-- The line levels of a send up to its end: after the last bit of a success the line returns to recessive (R75); a collision
ends on the dominant level another station drives. -/
def sentLevels (bits others : List Bool) : List Bool :=
  match collisionAt bits others with
  | none => wired bits others ++ [true]
  | some k => (wired bits others).take (k + 1)

/-- One repeat of the STOP slot used (R76, R81). -/
def useRepeat (slot : Option StopSlot) : Option StopSlot :=
  match slot with
  | none => none
  | some x => if x.repeats ≤ 1 then none else some { x with repeats := x.repeats - 1 }

/-- The transmitter idle after a send of n bit times, and the last transition the send has left on the line, counted from a recessive
line before it (DESIGN CHOICE, log 26). -/
def endFlight (f : Flight) (others : List Bool) (s : State) : State :=
  let last := after f.started (ceilDiv (lastChange true 0 0 (sentLevels f.bits others)) 4)
  { s with
    tk := { s.tk with
      flight := none
      lastTransition := if reached s.tk.lastTransition last then s.tk.lastTransition else last } }

/-- The slot a frame came from takes the end of its send (R76). -/
def slotAfterSend (f : Flight) (success : Bool) (s : State) : State :=
  match f.cls with
  | .state => if success then sentNotice f.seq f.desk s else s
  | .wheel => s
  | .stop => if f.replaced then s else { s with tk := { s.tk with stopSlot := useRepeat s.tk.stopSlot } }

/-- The collision counter (R75, R87). -/
def countCollision (success : Bool) (s : State) : State :=
  if success then s
  else
    { s with
      tk := { s.tk with counters := { s.tk.counters with collisions := satIncr 65535 s.tk.counters.collisions } } }

/-- SEND_END (R75, R76): the end of the flight, by success or by collision. -/
def execSendEnd (others : List Bool) (s : State) : Host.Outcome State Fault Refusal :=
  match s.tk.flight with
  | none => .next s
  | some f =>
    let success := (collisionAt f.bits others).isNone
    let s₁ := advanceTo (after f.started (ceilDiv (bitsSent f.bits others) 4)) s
    .next (slotAfterSend f success (countCollision success (endFlight f others s₁)))

/-! ## Reception (R82 to R86) -/

/-- Why a frame is discarded (R83). -/
inductive Discard where
  | framing | crc | kind | length | source
  deriving DecidableEq, Repr

/-- The first check a frame fails, none for a valid frame (R83). -/
def failedCheck (b : List Byte) : Option Discard :=
  if b.length < 7 || byteAt b 0 ≠ 53 || byteAt b 1 ≠ 202 then some .framing
  else if crc16 ((b.drop 2).take (b.length - 4)) ≠ word16At b (b.length - 2) then some .crc
  else
    match bodyLength? (byteAt b 2) with
    | none => some .kind
    | some n =>
      if natAt b 3 ≠ n || b.length ≠ 7 + natAt b 3 then some .length
      else if natAt b 4 = 0 || 31 ≤ natAt b 4 then some .source
      else none

/-- One counter raised, saturating at 65,535 (R87). -/
def countDiscard (d : Discard) (c : Counters) : Counters :=
  match d with
  | .framing => { c with framing := satIncr 65535 c.framing }
  | .crc => { c with crc := satIncr 65535 c.crc }
  | .kind => { c with kind := satIncr 65535 c.kind }
  | .length => { c with length := satIncr 65535 c.length }
  | .source => { c with source := satIncr 65535 c.source }

/-- The body of a frame. -/
def frameBody (b : List Byte) : List Byte := (b.drop 5).take (b.length - 7)

/-- A valid frame of another station handed on in the form of its kind (R84). -/
def handOn (b : List Byte) (s : State) : State :=
  let body := frameBody b
  let source := natAt b 4
  if byteAt b 2 = 1 then stateArrival source body s
  else if byteAt b 2 = 2 then
    wheelArrival source (byteAt body 0) { a := intAt body 1, b := intAt body 5, c := intAt body 9 } s
  else stopArrival source body s

/-- A frame that has ended, as its bytes (R83, R84, R86). -/
def frameEnd (b : List Byte) (s : State) : State :=
  match failedCheck b with
  | some d => { s with tk := { s.tk with counters := countDiscard d s.tk.counters } }
  | none => if byteAt b 4 = stationByte s then duplicateArrival s else handOn b s

/-- The oversize counter (R82). -/
def countOversize (s : State) : State :=
  { s with tk := { s.tk with counters := { s.tk.counters with oversize := satIncr 65535 s.tk.counters.oversize } } }

/-- What the receive path makes of the frame it gathered, from its line levels. -/
def receive (heard : List Bool) (s : State) : State :=
  let b := gather heard
  if 145 ≤ b.length then countOversize s else frameEnd b s

/-- Slot 0 of an access cycle (R72): the receive path takes the next frame from here. -/
def declareQuiet (s : State) : State :=
  { s with tk := { s.tk with quietAt := some s.clock, rx := .idle, heard := [] } }

/-- LINE_QUIET (R72, R82 to R86): 4 µs after the last transition, when no quiet stands and no send is in flight. The frame it ends is the
one whose line levels it carries, also where they are not the sampled ones (DESIGN CHOICE, log 53). -/
def execLineQuiet (heard : List Bool) (s : State) : Host.Outcome State Fault Refusal :=
  if !started s || s.tk.quietAt.isSome || s.tk.flight.isSome then .next s
  else
    let s₁ := advanceTo (after s.tk.lastTransition 4) s
    .next (if s.tk.rx = .gathering then receive heard (declareQuiet s₁) else declareQuiet s₁)

/-- FRAME_START (R82): a transition ends the quiet and begins a frame. Line levels already sampled of it are kept. Given from outside, it is
the transition it reports, whatever the sampled line shows (DESIGN CHOICE, log 53). -/
def execFrameStart (s : State) : Host.Outcome State Fault Refusal :=
  if s.tk.quietAt.isSome then
    .next { s with
      tk := { s.tk with
        quietAt := none, rx := .gathering
        lastTransition := if s.tk.heard = [] then s.clock else s.tk.lastTransition } }
  else .next s

/-- FRAME_OVERSIZE (R82): the 145th byte. Given from outside, it is the byte it reports, whatever has been gathered (DESIGN CHOICE,
log 53). -/
def execFrameOversize (s : State) : Host.Outcome State Fault Refusal :=
  if s.tk.rx = .gathering then
    let s₁ := countOversize s
    .next { s₁ with tk := { s₁.tk with rx := .oversize, heard := [] } }
  else .next s

/-! ## Timers of the slots (R78, R80) -/

/-- PUBLISH_TIME_EXPIRY (R78). -/
def execPublishTimeExpiry (s : State) : Host.Outcome State Fault Refusal :=
  match s.tk.stateSlot with
  | .waiting body time =>
    let s₁ := advanceTo time s
    .next { s₁ with tk := { s₁.tk with stateSlot := .ready body } }
  | .empty | .ready _ => .next s

/-- The wheel values of a WHEEL frame (R80): 0 for a channel of another kind. -/
def wheelValues (s : State) : PerChan Int :=
  let value := fun ch => if isWheel s ch then publishedWheel (s.fb.get ch) else 0
  { a := value .A, b := value .B, c := value .C }

/-- WHEEL_TIMER_EXPIRY (R80). -/
def execWheelTimerExpiry (s : State) : Host.Outcome State Fault Refusal :=
  match s.tk.wheelTimer with
  | none => .next s
  | some time =>
    let s₁ := advanceTo time s
    .next { s₁ with
      tk := { s₁.tk with
        wheelTimer := some (after time (s₁.cfg.wheelPeriod * 1000))
        wheelSlot := some (wheelBytes s₁.tk.wheelSeq (wheelValues s₁))
        wheelSeq := s₁.tk.wheelSeq + 1 } }

end Sys2Proof.Machine
end

