-- ==== Sys2Proof/Machine/Sampling.lean ====
section
/-! DEFINITION. What the station does of its own accord when no command waits (DESIGN CHOICE, log 3): its due events one by one,
and otherwise one microsecond of the station clock, with the lines sampled (R2, R12, R59, R71, R104, R125, R170, R178). -/

namespace Sys2Proof.Machine

/-! ## What the outside drives next -/

/-- Lines that stay as they are. -/
def steadyWave (l : ChanLines) : Wave :=
  let level := fun (b : Bool) => if b then BitVec.allOnes 20 else 0
  { qa := level l.qa, qb := level l.qb, qi := level l.qi }

/-- What the outside drives when it has given nothing: every line at its level. -/
def steady (l : Lines) : LineSample :=
  { waves := l.chans.map steadyWave, trunk := if l.trunk then BitVec.allOnes 4 else 0, lines := l }

/-- The levels of the next microsecond, with the rest of the outside's inputs. -/
def nextSample (s : State) : LineSample × List LineSample :=
  match s.inputs with
  | x :: rest => (x, rest)
  | [] => (steady s.lines, [])

/-! ## Events that are due -/

/-- An event whose time the clock has reached. -/
def dueAt (now : Word) (time : Option Word) (i : Instr) : List Instr := if time.any (reached now) then [i] else []

/-- The timed events of one channel. -/
def dueOfChannel (s : State) (ch : Chan) : List Instr :=
  dueAt s.clock (s.fb.get ch).nextLeak (.leakEvent ch)
    ++ dueAt s.clock (s.fb.get ch).nextConversion (.analogConversion ch (s.lines.chans.get ch).ain)
    ++ dueAt s.clock (s.mo.get ch).nextUpdate (.servoUpdate ch)
    ++ dueAt s.clock (s.bd.get ch).timer (.wheelStaleExpiry ch)
    ++ dueAt s.clock (s.rf.get ch).timer (.runTimerExpiry ch)

/-- The publish time of a WAITING frame. -/
def publishTime : StateSlot → Option Word
  | .waiting _ time => some time
  | .empty | .ready _ => none

/-- A send begins when its gap is the slot the clock has reached (R73), also when the frame became READY at that very station time (DESIGN
CHOICE, log 27). -/
def dueSend (s : State) (cls : FrameClass) : List Instr :=
  match s.tk.quietAt with
  | none => []
  | some quiet =>
    if s.tk.flight.isNone && (readyBody cls s.tk).isSome && currentSlot s.clock quiet = accessGap cls s.su.station then
      [.sendStart cls]
    else []

/-- A transition on the quiet line at the station time itself, the first bit time of the microsecond to come, begins a frame (R82): a send
whose gap is a later slot finds the line taken, and one of the same slot is taken in a free order with it (R74). It needs the quiet
declared: one at the very station time at which 4 µs have passed since the last comes after the declaration (DESIGN CHOICE, log 36). -/
def dueFrameStart (s : State) : List Instr :=
  if started s && s.tk.quietAt.isSome && s.tk.flight.isNone && s.tk.heard = []
      && (nextSample s).1.trunk.getLsbD 0 ≠ s.tk.level then
    [.frameStart]
  else []

/-- A send ends at its collision, or when its last bit has been driven (R75). -/
def dueEnd (s : State) : List Instr :=
  match s.tk.flight with
  | none => []
  | some f =>
    if (collisionAt f.bits f.others).isSome || f.bits.length ≤ max f.others.length (4 * elapsed s.clock f.started) then
      [.sendEnd f.others]
    else []

/-- The line falls quiet 4 µs after its last transition (R72). A transition of that same station time is taken after it and begins a new
frame (DESIGN CHOICE, log 36). -/
def dueQuiet (s : State) : List Instr :=
  if started s && s.tk.quietAt.isNone && s.tk.flight.isNone && reached s.clock (after s.tk.lastTransition 4) then
    [.lineQuiet s.tk.heard]
  else []

/-- The start-up unit's own events (R178): a reset ends, an image read ends, RESET has been low for 10 samples. -/
def dueStartUp (s : State) : List Instr :=
  match s.su.phase with
  | .held => if (if s.su.heldByPower then s.lines.supply else s.lines.reset) then [.resetRelease s.lines.straps] else []
  | .reading =>
    dueAt s.clock (some (after 0 (readTime s.lines.memory))) (.startUpFinish s.lines.memory)
      ++ (if 10 ≤ s.su.resetRun then [.warmReset] else [])
  | .done => if 10 ≤ s.su.resetRun then [.warmReset] else []

/-- Every event that is due now. -/
def dueEvents (s : State) : List Instr :=
  dueStartUp s
    ++ Chan.list.flatMap (dueOfChannel s)
    ++ dueAt s.clock s.ft.deadline .frameDeadlineExpiry
    ++ dueAt s.clock (publishTime s.tk.stateSlot) .publishTimeExpiry
    ++ dueAt s.clock s.tk.wheelTimer .wheelTimerExpiry
    ++ [FrameClass.stop, .wheel, .state].flatMap (dueSend s) ++ dueFrameStart s
    ++ dueEnd s ++ dueQuiet s
    ++ s.zm.zones.flatMap (fun z => dueAt s.clock z.timer (.clearHoldExpiry z.cfg.id))
    ++ dueAt s.clock s.zm.nextScan .zoneScan
    ++ dueAt s.clock s.sc.stopTimer .stopTimerExpiry
    ++ dueAt s.clock s.sc.brakeTimer .brakeTimerExpiry
    ++ dueAt s.clock s.sc.releaseTimer .releaseTimerExpiry
    ++ dueAt s.clock (s.ts.check.map fun r => r.completes) .checkRunCompletion
    ++ dueAt s.clock s.dk.holdTimer .releaseHoldExpiry
    ++ dueAt s.clock s.dk.refusalTimer .refusalLampExpiry
    ++ dueAt s.clock s.dk.nextScan .panelScan

/-! ## Filters -/

/-- The microseconds a limit switch must hold (R12). -/
def limitHold : Nat := 500

/-- The microseconds the chain must hold (R125). -/
def chainHold : Nat := 1000

/-- The microseconds a presence line (R104) or a panel line (R170) must hold. -/
def panelHold : Nat := 10000

/-- One sample of a filter: the run of samples that differ from the filtered level, and whether it has now lasted the hold time.
A run that began at one sample has lasted n µs at the n-th sample after it (DEDUCED, log 14). -/
def filterStep (hold : Nat) (sample : Bool) (f : Filt) : Filt × Bool :=
  if sample = f.level then ({ f with run := 0 }, false) else ({ f with run := f.run + 1 }, decide (hold ≤ f.run))

/-- A filter whose change is an event of nobody: the new level is passed on at once. -/
def silentStep (hold : Nat) (sample : Bool) (f : Filt) : Filt :=
  if (filterStep hold sample f).2 then { level := sample, run := 0 } else (filterStep hold sample f).1

/-- Events found by sampling, one stream in its own order (log 3). -/
def post (events : List Instr) (s : State) : State :=
  if events = [] then s else { s with sampled := s.sampled ++ [events] }

/-- An event if a condition holds. -/
def when_ (c : Bool) (i : Instr) : List Instr := if c then [i] else []

/-! ## Encoder lines (R2, R3, R7) -/

/-- One 50 ns sample of the noise rejector on one line (R2). -/
def rejectStep (qfilt : Nat) (sample : Bool) (f : Filt) : Filt :=
  if sample = f.level then { f with run := 0 }
  else if qfilt ≤ f.run then { level := sample, run := 0 }
  else { f with run := f.run + 1 }

/-- The events of one sample: a legal or an illegal transition, then an index rise (R3, R7). -/
def quadEvents (ch : Chan) (qa qb qi qa' qb' qi' : Bool) : List Instr :=
  (if qa ≠ qa' && qb ≠ qb' then [.illegalTransition ch]
   else if qa ≠ qa' then [.legalTransition ch .qa]
   else if qb ≠ qb' then [.legalTransition ch .qb]
   else [])
    ++ when_ (!qi && qi') (.indexRise ch)

/-- The samples of a microsecond from sample `i` on: the three filters at its end, and the events in sample order. -/
def quadSamples (ch : Chan) (qfilt : Nat) (w : Wave) : Nat → Nat → Filt × Filt × Filt → (Filt × Filt × Filt) × List Instr
  | 0, _, f => (f, [])
  | n + 1, i, (a, b, x) =>
    let a' := rejectStep qfilt (w.qa.getLsbD i) a
    let b' := rejectStep qfilt (w.qb.getLsbD i) b
    let x' := rejectStep qfilt (w.qi.getLsbD i) x
    let (f, events) := quadSamples ch qfilt w n (i + 1) (a', b', x')
    (f, quadEvents ch a.level b.level x.level a'.level b'.level x'.level ++ events)

/-- The encoder lines of a channel over one microsecond. The accepted levels of QA and QB change with their events; that of QI stands as
its last sample leaves it, and the rises among its samples wait to be taken (log 14). -/
def tickEncoder (w : Wave) (ch : Chan) (s : State) : State :=
  if readsEncoder s ch then
    let f := s.fb.get ch
    let ((a, b, x), events) := quadSamples ch (chanCfg s ch).qfilt w 20 0 (f.qa, f.qb, f.qi)
    post events
      (modFb ch (fun f =>
        { f with
          qa := { f.qa with run := a.run }, qb := { f.qb with run := b.run }, qi := x
          rises := f.rises + events.count (.indexRise ch) }) s)
  else s

/-! ## Limit switches (R8, R12) -/

/-- One switch over one microsecond; `before` and `now` are its raw states, true for active. -/
def tickSwitch (ch : Chan) (sw : Switch) (before now : Bool) (s : State) : State :=
  let f := s.fb.get ch
  let (g, changed) := filterStep limitHold now (match sw with | .pos => f.limPos | .neg => f.limNeg)
  post (when_ changed (.limitFilteredChange ch sw now))
    (post (when_ (before ≠ now) (.provisionalCountNoted ch sw now))
      (modFb ch (fun f => match sw with | .pos => { f with limPos := g } | .neg => { f with limNeg := g }) s))

/-- Both switches of a channel. -/
def tickLimits (old new : ChanLines) (ch : Chan) (s : State) : State :=
  if readsLimits s ch then
    let low := (chanCfg s ch).activeLow
    tickSwitch ch .neg (xor old.limn low) (xor new.limn low) (tickSwitch ch .pos (xor old.limp low) (xor new.limp low) s)
  else s

/-- The PWM generator of a channel (R36): 20 units of 50 ns. -/
def tickPwm (ch : Chan) (s : State) : State :=
  if started s && isAxis s ch then
    post (when_ ((chanCfg s ch).pwmPeriod ≤ (s.mo.get ch).pwmPhase + 20) (.pwmPeriodStart ch))
      (modMo ch (fun m => { m with pwmPhase := m.pwmPhase + 20 }) s)
  else s

/-- One channel over one microsecond. -/
def tickChannel (old : Lines) (x : LineSample) (ch : Chan) (s : State) : State :=
  tickPwm ch (tickLimits (old.chans.get ch) (x.lines.chans.get ch) ch (tickEncoder (x.waves.get ch) ch s))

/-! ## The station's other lines -/

/-- The emergency-stop chain (R125). -/
def tickChain (s : State) : State :=
  let (g, changed) := filterStep chainHold s.lines.estop s.sc.estop
  post (when_ changed (.estopFilteredChange s.lines.estop)) { s with sc := { s.sc with estop := g } }

/-- One presence line (R104). -/
def tickPresence (i : Fin 4) (s : State) : State :=
  let sample := readsOccupied s.cfg.polarity s.lines.presence i.val
  let (g, changed) := filterStep panelHold sample (s.zm.presence.getD i.val ⟨true, 0⟩)
  post (when_ changed (.presenceFilteredChange i sample))
    { s with zm := { s.zm with presence := s.zm.presence.set i.val g } }

/-- FREF (R59). -/
def tickFref (s : State) : State :=
  if started s then
    post (when_ (s.lines.fref && s.ft.frefLow) .frefArrival) { s with ft := { s.ft with frefLow := !s.lines.fref } }
  else s

/-- The command buttons in the order of their lines; the last is STOP. -/
def buttonEvent : Nat → Instr
  | 0 => .buttonPress .record
  | 1 => .buttonPress .end_
  | 2 => .buttonPress .cue
  | 3 => .buttonPress .run
  | 4 => .buttonPress .abort
  | 5 => .buttonPress .live
  | 6 => .buttonPress .erase
  | 7 => .buttonPress .protect
  | 8 => .buttonPress .reference
  | _ => .stopButtonPress

/-- One command button (R170): a change to RELEASED does nothing. -/
def tickButton (i : Nat) (s : State) : State :=
  let pressed := !s.lines.buttons.getLsbD i
  let f := s.dk.buttons.getD i ⟨true, 0⟩
  let (g, changed) := filterStep panelHold pressed f
  post (when_ (changed && pressed) (buttonEvent i))
    { s with
      dk := { s.dk with
        buttons := s.dk.buttons.set i (if changed && !pressed then { level := false, run := 0 } else g) } }

/-- The RELEASE key (R171). -/
def tickKey (s : State) : State :=
  let pressed := !s.lines.key
  let (g, changed) := filterStep panelHold pressed s.dk.key
  post (when_ changed (if pressed then .releaseKeyPress else .releaseKeyLetgo)) { s with dk := { s.dk with key := g } }

/-- The select lines (R172). A filtered level passed on at the station time of a press is passed on before the press is taken (DESIGN
CHOICE, log 30). -/
def tickSelects (s : State) : State :=
  { s with
    dk := { s.dk with
      selects := s.dk.selects.mapIdx fun i f => silentStep panelHold (!s.lines.selects.getLsbD i) f } }

/-- The panel of an active desk. -/
def tickDesk (s : State) : State :=
  if deskActive s then tickSelects (tickKey ((List.range 10).foldl (fun t i => tickButton i t) s)) else s

/-! ## The trunk (R71, R72, R75, R82) -/

/-- The level the station itself puts on the line at the next bit of its flight: recessive without one, after its last bit, and once
it has collided. -/
def ownLevel (flight : Option Flight) : Bool :=
  match flight with
  | none => true
  | some f => if (collisionAt f.bits f.others).isSome then true else f.bits.getD f.others.length true

/-- Whether the receive path keeps a bit: of a frame under way, or from the transition that ends a quiet. -/
def keepsBit (t : Trunk) (changed : Bool) : Bool := t.rx = .gathering || (t.quietAt.isSome && (changed || t.heard ≠ []))

/-- One bit time: `others` is the level the other stations leave, `at_` the station time of a transition at its start. -/
def tickBit (at_ : Word) (others : Bool) (t : Trunk) : Trunk :=
  let level := ownLevel t.flight && others
  let changed : Bool := level ≠ t.level
  { t with
    flight := t.flight.map fun f => { f with others := f.others ++ [others] }
    level := level
    lastTransition := if changed then at_ else t.lastTransition
    heard := if keepsBit t changed then t.heard ++ [level] else t.heard }

/-- The four bits of a microsecond; a transition within it is seen at its end. -/
def tickBits (before now : Word) (others : BitVec 4) (t : Trunk) : Trunk :=
  tickBit now (others.getLsbD 3)
    (tickBit now (others.getLsbD 2) (tickBit now (others.getLsbD 1) (tickBit before (others.getLsbD 0) t)))

/-- The trunk over one microsecond: a frame begins at a transition within it on the quiet line, and reaches its 145th byte. -/
def tickTrunk (before : Word) (others : BitVec 4) (s : State) : State :=
  if started s then
    let t := tickBits before s.clock others s.tk
    post (when_ (t.quietAt.isSome && t.heard ≠ []) .frameStart
        ++ when_ (t.rx = .gathering && decide (145 ≤ (gather t.heard).length)) .frameOversize) { s with tk := t }
  else s

/-! ## One microsecond -/

/-- The lines of every block sampled at the new clock reading. -/
def sampleLines (before : Word) (old : Lines) (x : LineSample) (s : State) : State :=
  let s₁ := tickPresence 3 (tickPresence 2 (tickPresence 1 (tickPresence 0 (tickChain s))))
  let s₂ := forChans (tickChannel old x) Chan.list s₁
  tickDesk (tickFref (tickTrunk before x.trunk s₂))

/-- One microsecond (R57): in a reset the clock stands at 0 and only the lines move. Once the clock has moved on no END comes at the
station time of an append that found the store full (log 29). -/
def tick (s : State) : State :=
  let (x, rest) := nextSample s
  let s₁ : State := { s with inputs := rest, lines := x.lines }
  if s.su.phase = .held then s₁
  else
    sampleLines s.clock s.lines x
      { s₁ with
        clock := s.clock + 1
        te := { s.te with filledAt := none }
        su := { s.su with resetRun := if x.lines.reset then 0 else s.su.resetRun + 1 } }

/-! ## Idle -/

/-- The streams without the event at the head of the k-th. -/
def dropHead : Nat → List (List Instr) → List (List Instr)
  | _, [] => []
  | 0, es :: rest => es.tail :: rest
  | k + 1, es :: rest => es :: dropHead k rest

/-- One of several events, in a free order: the event put in the queue, alone. -/
def takeEvent (streams : List (List Instr)) (candidates : List Instr) (s : State) : State :=
  let (k, s₁) := if candidates.length ≤ 1 then (0, s) else draw candidates.length s
  { s₁ with
    pending := (candidates.drop k).take 1
    sampled := (dropHead k streams).filter fun es => es ≠ [] }

/-- The step on an empty queue: the next event of the station's own goes into the queue; when there is none a microsecond passes. -/
def idle (s : State) : State :=
  let streams := s.sampled.filter fun es => es ≠ []
  let candidates := streams.filterMap List.head? ++ dueEvents s
  if candidates = [] then tick s else takeEvent streams candidates s

end Sys2Proof.Machine
end

