-- ==== Sys2Proof/Machine/Dispatch.lean ====
section
/-! DEFINITION. The dispatch: one arm per command, each one direct call of its meaning. -/

namespace Sys2Proof.Machine

/-- A command carried out on the state; the queue of waiting commands is not touched. -/
def exec (i : Instr) (s : State) : Host.Outcome State Fault Refusal :=
  match i with
  | .powerReset => Sys2Proof.Machine.execPowerReset s
  | .warmReset => Sys2Proof.Machine.execWarmReset s
  | .resetRelease straps => Sys2Proof.Machine.execResetRelease straps s
  | .startUpFinish memory => Sys2Proof.Machine.execStartUpFinish memory s
  | .legalTransition ch line => Sys2Proof.Machine.execLegalTransition ch line s
  | .illegalTransition ch => Sys2Proof.Machine.execIllegalTransition ch s
  | .leakEvent ch => Sys2Proof.Machine.execLeakEvent ch s
  | .indexRise ch => Sys2Proof.Machine.execIndexRise ch s
  | .analogConversion ch reading => Sys2Proof.Machine.execAnalogConversion ch reading s
  | .limitFilteredChange ch sw active => Sys2Proof.Machine.execLimitFilteredChange ch sw active s
  | .servoUpdate ch => Sys2Proof.Machine.execServoUpdate ch s
  | .frefArrival => Sys2Proof.Machine.execFrefArrival s
  | .frameDeadlineExpiry => Sys2Proof.Machine.execFrameDeadlineExpiry s
  | .frameStart => Sys2Proof.Machine.execFrameStart s
  | .lineQuiet heard => Sys2Proof.Machine.execLineQuiet heard s
  | .publishTimeExpiry => Sys2Proof.Machine.execPublishTimeExpiry s
  | .wheelTimerExpiry => Sys2Proof.Machine.execWheelTimerExpiry s
  | .sendStart cls => Sys2Proof.Machine.execSendStart cls s
  | .sendEnd others => Sys2Proof.Machine.execSendEnd others s
  | .wheelStaleExpiry ch => Sys2Proof.Machine.execWheelStaleExpiry ch s
  | .runTimerExpiry ch => Sys2Proof.Machine.execRunTimerExpiry ch s
  | .presenceFilteredChange line occupied => Sys2Proof.Machine.execPresenceFilteredChange line occupied s
  | .clearHoldExpiry zone => Sys2Proof.Machine.execClearHoldExpiry zone s
  | .zoneScan => Sys2Proof.Machine.execZoneScan s
  | .estopFilteredChange closed => Sys2Proof.Machine.execEstopFilteredChange closed s
  | .stopTimerExpiry => Sys2Proof.Machine.execStopTimerExpiry s
  | .brakeTimerExpiry => Sys2Proof.Machine.execBrakeTimerExpiry s
  | .releaseTimerExpiry => Sys2Proof.Machine.execReleaseTimerExpiry s
  | .checkRunCompletion => Sys2Proof.Machine.execCheckRunCompletion s
  | .record serial take start => Sys2Proof.Machine.execRecord serial take start s
  | .endTake serial => Sys2Proof.Machine.execEndTake serial s
  | .cue serial take => Sys2Proof.Machine.execCue serial take s
  | .run serial take start rate length => Sys2Proof.Machine.execRun serial take start rate length s
  | .abort serial => Sys2Proof.Machine.execAbort serial s
  | .erase serial take => Sys2Proof.Machine.execErase serial take s
  | .protect serial take => Sys2Proof.Machine.execProtect serial take s
  | .live serial => Sys2Proof.Machine.execLive serial s
  | .reference => Sys2Proof.Machine.execReference s
  | .release => Sys2Proof.Machine.execRelease s
  | .buttonPress button => Sys2Proof.Machine.execButtonPress button s
  | .stopButtonPress => Sys2Proof.Machine.execStopButtonPress s
  | .releaseKeyPress => Sys2Proof.Machine.execReleaseKeyPress s
  | .releaseKeyLetgo => Sys2Proof.Machine.execReleaseKeyLetgo s
  | .releaseHoldExpiry => Sys2Proof.Machine.execReleaseHoldExpiry s
  | .refusalLampExpiry => Sys2Proof.Machine.execRefusalLampExpiry s
  | .panelScan => Sys2Proof.Machine.execPanelScan s
  | .pwmPeriodStart ch => Sys2Proof.Machine.execPwmPeriodStart ch s
  | .provisionalCountNoted ch sw active => Sys2Proof.Machine.execProvisionalCountNoted ch sw active s
  | .frameOversize => Sys2Proof.Machine.execFrameOversize s

end Sys2Proof.Machine
end

