-- ==== Sys2Proof/Safety.lean ====
section
/-! DEFINITION. What a safe station is, in the terms the claims use: relations between fields that the spec says always hold. Each is
a property of one state; the claims say that every step keeps it. -/

namespace Sys2Proof.Machine

/-! ## Stop controller (R118, R120 to R124, R133) -/

/-- The states in which the brake command is RELEASED (R118). -/
def brakesOpenIn (st : StopState) : Bool := st = .releasing || st = .run || st = .stopping

/-- The stop controller's fields agree: each timer runs exactly in its own state, the brakes are released exactly in RELEASING, RUN
and STOPPING, the first-cause record is empty exactly in RUN and RELEASING, the count is 1 to 255 in the other states, and until
the finish the station is HALTED and makes no frame event. -/
structure StopInv (s : State) : Prop where
  stopTimer : s.sc.stopTimer.isSome ↔ s.sc.state = .stopping
  brakeTimer : s.sc.brakeTimer.isSome ↔ s.sc.state = .braking
  releaseTimer : s.sc.releaseTimer.isSome ↔ s.sc.state = .releasing
  brakes : s.sc.brakeReleased = brakesOpenIn s.sc.state
  first : s.sc.first = none ↔ underWay s.sc.state = true
  causesHigh : s.sc.causes ≤ 255
  causesLow : underWay s.sc.state = false → 1 ≤ s.sc.causes
  beforeFinish : started s = false → s.sc.state = .halted ∧ s.ft.deadline = none

/-! ## Channel modes (R18, R22, R24, R118, R124) -/

/-- The modes that only an accepted request leads into, and that need a REFERENCED channel. -/
def needsReferenced (m : Mode) : Bool := m = .live || m = .cue || m = .play

/-- One channel's mode agrees with the stop state and the reference state, and a reference run is in progress only in RUN (R49). -/
structure ChannelInv (s : State) (ch : Chan) : Prop where
  off : (s.mo.get ch).mode = .off → (s.mo.get ch).v = 0 ∧ (s.mo.get ch).integ = 0 ∧ (s.mo.get ch).u = 0
  driven : (s.mo.get ch).mode ≠ .off → isAxis s ch = true ∧ s.sc.state ≠ .halted
  working : (s.mo.get ch).mode ≠ .off → (s.mo.get ch).mode ≠ .hold → s.sc.state = .run
  reference : needsReferenced (s.mo.get ch).mode = true → referenced s ch = true
  offset : (s.rf.get ch).offset.isSome → inRun (s.rf.get ch) = true
  run : inRun (s.rf.get ch) = true → s.sc.state = .run

/-- Every channel's mode agrees with the rest of the station. -/
def ModeInv (s : State) : Prop := ∀ ch, ChannelInv s ch

/-! ## Take engine (R167) -/

/-- The phases that leaving RUN ends. -/
def workingPhase (p : Phase) : Bool := p = .armedRec || p = .recording || p = .cueing || p = .cued || p = .playing

/-- A take is being recorded, cued or played only in RUN. -/
def TakeInv (s : State) : Prop := workingPhase s.te.phase = true → s.sc.state = .run

/-! ## Zones (R115) -/

/-- While a KEEP_OUT zone is ENTERED the station is neither in RUN nor in RELEASING. -/
def ZoneInv (s : State) : Prop :=
  ∀ z ∈ s.zm.zones, z.cfg.keepOut = true → z.status = .entered → underWay s.sc.state = false

/-- The caps agree with the statuses as the last scan wrote them (R114). -/
def CapInv (s : State) : Prop := ∀ ch, s.zm.caps.get ch = capOf s.zm.zones ch

/-! ## Take store (R135 to R137) -/

/-- How many entries are RECORDING. -/
def recordings (dir : List Entry) : Nat := (dir.filter fun e => e.status = .recording).length

/-- The take memory in canonical form, every page free or owned by one entry, at most 16 entries, no take number twice, at most one
RECORDING, and every entry's pages those its length needs. -/
structure StoreInv (ts : Store) : Prop where
  slots : Memory.wf ts.slots = true
  pages : (ts.free ++ ts.dir.flatMap fun e => e.pages).Perm (List.range 128)
  entries : ts.dir.length ≤ 16
  takes : (ts.dir.map fun e => e.take).Nodup
  recording : recordings ts.dir ≤ 1
  lengths : ∀ e ∈ ts.dir, 1 ≤ e.length ∧ e.length ≤ 65535
  layout : ∀ e ∈ ts.dir, 1 ≤ maskCount e.mask → e.pages.length = ceilDiv e.length (framesPerPage (maskCount e.mask))

/-- An entry is RECORDING exactly while the engine's phase is RECORDING, and a check runs exactly while it is CHECKING (R137, R157). -/
structure RecordInv (s : State) : Prop where
  recording : recordings s.ts.dir = 1 ↔ s.te.phase = .recording
  checking : s.ts.check.isSome ↔ s.te.phase = .checking

/-! ## Frame timer (R60 to R64) -/

/-- The frame timer's fields agree: in LOCKED and HOLDOVER the measured period lies within the tolerance of the nominal period, the
counts stay in their ranges, the holdover count is above 0 exactly in HOLDOVER, and until the finish the timer is FREE without a
deadline. -/
structure LockInv (s : State) : Prop where
  period : s.ft.lock = .locked ∨ s.ft.lock = .holdover → goodInterval s.cfg.frameRate s.ft.period = true
  lockCount : s.ft.lockCount ≤ 8
  locking : s.ft.lock = .locking → s.ft.lockCount ≤ 7
  holdCount : s.ft.holdCount ≤ 2
  holding : 1 ≤ s.ft.holdCount ↔ s.ft.lock = .holdover
  beforeFinish : started s = false → s.ft.lock = .free ∧ s.ft.deadline = none

/-! ## Tables -/

/-- The tables keep their sizes: 30 peer records, 30 remembered serials, 4 presence filters, 10 buttons and 9 select lines (R89, R104,
R128, section 11.1). -/
structure TablesInv (s : State) : Prop where
  peers : s.pt.peers.length = 30
  remembered : s.sc.remembered.length = 30
  presence : s.zm.presence.length = 4
  buttons : s.dk.buttons.length = 10
  selects : s.dk.selects.length = 9

/-! ## Feedback (R3) -/

/-- The place of an accepted pair (QA, QB) in the sequence 00, 10, 11, 01 of R3. -/
def quadPlace (qa qb : Bool) : Nat := if qa then (if qb then 2 else 1) else (if qb then 3 else 0)

/-! ## The passing of time (R57, log 3) -/

/-- What a microsecond leaves when no reset is held, nothing is due and nothing waits: the part of O12 about the passing of time. -/
def microsecondPasses (s t : State) : Prop :=
  let x := (nextSample s).1
  let e := t.sampled.flatten
  let encoder := fun (ch : Chan) =>
    let f := s.fb.get ch
    quadSamples ch (chanCfg s ch).qfilt (x.waves.get ch) 20 0 (f.qa, f.qb, f.qi)
  let active := fun (ch : Chan) (sw : Switch) =>
    xor (match sw with | .pos => (x.lines.chans.get ch).limp | .neg => (x.lines.chans.get ch).limn) (chanCfg s ch).activeLow
  let activeBefore := fun (ch : Chan) (sw : Switch) =>
    xor (match sw with | .pos => (s.lines.chans.get ch).limp | .neg => (s.lines.chans.get ch).limn) (chanCfg s ch).activeLow
  let occupied := fun (i : Nat) => readsOccupied s.cfg.polarity x.lines.presence i
  let bits := [x.trunk.getLsbD 0, x.trunk.getLsbD 1, x.trunk.getLsbD 2, x.trunk.getLsbD 3]
  -- the blocks that time alone does not touch
  t.clock = s.clock + 1
  ∧ t.su = { s.su with resetRun := if x.lines.reset then 0 else s.su.resetRun + 1 }
  ∧ t.cfg = s.cfg ∧ t.rf = s.rf ∧ t.bd = s.bd ∧ t.pt = s.pt ∧ t.ts = s.ts ∧ t.te = { s.te with filledAt := none }
  ∧ t.order = s.order ∧ t.draws = s.draws
  -- the filters, the PWM phase and the panel
  ∧ t.ft = { s.ft with frefLow := if started s then !x.lines.fref else s.ft.frefLow }
  ∧ t.sc = { s.sc with estop := (filterStep 1000 x.lines.estop s.sc.estop).1 }
  ∧ t.zm = { s.zm with presence := t.zm.presence } ∧ t.zm.presence.length = s.zm.presence.length
  ∧ (∀ i : Fin 4, i.val < s.zm.presence.length →
      t.zm.presence.getD i.val ⟨true, 0⟩ = (filterStep 10000 (occupied i.val) (s.zm.presence.getD i.val ⟨true, 0⟩)).1)
  ∧ (∀ ch, t.mo.get ch = { s.mo.get ch with
      pwmPhase := if started s && isAxis s ch then (s.mo.get ch).pwmPhase + 20 else (s.mo.get ch).pwmPhase })
  ∧ (∀ ch,
      let f := s.fb.get ch
      let r := encoder ch
      t.fb.get ch =
        { f with
          qa := if readsEncoder s ch then { f.qa with run := r.1.1.run } else f.qa
          qb := if readsEncoder s ch then { f.qb with run := r.1.2.1.run } else f.qb
          qi := if readsEncoder s ch then r.1.2.2 else f.qi
          rises := if readsEncoder s ch then f.rises + r.2.count (.indexRise ch) else f.rises
          limPos := if readsLimits s ch then (filterStep 500 (active ch .pos) f.limPos).1 else f.limPos
          limNeg := if readsLimits s ch then (filterStep 500 (active ch .neg) f.limNeg).1 else f.limNeg })
  ∧ (deskActive s = false → t.dk = s.dk)
  ∧ (deskActive s = true →
      t.dk = { s.dk with
        buttons := t.dk.buttons, key := (filterStep 10000 (!x.lines.key) s.dk.key).1
        selects := s.dk.selects.mapIdx fun i f => silentStep 10000 (!x.lines.selects.getLsbD i) f }
      ∧ ∀ i, i < 10 → i < s.dk.buttons.length →
          (let f := s.dk.buttons.getD i ⟨true, 0⟩
           let sample := !x.lines.buttons.getLsbD i
           t.dk.buttons.getD i ⟨true, 0⟩
             = if f.level && !sample && 10000 ≤ f.run then ⟨false, 0⟩ else (filterStep 10000 sample f).1))
  -- the trunk's line
  ∧ (started s = false → t.tk = s.tk)
  ∧ (started s = true →
      t.tk = { s.tk with
        flight := s.tk.flight.map fun f => { f with others := f.others ++ bits }
        level := t.tk.level, lastTransition := t.tk.lastTransition, heard := t.tk.heard }
      ∧ (s.tk.flight = none → t.tk.level = x.trunk.getLsbD 3
          ∧ (s.tk.rx = .gathering → t.tk.heard = s.tk.heard ++ bits)
          ∧ (s.tk.rx ≠ .gathering → s.tk.quietAt = none → t.tk.heard = s.tk.heard)
          ∧ t.tk.lastTransition =
              if x.trunk.getLsbD 0 ≠ x.trunk.getLsbD 1 ∨ x.trunk.getLsbD 1 ≠ x.trunk.getLsbD 2
                  ∨ x.trunk.getLsbD 2 ≠ x.trunk.getLsbD 3 then s.clock + 1
              else if x.trunk.getLsbD 0 ≠ s.tk.level then s.clock else s.tk.lastTransition))
  -- the events
  ∧ (∀ l, .estopFilteredChange l ∈ e ↔ l = x.lines.estop ∧ s.sc.estop.level ≠ l ∧ 1000 ≤ s.sc.estop.run)
  ∧ (∀ (i : Fin 4) o, .presenceFilteredChange i o ∈ e ↔
      o = occupied i.val ∧ (s.zm.presence.getD i.val ⟨true, 0⟩).level ≠ o
        ∧ 10000 ≤ (s.zm.presence.getD i.val ⟨true, 0⟩).run)
  ∧ (∀ ch sw b, .limitFilteredChange ch sw b ∈ e ↔
      readsLimits s ch = true ∧ limitState (s.fb.get ch) sw ≠ b ∧ b = active ch sw
        ∧ 500 ≤ (match sw with | .pos => (s.fb.get ch).limPos.run | .neg => (s.fb.get ch).limNeg.run))
  ∧ (∀ ch sw b, .provisionalCountNoted ch sw b ∈ e ↔
      readsLimits s ch = true ∧ b = active ch sw ∧ activeBefore ch sw ≠ b)
  ∧ (∀ ch, ∀ c ∈ [Instr.legalTransition ch .qa, .legalTransition ch .qb, .illegalTransition ch, .indexRise ch],
      e.count c = if readsEncoder s ch then (encoder ch).2.count c else 0)
  ∧ (.frefArrival ∈ e ↔ started s = true ∧ x.lines.fref = true ∧ s.ft.frefLow = true)
  ∧ (∀ b, .buttonPress b ∈ e ↔
      deskActive s = true ∧ x.lines.buttons.getLsbD (buttonPlace b) = false ∧ pressed (buttonPlace b) s = false
        ∧ 10000 ≤ (s.dk.buttons.getD (buttonPlace b) ⟨true, 0⟩).run)
  ∧ (.stopButtonPress ∈ e ↔
      deskActive s = true ∧ x.lines.buttons.getLsbD 9 = false ∧ pressed 9 s = false
        ∧ 10000 ≤ (s.dk.buttons.getD 9 ⟨true, 0⟩).run)
  ∧ (.releaseKeyPress ∈ e ↔
      deskActive s = true ∧ x.lines.key = false ∧ s.dk.key.level = false ∧ 10000 ≤ s.dk.key.run)
  ∧ (.releaseKeyLetgo ∈ e ↔
      deskActive s = true ∧ x.lines.key = true ∧ s.dk.key.level = true ∧ 10000 ≤ s.dk.key.run)
  ∧ (∀ ch, .pwmPeriodStart ch ∈ e ↔
      started s = true ∧ isAxis s ch = true ∧ (chanCfg s ch).pwmPeriod ≤ (s.mo.get ch).pwmPhase + 20)
  ∧ (.frameStart ∈ e ↔ started s = true ∧ s.tk.quietAt.isSome = true ∧ t.tk.heard ≠ [])
  ∧ (.frameOversize ∈ e ↔ started s = true ∧ s.tk.rx = .gathering ∧ 145 ≤ (gather t.tk.heard).length)

/-- Which events of the station's own are due: each from its time on, and not before. The part of O12 about timed events. -/
def dueFromTheirTime (s : State) : Prop :=
  let due : Option Word → Prop := fun time => ∃ w, time = some w ∧ reached s.clock w = true
  let e := dueEvents s
  (∀ ch, (.leakEvent ch ∈ e ↔ due (s.fb.get ch).nextLeak)
    ∧ (∀ r, .analogConversion ch r ∈ e ↔ r = (s.lines.chans.get ch).ain ∧ due (s.fb.get ch).nextConversion)
    ∧ (.servoUpdate ch ∈ e ↔ due (s.mo.get ch).nextUpdate)
    ∧ (.wheelStaleExpiry ch ∈ e ↔ due (s.bd.get ch).timer)
    ∧ (.runTimerExpiry ch ∈ e ↔ due (s.rf.get ch).timer))
  ∧ (.frameDeadlineExpiry ∈ e ↔ due s.ft.deadline)
  ∧ (.publishTimeExpiry ∈ e ↔ ∃ body time, s.tk.stateSlot = .waiting body time ∧ reached s.clock time = true)
  ∧ (.wheelTimerExpiry ∈ e ↔ due s.tk.wheelTimer)
  ∧ (∀ zone, .clearHoldExpiry zone ∈ e ↔ ∃ z ∈ s.zm.zones, z.cfg.id = zone ∧ due z.timer)
  ∧ (.zoneScan ∈ e ↔ due s.zm.nextScan)
  ∧ (.stopTimerExpiry ∈ e ↔ due s.sc.stopTimer) ∧ (.brakeTimerExpiry ∈ e ↔ due s.sc.brakeTimer)
  ∧ (.releaseTimerExpiry ∈ e ↔ due s.sc.releaseTimer)
  ∧ (.checkRunCompletion ∈ e ↔ ∃ run, s.ts.check = some run ∧ reached s.clock run.completes = true)
  ∧ (.releaseHoldExpiry ∈ e ↔ due s.dk.holdTimer) ∧ (.refusalLampExpiry ∈ e ↔ due s.dk.refusalTimer)
  ∧ (.panelScan ∈ e ↔ due s.dk.nextScan)
  ∧ (∀ cls, .sendStart cls ∈ e ↔ s.tk.flight = none ∧ (readyBody cls s.tk).isSome = true
      ∧ ∃ quiet, s.tk.quietAt = some quiet ∧ elapsed s.clock quiet % 128 = accessGap cls s.su.station)
  ∧ (∀ others, .sendEnd others ∈ e ↔ ∃ f, s.tk.flight = some f ∧ others = f.others
      ∧ ((∃ k : Nat, f.bits[k]? = some true ∧ others[k]? = some false)
          ∨ f.bits.length ≤ others.length ∨ f.bits.length ≤ 4 * elapsed s.clock f.started))
  ∧ (∀ heard, .lineQuiet heard ∈ e ↔ heard = s.tk.heard ∧ started s = true ∧ s.tk.quietAt = none
      ∧ s.tk.flight = none ∧ reached s.clock (after s.tk.lastTransition 4) = true)
  ∧ (.frameStart ∈ e ↔ started s = true ∧ s.tk.quietAt.isSome = true ∧ s.tk.flight = none ∧ s.tk.heard = []
      ∧ (nextSample s).1.trunk.getLsbD 0 ≠ s.tk.level)
  ∧ (.warmReset ∈ e ↔ s.su.phase ≠ .held ∧ 10 ≤ s.su.resetRun)
  ∧ (∀ straps, .resetRelease straps ∈ e ↔ straps = s.lines.straps ∧ s.su.phase = .held
      ∧ (if s.su.heldByPower then s.lines.supply else s.lines.reset) = true)
  ∧ (∀ m, .startUpFinish m ∈ e ↔ m = s.lines.memory ∧ s.su.phase = .reading
      ∧ reached s.clock (after 0 (readTime s.lines.memory)) = true)

/-! ## The STATE body of a frame event (R77) -/

/-- The channel record of a STATE body, field by field (R19, R77): the part of O30 about one channel. -/
def publishesChannel (s : State) (ch : Chan) (r : ChanRec) : Prop :=
  let m := s.mo.get ch
  let f := s.fb.get ch
  r.kind = (chanCfg s ch).kind
  ∧ r.position = (if (chanCfg s ch).kind = .wheel then f.frozen.getD f.x else m.pos)
  ∧ r.sd = m.sd ∧ r.cap = m.cap ∧ r.ring = m.ring
  ∧ r.flags.getLsbD 7 = m.targetClamped ∧ r.flags.getLsbD 6 = m.softLimit ∧ r.flags.getLsbD 5 = m.saturated
  ∧ r.flags.getLsbD 4 = f.limPos.level ∧ r.flags.getLsbD 3 = f.limNeg.level
  ∧ r.flags.getLsbD 2 = (decide (8 ≤ f.illegal) || f.rail || f.saturation)
  ∧ r.flags.getLsbD 0 = ((chanCfg s ch).bindKind ≠ .none && !(s.bd.get ch).fresh)

/-- The parts of a STATE body that no other block of its frame event can change (R77, R97): the part of O30 about the body. `t` is the state
after the event. -/
def publishesStation (s t : State) (body : StateBody) : Prop :=
  body.seq = s.tk.stateSeq ∧ body.count = s.ft.count + 1 ∧ body.capable = takeCapable s ∧ body.lock = t.ft.lock
  ∧ body.aligned = s.ft.aligned
  ∧ (∀ k, k < 4 → body.presence.getLsbD k = (s.zm.presence.getD k ⟨true, 0⟩).level)
  ∧ body.desk = (if deskActive s then s.dk.current else DeskContent.zero)
  ∧ (∀ ch, publishesChannel s ch (body.chans.get ch))
  ∧ body.glitches = s.ft.glitches ∧ body.counters = s.tk.counters
  ∧ body.peer = s.tk.stateSeq.toNat % 30 + 1
  ∧ (let r := if body.peer = s.su.station.toNat then PeerRecord.initial else peerRecord s body.peer
     let r' := if body.peer = s.su.station.toNat then PeerRecord.initial else peerRecord t body.peer
     let shows := fun (q : PeerRecord) => body.peerFresh = q.freshness ∧ body.peerAge = q.age ∧ body.peerGaps = q.gaps
     shows r ∨ shows r')

end Sys2Proof.Machine
end

