-- ==== Sys2Proof/Certificates/Slice0/Obligations.lean ====
section
/-! DEFINITION. The statements for the provers. Each is about the machine, for every state that meets its hypotheses. -/

open Sys2Proof Sys2Proof.Machine

/-! ## The queue -/

/-- O1. A step with a command at the front of the queue is that command carried out on the state with the queue's rest. -/
def Obligations.StepRunsFrontCommand : Prop :=
  ∀ (c : Instr) (rest : List Instr) (s : State), s.pending = c :: rest → step s = exec c { s with pending := rest }

/-- O2. No command stops the machine: one presented where the state has no such event answers a next state too, which is the model's choice
(DESIGN CHOICE, log 1), and none touches the queue of waiting commands, which is the model's own field (log 20). -/
def Obligations.CommandsCompleteAndKeepQueue : Prop :=
  ∀ (c : Instr) (s : State), ∃ t, exec c s = .next t ∧ t.pending = s.pending

/-! ## Resets and start-up -/

/-- O3. What the two resets leave of the take store (R149). -/
def Obligations.StoreAfterReset : Prop :=
  ∀ s : State,
    (∃ t, exec .powerReset s = .next t ∧ (∀ a, slotRead t.ts.slots a = 0) ∧ t.ts.free = List.range 128 ∧ t.ts.dir = []
      ∧ t.ts.check = none) ∧
    (∃ t, exec .warmReset s = .next t ∧ t.ts.slots = s.ts.slots ∧ t.ts.free = s.ts.free ∧ t.ts.check = none
      ∧ t.ts.dir = s.ts.dir.map fun e => if e.status = .recording then { e with status := .interrupted } else e)

/-- O4. What the two resets leave of every other block: HELD, clock 0, every channel OFF with its outputs deasserted and its brake
applied, the first-cause record RESTART with count 1, the counters 0, the frame count 0 in FREE, no peer heard, every source record empty
and STALE, every condition of the feedback clear, every filter at its level of reset, every timer stopped. The accepted levels of QA, QB
and QI at false (log 6), the soft limits in force at 0 (log 7), the count of waiting rises, the model's own, at 0 (log 14) and the list of
bus actions, empty (log 32), are the model's values and no rule's. The waiting commands stay, the model's own field (log 20), and a warm
reset during a power reset leaves the hold the supply's (log 31). -/
def Obligations.BlocksAfterReset : Prop :=
  ∀ (s : State) (c : Instr), c = .powerReset ∨ c = .warmReset →
    ∃ t, exec c s = .next t ∧ t.su.phase = .held ∧ t.su.heldByPower = (decide (c = .powerReset) || powerHeld s)
      ∧ t.su.validity = .undecided ∧ t.su.buffer = [] ∧ t.su.bus = [] ∧ t.clock = 0
      ∧ (∀ ch, (t.mo.get ch).mode = .off ∧ (t.mo.get ch).p = 0 ∧ (t.mo.get ch).v = 0 ∧ (t.mo.get ch).integ = 0
          ∧ (t.mo.get ch).u = 0 ∧ (t.mo.get ch).cap = 100 ∧ drvEn t ch = false ∧ brk t ch = false ∧ pwmLevel t ch = false
          ∧ dirLevel t ch = false ∧ (t.fb.get ch).x = 0 ∧ (t.fb.get ch).capture = .disarmed
          ∧ (t.rf.get ch).state = .notReferenced)
      ∧ (∀ ch,
          let f := t.fb.get ch
          let m := t.mo.get ch
          let r := t.rf.get ch
          let b := t.bd.get ch
          f.illegal = 0 ∧ f.rail = false ∧ f.saturation = false ∧ f.frozen = none ∧ f.provisional = none ∧ f.rises = 0
          ∧ f.railRun = 0 ∧ f.goodRun = 0 ∧ f.group = [] ∧ f.nextLeak = none ∧ f.nextConversion = none
          ∧ (∀ q ∈ [f.qa, f.qb, f.qi, f.limPos, f.limNeg], q = { level := false, run := 0 })
          ∧ m.hold = 0 ∧ m.target = 0 ∧ m.ep = 0 ∧ m.pos = 0 ∧ m.lag = 0 ∧ m.sd = 0 ∧ m.ring = 0 ∧ m.targetClamped = false
          ∧ m.softLimit = false ∧ m.saturated = false ∧ m.following = false ∧ m.nextUpdate = none
          ∧ r.softLo = 0 ∧ r.softHi = 0 ∧ r.stall = 0 ∧ r.endLo = none ∧ r.endHi = none ∧ r.offset = none ∧ r.realign = false
          ∧ r.timer = none
          ∧ b.held = none ∧ b.seq = none ∧ b.fresh = false ∧ b.timer = none ∧ b.mapClamped = false)
      ∧ t.sc.state = .halted ∧ t.sc.causes = 1 ∧ (t.sc.first.map fun r => r.kind) = some .restart ∧ t.sc.last = t.sc.first
      ∧ t.sc.estop.level = false ∧ t.sc.pendingRelease = false ∧ t.sc.result = .none ∧ t.sc.releaseFrame = 0
      ∧ t.sc.stopTimer = none ∧ t.sc.brakeTimer = none ∧ t.sc.releaseTimer = none ∧ t.sc.estop.run = 0 ∧ t.sc.dupWindow = 0
      ∧ t.sc.stopSerial = 0 ∧ (∀ r ∈ t.sc.remembered, r = none)
      ∧ t.ft.lock = .free ∧ t.ft.count = 0 ∧ t.ft.aligned = false ∧ t.ft.period = 40000 ∧ t.ft.deadline = none
      ∧ t.ft.lastEvent = none ∧ t.ft.lockCount = 0 ∧ t.ft.holdCount = 0 ∧ t.ft.glitches = 0 ∧ t.ft.reading = none
      ∧ t.tk.counters = Counters.zero ∧ t.tk.stateSlot = .empty ∧ t.tk.wheelSlot = none ∧ t.tk.stopSlot = none
      ∧ t.tk.flight = none ∧ t.tk.stateSeq = 0 ∧ t.tk.wheelSeq = 0 ∧ t.tk.wheelTimer = none ∧ t.tk.quietAt = none
      ∧ t.pt.adopted = 0 ∧ t.pt.join = none ∧ t.pt.earlier = none ∧ t.pt.confirmed = none
      ∧ (∀ n ∈ peerNumbers, (peerRecord t n).freshness = .absent)
      ∧ t.zm.zones = [] ∧ (∀ ch, t.zm.caps.get ch = 100) ∧ (∀ f ∈ t.zm.presence, f.level = true)
      ∧ t.zm.nextScan = none
      ∧ t.te.phase = .idle ∧ t.te.result = .none ∧ t.te.fault = .none ∧ t.te.serial = 0 ∧ t.te.start = none ∧ t.te.take = 0
      ∧ t.te.length = 0 ∧ t.te.spoiled = false ∧ t.te.holdover = false ∧ t.te.liveHeld = false
      ∧ t.dk.serial = 0 ∧ t.dk.current = DeskContent.zero ∧ t.dk.watched = none ∧ t.dk.done = false ∧ t.dk.holdTimer = none
      ∧ t.dk.refusalTimer = none ∧ t.dk.nextScan = none ∧ (∀ f ∈ t.dk.key :: (t.dk.buttons ++ t.dk.selects), f = ⟨true, 0⟩)
      ∧ t.pending = s.pending

/-- O5. The release of a held reset samples the straps, starts the clock and the read, and sends ten clock pulses, a stop condition and a read
from address 0 of device 83 on the memory bus; it changes no other block but the filters that take their first samples, the line that
ended the hold (log 4) and the origin of the RESTART records, which the model sets here (log 5; R178, R179). -/
def Obligations.ReleaseSamplesStraps : Prop :=
  ∀ (straps : BitVec 5) (s : State), s.su.phase = .held →
    ∃ t, exec (.resetRelease straps) s = .next t ∧ t.su.phase = .reading ∧ t.su.station = straps ∧ t.clock = 0
      ∧ t.su.bus = [.clockPulses 10, .stop, .read 83 0] ∧ t.su.buffer = s.su.buffer ∧ t.su.validity = s.su.validity
      ∧ (s.su.heldByPower = true → t.lines = { s.lines with straps := straps, supply := true })
      ∧ (s.su.heldByPower = false → t.lines = { s.lines with straps := straps, reset := true })
      ∧ t.sc.state = s.sc.state ∧ t.sc.causes = s.sc.causes ∧ t.sc.estop.level = s.sc.estop.level
      ∧ t.fb = s.fb ∧ t.mo = s.mo ∧ t.rf = s.rf ∧ t.bd = s.bd ∧ t.ft = s.ft ∧ t.tk = s.tk ∧ t.pt = s.pt ∧ t.ts = s.ts
      ∧ t.te = s.te ∧ t.dk = s.dk ∧ t.cfg = s.cfg ∧ t.zm.zones = s.zm.zones ∧ t.zm.caps = s.zm.caps

/-- O6. The finish with an invalid image: DONE and INVALID, CONFIG_INVALID in both records with frame count 0, the count up by one, which
is R134's 2 when RESTART is the only cause before and the model's choice otherwise (log 52), the frame timer running on the code in force,
every channel as it was. The finish with a valid image: DONE and VALID, the image's fields in force, the first servo updates and the first
scan 1,000 µs on, every ABSOLUTE channel REFERENCED with the image's soft limits, the stop state and the take store as they were (R18,
R41, R58, R110, R134, R178, R180, R182). -/
def Obligations.FinishTakesTheImage : Prop :=
  (∀ (memory : Option (List Byte)) (s : State), s.su.phase = .reading →
      imageOk s.su.station.toNat (readBuffer memory) = false →
      ∃ t, exec (.startUpFinish memory) s = .next t ∧ t.su.phase = .done ∧ t.su.validity = .invalid ∧ t.cfg = s.cfg
        ∧ (let r : CauseRec :=
            { kind := .configInvalid, origin := stationByte s, channel := 0, zone := 0, frame := 0, met := .halted }
           t.sc.first = some r ∧ t.sc.last = some r)
        ∧ t.sc.causes = satIncr 255 s.sc.causes ∧ t.sc.state = s.sc.state
        ∧ t.ft.deadline = some (after t.clock (Config.nominalPeriod s.cfg.frameRate))
        ∧ t.fb = s.fb ∧ t.mo = s.mo ∧ t.rf = s.rf ∧ t.zm = s.zm ∧ t.ts = s.ts ∧ t.te = s.te ∧ t.dk = s.dk ∧ t.pt = s.pt) ∧
  (∀ (memory : Option (List Byte)) (s : State), s.su.phase = .reading →
      imageOk s.su.station.toNat (readBuffer memory) = true →
      ∃ t, exec (.startUpFinish memory) s = .next t ∧ t.su.phase = .done ∧ t.su.validity = .valid
        ∧ t.cfg = imageCfg (readBuffer memory) ∧ t.zm.zones.map (fun z => z.cfg) = imageZones (readBuffer memory)
        ∧ (∀ z ∈ t.zm.zones, z.status = .idle) ∧ t.zm.nextScan = some (after t.clock 1000)
        ∧ (∀ ch, isAxis t ch = true → (t.mo.get ch).nextUpdate = some (after t.clock 1000))
        ∧ (∀ ch, (t.mo.get ch).mode = (s.mo.get ch).mode ∧ (t.fb.get ch).x = (s.fb.get ch).x)
        ∧ (∀ ch, isAxis t ch = true → (chanCfg t ch).refKind = .absolute →
            (t.rf.get ch).state = .referenced ∧ (t.rf.get ch).softLo = (chanCfg t ch).softLo
              ∧ (t.rf.get ch).softHi = (chanCfg t ch).softHi)
        ∧ t.ft.deadline = some (after t.clock (Config.nominalPeriod t.cfg.frameRate))
        ∧ t.ft.period = Config.nominalPeriod t.cfg.frameRate
        ∧ t.ft.aligned = decide (t.cfg.desk ≠ 0 ∧ t.cfg.desk = s.su.station.toNat)
        ∧ t.sc = s.sc ∧ t.ts = s.ts ∧ t.te = s.te ∧ t.pt = s.pt)

/-- O7. What a valid image hands out lies in the ranges of the spec, the defaults among them: every header field; on an AXIS channel the motion,
reference and binding fields its kinds use, on a WHEEL channel the feedback fields; the zone records with ids 1 to 16 used once, and
their terms; and the records end two bytes before the image's end (R58, R78, R80, R89, R109, R180, R182). -/
def Obligations.HandedOutImageIsInRange : Prop :=
  ∀ (station : Nat) (b : List Byte), imageOk station b = true →
    286 ≤ b.length ∧ b.length ≤ 1024 ∧ n16 b 0 = b.length ∧ natAt b 2 = 1 ∧ natAt b 3 = station ∧ 1 ≤ station ∧ station ≤ 30
    ∧ (∀ ch, natAt b (blockAt b ch) ≤ 2 ∧ natAt b (blockAt b ch + 86) ≤ 16)
    ∧ b.length = 25 + (87 + 6 * natAt b (blockAt b .A + 86)) + (87 + 6 * natAt b (blockAt b .B + 86))
        + (87 + 6 * natAt b (blockAt b .C + 86)) + ((imageZones b).map fun z => 10 + 10 * z.terms.length).sum
    ∧ (let c := imageCfg b
       c.desk ≤ 30 ∧ c.frameRate ≤ 7 ∧ 1000 ≤ c.publishDelay ∧ c.publishDelay + 4000 ≤ Config.nominalPeriod c.frameRate
       ∧ 2 ≤ c.peerTimeout ∧ c.peerTimeout ≤ 8 ∧ c.required.getLsbD 0 = false ∧ c.required.getLsbD 31 = false
       ∧ 10 ≤ c.cuePercent ∧ c.cuePercent ≤ 100 ∧ 100 ≤ c.stopTimeout ∧ c.stopTimeout ≤ 5000 ∧ c.brakeEngage ≤ 500
       ∧ c.brakeRelease ≤ 500 ∧ 1 ≤ c.wheelPeriod ∧ c.wheelPeriod ≤ 8
       ∧ ∀ ch,
         let o := blockAt b ch
         let c := c.chans.get ch
         (c.kind ≠ .unused → natAt b (o + 1) ≤ 1 ∧ natAt b (o + 2) ≤ 1 ∧ c.qfilt ≤ 31)
         ∧ (c.kind ≠ .axis → natAt b (o + 86) = 0)
         ∧ (c.kind = .axis →
             natAt b (o + 6) ≤ 1 ∧ (c.limits = true → natAt b (o + 7) ≤ 1) ∧ natAt b (o + 33) ≤ 3 ∧ natAt b (o + 74) ≤ 2
             ∧ 1 ≤ c.vmax ∧ c.vmax ≤ 8388607 ∧ 1 ≤ c.amax ∧ c.amax ≤ c.astop ∧ c.astop ≤ 65535 ∧ c.sh ≤ 24
             ∧ c.imax ≤ 1073741824 ∧ 1 ≤ c.feLimit ∧ c.feLimit ≤ 1048576 ∧ 200 ≤ c.pwmPeriod ∧ c.pwmPeriod ≤ 2000
             ∧ c.takeTolerance ≤ 1048576
             ∧ (c.refKind ≠ .absolute → 1 ≤ c.refSpeed ∧ c.refSpeed ≤ c.vmax ∧ 1 ≤ c.refTimeout ∧ c.refTimeout ≤ 120)
             ∧ (c.refKind = .index ∨ c.refKind = .switch →
                 c.analog = false ∧ natAt b (o + 34) ≤ 1 ∧ -Config.maxCount ≤ c.refPosition ∧ c.refPosition ≤ Config.maxCount
                   ∧ -Config.maxCount ≤ c.parkPosition ∧ c.parkPosition ≤ Config.maxCount)
             ∧ (c.refKind = .endStops →
                 1 ≤ c.stallThreshold ∧ 1 ≤ c.minSpan ∧ c.minSpan ≤ 2147483647 ∧ c.endMargin ≤ 1048576 ∧ 1 ≤ c.refDrive
                   ∧ c.refDrive ≤ 32767)
             ∧ (c.refKind = .absolute → c.analog = true) ∧ (c.refKind ≠ .endStops → c.softLo < c.softHi)
             ∧ (c.bindKind ≠ .none →
                 1 ≤ c.srcStation ∧ c.srcStation ≤ 30 ∧ 1 ≤ c.srcChannel ∧ c.srcChannel ≤ 3 ∧ 5 ≤ c.wheelTimeout
                   ∧ c.wheelTimeout ≤ 100)
             ∧ (c.bindKind = .map →
                 c.points.length = natAt b (o + 86) ∧ 2 ≤ c.points.length ∧ c.points.Pairwise (fun p q => p.w < q.w)
                   ∧ (c.refKind = .endStops ∨ c.refKind = .absolute))
             ∧ (c.bindKind ≠ .map → natAt b (o + 86) = 0)))
    ∧ (imageZones b).length = natAt b 22 ∧ natAt b 22 ≤ 16 ∧ ((imageZones b).map fun z => z.id).Nodup
    ∧ ∀ z ∈ imageZones b,
        1 ≤ z.id ∧ z.id ≤ 16 ∧ z.cap ≤ 100 ∧ z.clearHold ≤ 10000 ∧ 1 ≤ z.terms.length ∧ z.terms.length ≤ 4
        ∧ (∀ st line, z.source = .line st line → 1 ≤ st ∧ st ≤ 30 ∧ 1 ≤ line ∧ line ≤ 4)
        ∧ ∀ t ∈ z.terms, 1 ≤ t.station ∧ t.station ≤ 30 ∧ 1 ≤ t.channel ∧ t.channel ≤ 3 ∧ t.lo ≤ t.hi
            ∧ -Config.maxCount ≤ t.lo ∧ t.hi ≤ Config.maxCount
            ∧ (t.station = station → ∀ ch, Chan.ofNumber? t.channel = some ch → ((imageCfg b).chans.get ch).kind ≠ .unused)

/-- O8. An image that a check of R180 finds wrong is not handed out: a length out of range, a count of points, zones or terms out of range,
records that do not end two bytes before the image's end, a wrong CRC-16, version or station, a header field out of its range (desk,
frame rate, publish_delay, peer_timeout, required peers, cue_percent, stop_timeout, brake_engage, brake_release, wheel_period), a
channel block or a zone record out of its ranges, a zone id used twice. -/
def Obligations.ImageChecksRefuse : Prop :=
  ∀ (station : Nat) (b : List Byte),
    (b.length < 286 ∨ 1024 < b.length ∨ n16 b 0 ≠ b.length ∨ structureCloses b = false
      ∨ 16 < natAt b 22 ∨ (∃ ch, 16 < natAt b (blockAt b ch + 86))
      ∨ (∃ o ∈ zoneOffsets b, natAt b (o + 9) = 0 ∨ 4 < natAt b (o + 9))
      ∨ (zoneWalk b (natAt b 22) (zonesAt b)).2 + 2 ≠ b.length
      ∨ crc16 (b.take (b.length - 2)) ≠ word16At b (b.length - 2) ∨ natAt b 2 ≠ 1 ∨ natAt b 3 ≠ station ∨ station = 0
      ∨ station = 31 ∨ 30 < natAt b 4 ∨ 7 < natAt b 5
      ∨ (n16 b 6 ≠ 0 ∧ (n16 b 6 < 1000 ∨ Config.nominalPeriod (natAt b 5) < n16 b 6 + 4000))
      ∨ natAt b 8 = 1 ∨ 8 < natAt b 8 ∨ (word32At b 9).getLsbD 0 = true ∨ (word32At b 9).getLsbD 31 = true
      ∨ (natAt b 13 ≠ 0 ∧ (natAt b 13 < 10 ∨ 100 < natAt b 13)) ∨ (n16 b 14 ≠ 0 ∧ (n16 b 14 < 100 ∨ 5000 < n16 b 14))
      ∨ 500 < n16 b 16 ∨ 500 < n16 b 18 ∨ 8 < natAt b 20
      ∨ (∃ ch, blockOk b (blockAt b ch) = false)
      ∨ (∃ o ∈ zoneOffsets b, zoneOk station (kindsOf b) b o = false)
      ∨ uniqueIds ((zoneOffsets b).map (natAt b)) = false) →
    imageOk station b = false

/-! ## Feedback unit -/

/-- O9. A legal transition counts one step unless it leads out of the range, up when the pair moves one place on in the sequence, the other
way when it moves back, the sign turned by count_dir, also when it moves inward from a bound; the saturation condition clears, and nothing
changes but the channel's feedback record and its raw lines (log 4). One refused at a bound leaves the count there and sets the condition:
on an AXIS channel its onset is recorded as FEEDBACK with this station, this channel and the stop state met; on a WHEEL channel it raises
nothing and freezes the published value; a refused step that is no onset raises nothing (R3, R5, R15, R16). -/
def Obligations.LegalTransitionCounts : Prop :=
  ∀ (ch : Chan) (line : QuadLine) (s : State), readsEncoder s ch = true →
    ((let δ := stepOf (chanCfg s ch).reversed (s.fb.get ch).qa.level (s.fb.get ch).qb.level line
      (s.fb.get ch).x ≠ Config.maxCount * δ ∧ (s.fb.get ch).x.natAbs ≤ 2147483647) →
      ∃ t, exec (.legalTransition ch line) s = .next t
        ∧ (let f := s.fb.get ch
           let g := t.fb.get ch
           (line = .qa → g.qa.level = !f.qa.level ∧ g.qb = f.qb) ∧ (line = .qb → g.qb.level = !f.qb.level ∧ g.qa = f.qa)
           ∧ (let up : Bool := quadPlace g.qa.level g.qb.level = (quadPlace f.qa.level f.qb.level + 1) % 4
              g.x = f.x + if up ≠ (chanCfg s ch).reversed then 1 else -1)
           ∧ g = { f with qa := g.qa, qb := g.qb, x := g.x, saturation := false, frozen := if fbFault g then f.frozen else none })
        ∧ (∀ c, c ≠ ch → t.fb.get c = s.fb.get c ∧ t.lines.chans.get c = s.lines.chans.get c)
        ∧ t = { s with fb := t.fb, lines := { s.lines with chans := t.lines.chans } }) ∧
    ((let δ := stepOf (chanCfg s ch).reversed (s.fb.get ch).qa.level (s.fb.get ch).qb.level line
      (s.fb.get ch).x = Config.maxCount * δ) →
      ∃ t, exec (.legalTransition ch line) s = .next t ∧ (t.fb.get ch).x = (s.fb.get ch).x
        ∧ (t.fb.get ch).saturation = true
        ∧ (isAxis s ch = true → (s.fb.get ch).saturation = false →
            t.sc.last = some
              { kind := .feedback, origin := stationByte s, channel := BitVec.ofNat 8 ch.number, zone := 0
                frame := s.ft.count, met := s.sc.state } ∧ t.sc.causes = satIncr 255 s.sc.causes)
        ∧ (isWheel s ch = true → t.sc = s.sc ∧ t.mo = s.mo ∧ publishedWheel (t.fb.get ch) = publishedWheel (s.fb.get ch)
            ∧ ((s.fb.get ch).saturation = false → (t.fb.get ch).frozen = some (publishedWheel (s.fb.get ch))))
        ∧ ((s.fb.get ch).saturation = true → t.sc = s.sc)
        ∧ (isWheel s ch = true ∨ (s.fb.get ch).saturation = true →
            t = { s with fb := t.fb, lines := { s.lines with chans := t.lines.chans } }))

/-- O10. An illegal transition leaves the count and raises the counter, saturating at 255. Its arrival at 8 raises FEEDBACK on an AXIS channel,
which in RUN takes the station to BRAKING with the brakes applied and every AXIS channel OFF; on a WHEEL channel it raises nothing and
freezes the published value; any other arrival raises nothing. A leak event lowers the counter by one if it is above 0, sets the next
leak event 100 ms on, and gives back the published wheel value when the last condition clears (R3, R4, R15, R16, R121). The counter's floor,
cap and arrival are followed in either order of the two at one moment: a choice of the model (log 33). -/
def Obligations.IllegalTransitionOnset : Prop :=
  ∀ (ch : Chan) (s : State),
    (readsEncoder s ch = true →
      ∃ t, exec (.illegalTransition ch) s = .next t ∧ (t.fb.get ch).x = (s.fb.get ch).x
        ∧ (t.fb.get ch).illegal = satIncr 255 (s.fb.get ch).illegal
        ∧ ((s.fb.get ch).illegal ≠ 7 → t.sc = s.sc ∧ t.mo = s.mo)
        ∧ ((s.fb.get ch).illegal = 7 → isAxis s ch = true →
            (t.sc.last.map fun r => (r.kind, r.channel)) = some (.feedback, BitVec.ofNat 8 ch.number)
            ∧ t.sc.causes = satIncr 255 s.sc.causes
            ∧ (s.sc.state = .run →
                t.sc.state = .braking ∧ t.sc.brakeReleased = false
                  ∧ (t.sc.first.map fun r => (r.kind, r.channel)) = some (.feedback, BitVec.ofNat 8 ch.number)
                  ∧ (∀ c, isAxis s c = true → (t.mo.get c).mode = .off
                      ∧ ((s.mo.get c).mode ≠ .off → (t.mo.get c).u = 0 ∧ pwmLevel t c = false))))
        ∧ (isWheel s ch = true → t.sc = s.sc ∧ t.mo = s.mo ∧ publishedWheel (t.fb.get ch) = publishedWheel (s.fb.get ch)
            ∧ ((s.fb.get ch).illegal = 7 → (t.fb.get ch).frozen = some (publishedWheel (s.fb.get ch))))) ∧
    (∀ time, (s.fb.get ch).nextLeak = some time →
      ∃ t, exec (.leakEvent ch) s = .next t
        ∧ (t.fb.get ch).illegal = (s.fb.get ch).illegal - 1 ∧ (t.fb.get ch).nextLeak = some (after time 100000)
        ∧ (t.fb.get ch).x = (s.fb.get ch).x ∧ (t.fb.get ch).rail = (s.fb.get ch).rail
        ∧ (t.fb.get ch).saturation = (s.fb.get ch).saturation
        ∧ ((s.fb.get ch).illegal ≤ 8 → (s.fb.get ch).rail = false → (s.fb.get ch).saturation = false →
            publishedWheel (t.fb.get ch) = (s.fb.get ch).x)
        ∧ (∀ c, c ≠ ch → t.fb.get c = s.fb.get c) ∧ t.mo = s.mo ∧ t.rf = s.rf ∧ t.sc = s.sc ∧ t.tk = s.tk ∧ t.te = s.te)

/-! ## Sampling and the step on an empty queue -/

/-- O11. What the sampled lines pass on. The noise rejector accepts a new level at its (qfilt + 1)-th sample in a row and leaves no trace of
a shorter pulse; the three encoder lines of a microsecond are rejected each on its own, the events found agree with the accepted levels at
its end, and a microsecond without a change of an accepted level gives none. The filters of the limit, chain, presence and panel lines
change at the sample that ends their hold, and a sample of the old level ends the run (R2, R3, R12, R104, R125, R170; that N µs are N
samples after the first of the run is log 14). -/
def Obligations.FiltersHold : Prop :=
  (∀ (qfilt n : Nat) (level : Bool),
    (List.replicate n (!level)).foldl (fun f b => rejectStep qfilt b f) ⟨level, 0⟩
      = (if n ≤ qfilt then ⟨level, n⟩ else ⟨!level, 0⟩)
    ∧ (n ≤ qfilt →
        (List.replicate n (!level) ++ [level]).foldl (fun f b => rejectStep qfilt b f) ⟨level, 0⟩ = ⟨level, 0⟩)) ∧
  (∀ (hold n : Nat) (level : Bool),
    ((List.replicate n (!level)).foldl (fun f b => silentStep hold b f) ⟨level, 0⟩
      = if n ≤ hold then ⟨level, n⟩ else ⟨!level, 0⟩)
    ∧ (filterStep hold (!level) ⟨level, n⟩).2 = decide (hold ≤ n)
    ∧ filterStep hold level ⟨level, n⟩ = (⟨level, 0⟩, false)) ∧
  (∀ (ch : Chan) (qfilt : Nat) (w : Wave) (a b x : Filt),
    (let line := fun (bits : BitVec 20) (f : Filt) =>
       (List.range 20).foldl (fun f i => rejectStep qfilt (bits.getLsbD i) f) f
     let r := quadSamples ch qfilt w 20 0 (a, b, x)
     r.1 = (line w.qa a, line w.qb b, line w.qi x)
     ∧ (r.1.1.level = a.level ↔
         (r.2.count (.legalTransition ch .qa) + r.2.count (.illegalTransition ch)) % 2 = 0)
     ∧ (r.1.2.1.level = b.level ↔
         (r.2.count (.legalTransition ch .qb) + r.2.count (.illegalTransition ch)) % 2 = 0)
     ∧ (x.level = false → r.1.2.2.level = true → 1 ≤ r.2.count (.indexRise ch))
     ∧ (w.qa = (if a.level then BitVec.allOnes 20 else 0) → w.qb = (if b.level then BitVec.allOnes 20 else 0) →
         w.qi = (if x.level then BitVec.allOnes 20 else 0) → r.2 = [])
     ∧ ∀ c ∈ r.2, c = .legalTransition ch .qa ∨ c = .legalTransition ch .qb ∨ c = .illegalTransition ch ∨ c = .indexRise ch))

/-- O12. The step on an empty queue, which stands for the passing of time (DESIGN CHOICE, log 3). While an event of the station's own is
due or found by sampling, one of them, in a free order (log 2), goes alone into the queue and nothing else changes. Each timed event is
due from its time on and not before; a quiet is declared before a transition of the same time (log 36), a frame READY in its own gap slot
is due there (log 27), and the hold of two overlapping resets ends as log 31 says. Otherwise a microsecond passes: the clock rises by 1,
or stands at 0 in a held reset, the lines take their next levels, each filter takes its sample and gives its event exactly when it has
held (500 µs a limit switch, 1,000 µs the chain, 10,000 µs a presence or panel line), FREF gives one when it has risen, the encoder lines
give those of their 20 samples, and the trunk takes its four bits, recessive ones after a frame among them (log 8). That a filter changes
at the N-th sample after its run's first, and that the encoder's events and every duration within a microsecond fall on its end, is log
14; that the select lines pass before a press is log 30. No block but the filters, the trunk's line, the PWM phase and the model's own
mark of a store just full (log 29) changes (R2, R12, R18, R36, R57, R59, R60, R72, R73, R104, R125, R170). -/
def Obligations.EmptyQueueStep : Prop :=
  ∀ s : State, s.pending = [] →
    ∃ t, step s = .next t
      ∧ (let found := s.sampled.flatten
         (found ++ dueEvents s ≠ [] →
           ∃ c ∈ found ++ dueEvents s,
             t = { s with pending := [c], sampled := t.sampled, order := t.order, draws := t.draws }
               ∧ (found.Perm (c :: t.sampled.flatten) ∨ (c ∈ dueEvents s ∧ t.sampled.flatten = found)))
         ∧ (found = [] → dueEvents s = [] → t.pending = [] ∧ t.lines = (nextSample s).1.lines ∧ t.inputs = (nextSample s).2
             ∧ (s.su.phase = .held → t = { s with lines := t.lines, inputs := t.inputs })
             ∧ (s.su.phase ≠ .held → microsecondPasses s t)))
      ∧ dueFromTheirTime s

/-! ## Captures, conversions and limit switches -/

/-- O13. A rise of the accepted level of QI with the capture ARMED for INDEX captures the count, and in SEARCH_1 of an INDEX run the pending
offset is ref_position minus that count; in any other capture state only the accepted level of QI changes. A rise that the samples have
shown leaves the level they left (log 14), and a level that is high without one cannot rise and changes nothing (log 1; R2, R7, R44). -/
def Obligations.IndexRiseCaptures : Prop :=
  ∀ (ch : Chan) (s : State), readsEncoder s ch = true →
    (0 < (s.fb.get ch).rises ∨ (s.fb.get ch).qi.level = false →
      ∃ t, exec (.indexRise ch) s = .next t ∧ (t.fb.get ch).x = (s.fb.get ch).x
        ∧ (t.fb.get ch).rises = (s.fb.get ch).rises - 1
        ∧ (t.fb.get ch).qi = (if 0 < (s.fb.get ch).rises then (s.fb.get ch).qi else ⟨true, 0⟩)
        ∧ ((s.fb.get ch).capture = .armed .index →
            (t.fb.get ch).capture = .captured (s.fb.get ch).x
              ∧ ((s.rf.get ch).state = .search1 → (chanCfg s ch).refKind = .index →
                  (t.rf.get ch).offset = some ((chanCfg s ch).refPosition - (s.fb.get ch).x)))
        ∧ ((s.fb.get ch).capture ≠ .armed .index → (t.fb.get ch).capture = (s.fb.get ch).capture ∧ t.rf = s.rf)
        ∧ (∀ c, c ≠ ch → t.fb.get c = s.fb.get c ∧ t.rf.get c = s.rf.get c) ∧ t.mo = s.mo ∧ t.sc = s.sc ∧ t.te = s.te) ∧
    ((s.fb.get ch).rises = 0 → (s.fb.get ch).qi.level = true → exec (.indexRise ch) s = .next s)

/-- O14. The fourth good conversion of a group sets X from the floor of the average and analog_zero, with the sign of count_dir; X
lies between −65,535 and 65,535, and no cause is raised (R9, R10). -/
def Obligations.AnalogGroupSetsX : Prop :=
  ∀ (ch : Chan) (time : Word) (r1 r2 r3 : Nat) (reading : BitVec 16) (s : State),
    (s.fb.get ch).nextConversion = some time → (s.fb.get ch).group = [r1, r2, r3] →
    (∀ r ∈ [r1, r2, r3, reading.toNat], 64 ≤ r ∧ r ≤ 65471) → (chanCfg s ch).analogZero ≤ 65535 →
    ∃ t, exec (.analogConversion ch reading) s = .next t
      ∧ (let average : Int := ((r1 + r2 + r3 + reading.toNat) / 4 : Nat)
         (t.fb.get ch).x =
           if (chanCfg s ch).reversed then (chanCfg s ch).analogZero - average else average - (chanCfg s ch).analogZero)
      ∧ -65535 ≤ (t.fb.get ch).x ∧ (t.fb.get ch).x ≤ 65535
      ∧ (t.fb.get ch).group = [] ∧ (t.fb.get ch).nextConversion = some (after time 250)
      ∧ (t.fb.get ch).saturation = (s.fb.get ch).saturation
      ∧ (∀ c, c ≠ ch → t.fb.get c = s.fb.get c) ∧ t.mo = s.mo ∧ t.sc = s.sc ∧ t.rf = s.rf ∧ t.te = s.te

/-- O15. The fourth rail sample in a row sets the rail condition: on an AXIS channel it is recorded as FEEDBACK, on a WHEEL channel it
raises nothing and freezes the published value. X keeps its value at it, and an earlier rail sample in the run sets nothing. The fourth good
conversion in a row clears the condition, raises nothing, and with it the last condition gone the published wheel value is X again. A group
that holds a rail sample keeps X (R9, R11, R15, R16). -/
def Obligations.RailConditionOnset : Prop :=
  (∀ (ch : Chan) (time : Word) (reading : BitVec 16) (s : State),
    (s.fb.get ch).nextConversion = some time → (reading.toNat ≤ 63 ∨ 65472 ≤ reading.toNat) →
    (s.fb.get ch).rail = false → (s.fb.get ch).railRun ≤ 3 →
    ∃ t, exec (.analogConversion ch reading) s = .next t ∧ (t.fb.get ch).x = (s.fb.get ch).x
      ∧ (t.fb.get ch).goodRun = 0
      ∧ ((s.fb.get ch).railRun = 3 → (t.fb.get ch).rail = true
          ∧ (isAxis s ch = true →
              (t.sc.last.map fun r => (r.kind, r.channel)) = some (.feedback, BitVec.ofNat 8 ch.number)
              ∧ t.sc.causes = satIncr 255 s.sc.causes)
          ∧ (isWheel s ch = true → t.sc = s.sc ∧ t.mo = s.mo
              ∧ (t.fb.get ch).frozen = some (publishedWheel (s.fb.get ch))))
      ∧ ((s.fb.get ch).railRun < 3 → (t.fb.get ch).rail = false ∧ t.sc = s.sc ∧ t.mo = s.mo)) ∧
  (∀ (ch : Chan) (time : Word) (reading : BitVec 16) (s : State),
    (s.fb.get ch).nextConversion = some time → 64 ≤ reading.toNat → reading.toNat ≤ 65471 → (s.fb.get ch).rail = true →
    (s.fb.get ch).goodRun ≤ 3 →
    ∃ t, exec (.analogConversion ch reading) s = .next t ∧ t = { s with clock := t.clock, fb := t.fb }
      ∧ (∀ c, c ≠ ch → t.fb.get c = s.fb.get c)
      ∧ (let f := s.fb.get ch
         let g := t.fb.get ch
         g.railRun = 0 ∧ g.goodRun = f.goodRun + 1 ∧ g.nextConversion = some (after time 250)
         ∧ (f.goodRun < 3 → g.rail = true ∧ g.frozen = f.frozen)
         ∧ (f.goodRun = 3 → g.rail = false
             ∧ (f.illegal ≤ 7 → f.saturation = false → publishedWheel g = g.x)
             ∧ (8 ≤ f.illegal ∨ f.saturation = true → g.frozen = f.frozen)))) ∧
  (∀ (ch : Chan) (time : Word) (r1 r2 r3 : Nat) (reading : BitVec 16) (s : State),
    (s.fb.get ch).nextConversion = some time → (s.fb.get ch).group = [r1, r2, r3] →
    (∃ r ∈ [r1, r2, r3, reading.toNat], r ≤ 63 ∨ 65472 ≤ r) →
    ∃ t, exec (.analogConversion ch reading) s = .next t ∧ (t.fb.get ch).x = (s.fb.get ch).x ∧ (t.fb.get ch).group = []
      ∧ (t.fb.get ch).nextConversion = some (after time 250))

/-- O16. A limit switch becoming active raises HARD_LIMIT exactly when the channel moves toward it and it is not the home signal of a
SWITCH run: in RUN the station goes to BRAKING with every AXIS channel OFF. Otherwise nothing changes but the switch's filtered state, its
raw line, which the model sets to the level reported (log 4), and, with the capture armed for it and a count noted, the capture and the
pending offset; with none noted, nothing is captured (log 45). A switch becoming inactive changes its filtered state and that raw line
alone (R8, R12, R13, R44, R121). -/
def Obligations.LimitSwitchChange : Prop :=
  ∀ (ch : Chan) (sw : Switch) (s : State), readsLimits s ch = true →
    (let withLine := fun (active : Bool) =>
       let raw := xor active (chanCfg s ch).activeLow
       let l := s.lines.chans.get ch
       { s.lines with
         chans := s.lines.chans.set ch (match sw with | .pos => { l with limp := raw } | .neg => { l with limn := raw }) }
     let withState := fun (active : Bool) =>
       match sw with
       | .pos => { s.fb.get ch with limPos := { level := active, run := 0 } }
       | .neg => { s.fb.get ch with limNeg := { level := active, run := 0 } }
     let limit := match sw with | .pos => (s.fb.get ch).limPos.level | .neg => (s.fb.get ch).limNeg.level
     let toward : Prop := match sw with | .pos => 0 < (s.mo.get ch).v | .neg => (s.mo.get ch).v < 0
     let home : Prop := (chanCfg s ch).refKind = .switch ∧ inRun (s.rf.get ch) = true ∧ (sw = .neg ↔ (chanCfg s ch).refNegative = true)
     (limit = false →
       ∃ t, exec (.limitFilteredChange ch sw true) s = .next t ∧ limitState (t.fb.get ch) sw = true
         ∧ (t.fb.get ch).x = (s.fb.get ch).x ∧ t.lines = withLine true
         ∧ (¬home → toward →
             t.sc.last = some
               { kind := .hardLimit, origin := stationByte s, channel := BitVec.ofNat 8 ch.number, zone := 0
                 frame := s.ft.count, met := s.sc.state }
             ∧ t.sc.causes = satIncr 255 s.sc.causes
             ∧ (s.sc.state = .run → t.sc.state = .braking ∧ t.sc.brakeReleased = false ∧ t.sc.first = t.sc.last
                 ∧ ∀ c, isAxis s c = true → (t.mo.get c).mode = .off))
         ∧ (home ∨ ¬toward →
             t = { s with fb := t.fb, rf := t.rf, lines := withLine true }
             ∧ (∀ c, c ≠ ch → t.fb.get c = s.fb.get c ∧ t.rf.get c = s.rf.get c)
             ∧ (armedFor (s.fb.get ch) sw = false ∨ (s.fb.get ch).provisional = none →
                 t.fb.get ch = withState true ∧ t.rf = s.rf))) ∧
     (limit = true →
       exec (.limitFilteredChange ch sw false) s
         = .next { s with fb := s.fb.set ch (withState false), lines := withLine false }))

/-- O17. With the capture ARMED for a switch, a raw turn to active notes the encoder count, a raw return drops it, and the filtered
change captures the count that was noted, whatever the count is by then: for a home switch of a SWITCH run also while the channel moves
toward it. In SEARCH_1 of an INDEX or SWITCH run the pending offset is then ref_position minus that count. A turn reported while the raw level
already stands there is taken as a turn (log 39; R8, R44). -/
def Obligations.SwitchCapture : Prop :=
  ∀ (ch : Chan) (sw : Switch) (s : State), readsLimits s ch = true → armedFor (s.fb.get ch) sw = true →
    (∃ t, exec (.provisionalCountNoted ch sw true) s = .next t ∧ (t.fb.get ch).provisional = some (s.fb.get ch).x
      ∧ (t.fb.get ch).capture = (s.fb.get ch).capture ∧ t.rf = s.rf ∧ t.mo = s.mo ∧ t.sc = s.sc) ∧
    (∃ t, exec (.provisionalCountNoted ch sw false) s = .next t ∧ (t.fb.get ch).provisional = none
      ∧ (t.fb.get ch).capture = (s.fb.get ch).capture ∧ t.rf = s.rf ∧ t.mo = s.mo ∧ t.sc = s.sc) ∧
    (∀ n, (s.fb.get ch).provisional = some n → limitState (s.fb.get ch) sw = false →
      homeSignal s ch sw = true ∨ movingToward (s.mo.get ch).v sw = false →
      ∃ t, exec (.limitFilteredChange ch sw true) s = .next t ∧ (t.fb.get ch).capture = .captured n
        ∧ (t.fb.get ch).provisional = none ∧ (t.fb.get ch).x = (s.fb.get ch).x ∧ t.sc = s.sc ∧ t.mo = s.mo
        ∧ (let searching : Prop := (s.rf.get ch).state = .search1
             ∧ ((chanCfg s ch).refKind = .index ∨ (chanCfg s ch).refKind = .switch)
           (searching →
             t.rf = s.rf.set ch { s.rf.get ch with offset := some ((chanCfg s ch).refPosition - n) })
           ∧ (¬searching → t.rf = s.rf)))

/-! ## Motion unit -/

/-- O18. A servo update of a channel in OFF, in STOPPING while another channel still moves, with no take work and no reference work pending: the setpoint follows X and
everything the limiter and the servo law write is 0 or clear, SOFT_LIMIT among it (log 24); nothing outside the channel's motion and source
records changes (R18, R24). -/
def Obligations.OffUpdateTracks : Prop :=
  ∀ (ch : Chan) (time : Word) (s : State), (s.mo.get ch).nextUpdate = some time → (s.mo.get ch).mode = .off →
    (s.sc.state = .stopping → ∃ k, isAxis s k = true ∧ (s.mo.get k).mode ≠ .off ∧ (s.mo.get k).v ≠ 0) → s.te.phase = .idle →
    (s.rf.get ch).offset = none → inRun (s.rf.get ch) = false →
    ∃ t, exec (.servoUpdate ch) s = .next t
      ∧ (let x := (s.fb.get ch).x
         let m := t.mo.get ch
         m.mode = .off ∧ m.p = x * 256 ∧ m.v = 0 ∧ m.integ = 0 ∧ m.u = 0 ∧ m.ep = 0 ∧ m.target = x ∧ m.pos = x ∧ m.lag = 0
         ∧ m.sd = 0 ∧ m.cap = s.zm.caps.get ch ∧ m.targetClamped = false ∧ m.softLimit = false ∧ m.saturated = false
         ∧ m.following = false ∧ m.pwmNext = 0 ∧ m.dirNext = false ∧ m.hold = (s.mo.get ch).hold
         ∧ m.nextUpdate = some (after time 1000))
      ∧ (∀ c, c ≠ ch → t.mo.get c = s.mo.get c) ∧ t.fb = s.fb ∧ t.rf = s.rf ∧ t.sc = s.sc ∧ t.te = s.te ∧ t.ts = s.ts
      ∧ t.tk = s.tk ∧ t.zm = s.zm ∧ t.pt = s.pt ∧ t.ft = s.ft ∧ t.dk = s.dk

/-- O19. A servo update in HOLD, LIVE, CUE or PLAY, in RUN, outside a run and with no onset of the following condition, writes the record
that the limiter and the servo law give for the mode's target and speed base (the hold point; the mapped wheel or the setpoint moved by
the joystick; sample 0 of the take at cue_percent; the interpolated take), and sets MAP_CLAMPED by the map in LIVE alone. A binding to a
wheel of the own station first takes the published value, FRESH. In CUEING it marks the channel when it is in place, which a channel that
a cap of 0 holds off its cue point is not (log 38), and the last mark ends in CUED, with holdover in HOLDOVER, or in a lost lock's ABORTED
with HOLD on every recorded channel and, by the model's choice, no start frame (log 37); in PLAYING a lag above take_tolerance sets
spoiled. Nothing else changes (R18, R20, R51, R53, R54, R157, R158, R162, R163). -/
def Obligations.UpdateWritesRecord : Prop :=
  ∀ (ch : Chan) (time : Word) (s : State), (s.mo.get ch).nextUpdate = some time →
    (s.mo.get ch).mode ≠ .off → (s.mo.get ch).mode ≠ .ref → isAxis s ch = true → s.sc.state = .run →
    (s.rf.get ch).offset = none → (s.rf.get ch).realign = false → inRun (s.rf.get ch) = false →
    (let s' := refreshLocal ch (advanceTo time s)
     let c := chanCfg s ch
     let i := updateInput s' ch
     let m₀ := s.mo.get ch
     let m := updateRecord i c { m₀ with nextUpdate := some (after time 1000) }
     let marks := s.te.marks.set ch (decide (m.ep.natAbs ≤ c.inPosition ∧ m.v = 0 ∧ (m.cap = 0 → m.p = m.target * 256)))
     let held := fun (m : Motion) => { m with mode := .hold, hold := floorDiv m.p 256 }
     let ownWheel := fun (src : Chan) => c.bindKind ≠ .none ∧ c.srcStation = s.su.station.toNat
       ∧ Chan.ofNumber? c.srcChannel = some src ∧ isWheel s src = true
     let allMarked : Prop := ∀ k, isAxis s k = true → marks.get k = true
     (m.following = true → m₀.following = true) →
     ∃ t, exec (.servoUpdate ch) s = .next t
      ∧ (m₀.mode = .hold → i.target = m₀.hold ∧ i.base = c.vmax ∧ i.point = true)
      ∧ (m₀.mode = .live → c.bindKind = .map → i.base = c.vmax ∧ i.point = true
          ∧ i.target = match (s'.bd.get ch).held with
            | none => floorDiv m₀.p 256
            | some w => (s.rf.get ch).softLo
                + floorDiv ((mapRing c.points w).1 * ((s.rf.get ch).softHi - (s.rf.get ch).softLo)) 65535)
      ∧ (m₀.mode = .live → c.bindKind = .rate → i.base = c.vmax ∧ i.point = false
          ∧ ((s'.bd.get ch).fresh = false → i.target = floorDiv m₀.p 256)
          ∧ (∀ w, (s'.bd.get ch).fresh = true → (s'.bd.get ch).held = some w →
              ((w - c.center).natAbs ≤ c.deadband → i.target = floorDiv m₀.p 256)
              ∧ ((c.deadband : Int) < w - c.center →
                  i.target = floorDiv m₀.p 256 + floorDiv ((w - c.center - c.deadband) * c.gain) 256)
              ∧ (w - c.center < -(c.deadband : Int) →
                  i.target = floorDiv m₀.p 256 + floorDiv ((w - c.center + c.deadband) * c.gain) 256)))
      ∧ (m₀.mode = .cue → i.base = c.vmax * s.cfg.cuePercent / 100 ∧ i.point = true
          ∧ ∀ e, lookupTake s.ts.dir s.te.take = some e →
              i.target =
                (let w := slotRead s.ts.slots (sampleSlot e 0 ch)
                 if e.normalized.get ch then
                   (s.rf.get ch).softLo + floorDiv (w.toNat * ((s.rf.get ch).softHi - (s.rf.get ch).softLo)) 65535
                 else w.toInt))
      ∧ (m₀.mode = .play → i.base = c.vmax ∧ i.point = false
          ∧ i.target =
            (let elapsedUs := match s.ft.lastEvent with | some event => elapsed t.clock event | none => 0
             let period := if s.ft.lock = .locked then s.ft.period else Config.nominalPeriod s.cfg.frameRate
             let tauNow := s.te.tau + s.te.rate * 256 * min 65535 (elapsedUs * 65536 / period) / 65536
             let k := tauNow / 65536
             let a := takeSample s k ch
             takeCounts s ch
               (if s.te.playLen ≤ k + 1 then takeSample s (s.te.playLen - 1) ch
                else a + floorDiv ((takeSample s (k + 1) ch - a) * (tauNow - k * 65536 : Nat)) 65536)))
      ∧ (t.bd.get ch).mapClamped = (m₀.mode = .live && c.bindKind = .map
          && (mapTarget c (s'.bd.get ch) (s.rf.get ch) m₀.p).2)
      ∧ t.bd.get ch = { s.bd.get ch with
          held := (t.bd.get ch).held, fresh := (t.bd.get ch).fresh, mapClamped := (t.bd.get ch).mapClamped }
      ∧ (t.bd.get ch).held = (s'.bd.get ch).held ∧ (t.bd.get ch).fresh = (s'.bd.get ch).fresh
      ∧ (∀ src, ownWheel src →
          (t.bd.get ch).held = some ((s.fb.get src).frozen.getD (s.fb.get src).x) ∧ (t.bd.get ch).fresh = true)
      ∧ ((∀ src, ¬ownWheel src) → (t.bd.get ch).held = (s.bd.get ch).held ∧ (t.bd.get ch).fresh = (s.bd.get ch).fresh)
      ∧ (∀ k, k ≠ ch → t.bd.get k = s.bd.get k)
      ∧ (s.te.phase ≠ .cueing ∨ ¬allMarked ∨ s.ft.lock ≠ .free → t.mo.get ch = m ∧ ∀ k, k ≠ ch → t.mo.get k = s.mo.get k)
      ∧ (s.te.phase = .cueing → ¬allMarked → t.te = { s.te with marks := marks })
      ∧ (s.te.phase = .cueing → allMarked →
          (s.ft.lock ≠ .free → t.te = { s.te with
              phase := .cued, marks := .all false, holdover := s.te.holdover || decide (s.ft.lock = .holdover) })
          ∧ (s.ft.lock = .free →
              t.te = { s.te with
                phase := .idle, start := none, marks := .all false, result := .aborted, fault := .lockLost, liveHeld := false }
              ∧ t.mo.get ch = held m
              ∧ ∀ k, k ≠ ch → t.mo.get k =
                  if isAxis s k ∧ (s.mo.get k).mode ≠ .off ∧ (s.mo.get k).mode ≠ .ref then held (s.mo.get k) else s.mo.get k))
      ∧ (s.te.phase = .playing →
          t.te = { s.te with spoiled := s.te.spoiled || decide (c.takeTolerance < m.lag) })
      ∧ (s.te.phase ≠ .cueing → s.te.phase ≠ .playing → t.te = s.te)
      ∧ t.fb = s.fb ∧ t.rf = s.rf ∧ t.sc = s.sc ∧ t.ts = s.ts ∧ t.tk = s.tk ∧ t.zm = s.zm ∧ t.pt = s.pt ∧ t.ft = s.ft
      ∧ t.dk = s.dk)

/-- O20. The new velocity never exceeds the greater of the speed limit and the velocity before, it changes by no more than the acceleration limit
unless a switch active on the side it moved toward ends it, and no motion goes toward an active switch; with the base at most vmax and a
cap of at most 100, |v| stays within vmax (R26, R29, R30). -/
def Obligations.VelocityBounds : Prop :=
  ∀ (i : UpdateInput) (c : ChanCfg) (t p v : Int),
    (let v' := newVelocity i c t p v
     let limit := if i.stopping then 0 else i.base * i.cap / 100
     v'.natAbs ≤ max limit v.natAbs
     ∧ (i.base ≤ c.vmax → i.cap ≤ 100 → v.natAbs ≤ c.vmax → v'.natAbs ≤ c.vmax)
     ∧ ((v' - v).natAbs ≤ (if i.stopping then c.astop else c.amax)
         ∨ (v' = 0 ∧ ((i.limPos = true ∧ 0 < v) ∨ (i.limNeg = true ∧ v < 0))))
     ∧ (i.limPos = false → i.limNeg = false → (v' - v).natAbs ≤ (if i.stopping then c.astop else c.amax))
     ∧ (i.limPos = true → v' ≤ 0) ∧ (i.limNeg = true → 0 ≤ v'))

/-- O21. Updates at a stop. In STOPPING, with no switch active, an update takes astop off the velocity toward 0 and no more, whatever the
target, the cap and the mode. A HOLD channel's update in STOPPING, BRAKING or RELEASING makes a noted realignment and writes its record; in
STOPPING the hold point follows the new setpoint, and the report that leaves every enabled channel at rest takes the station to BRAKING with
the drives enabled, the stop timer stopped, the brake timer started and the brakes applied. An onset of the following condition raises
FOLLOWING with this station and this channel, whatever the stop state: it cuts every AXIS channel to OFF and ends in BRAKING, or is recorded
in HALTED; in RUN it ends every run and the take work and fills the STOP slot (R18, R21, R26, R30, R33, R39, R46, R49, R120, R121, R122,
section 2.4.2). -/
def Obligations.UpdatesAtAStop : Prop :=
  (∀ (i : UpdateInput) (c : ChanCfg) (t p v : Int), i.stopping = true → i.limPos = false → i.limNeg = false →
    newVelocity i c t p v = if v ≤ c.astop ∧ -(c.astop : Int) ≤ v then 0 else if 0 < v then v - c.astop else v + c.astop) ∧
  (∀ (ch : Chan) (time : Word) (s : State), (s.mo.get ch).nextUpdate = some time → (s.mo.get ch).mode = .hold →
    isAxis s ch = true → s.sc.state = .stopping ∨ s.sc.state = .braking ∨ s.sc.state = .releasing →
    (s.rf.get ch).offset = none → inRun (s.rf.get ch) = false → s.te.phase ≠ .cueing → s.te.phase ≠ .playing →
    (let x := (s.fb.get ch).x
     let i := updateInput s ch
     let c := chanCfg s ch
     let m₀ := if (s.rf.get ch).realign then { s.mo.get ch with p := x * 256, v := 0, integ := 0 } else s.mo.get ch
     let m := updateRecord i c { m₀ with nextUpdate := some (after time 1000) }
     let rest : Prop := s.sc.state = .stopping ∧ m.v = 0
       ∧ ∀ k, k ≠ ch → isAxis s k = true → (s.mo.get k).mode ≠ .off → (s.mo.get k).v = 0
     (m.following = true → (s.mo.get ch).following = true) →
     i.target = (s.mo.get ch).hold ∧ i.base = c.vmax ∧ i.point = true ∧ i.x = x
       ∧ (s.sc.state = .stopping → m.hold = floorDiv m.p 256 ∧ m.v.natAbs ≤ m₀.v.natAbs - c.astop)
       ∧ (s.sc.state ≠ .stopping → m.hold = (s.mo.get ch).hold)
       ∧ ∃ t, exec (.servoUpdate ch) s = .next t
           ∧ t = { s with
               clock := t.clock, mo := s.mo.set ch m, rf := s.rf.set ch { s.rf.get ch with realign := false }
               bd := s.bd.set ch (t.bd.get ch), sc := t.sc, order := t.order, draws := t.draws
               dk := { s.dk with lamps := { s.dk.lamps with stopped := t.dk.lamps.stopped } } }
           ∧ (¬rest → t.sc = s.sc ∧ t.dk = s.dk)
           ∧ (rest →
               t.sc = { s.sc with
                 state := .braking, brakeReleased := false, stopTimer := none, releaseTimer := none
                 brakeTimer := some (after t.clock (s.cfg.brakeEngage * 1000)) }
               ∧ drvEn t ch = true ∧ ∀ k, brk t k = false))) ∧
  (∀ (ch : Chan) (time : Word) (s : State), (s.mo.get ch).nextUpdate = some time → isAxis s ch = true →
    (s.mo.get ch).mode ≠ .off → (s.mo.get ch).following = false →
    (let s₀ := modMo ch (fun m => { m with nextUpdate := some (after time 1000) }) (advanceTo time s)
     let s₁ := noteMapClamped ch (beforeUpdate ch (refreshLocal ch s₀))
     let m := updateRecord (updateInput s₁ ch) (chanCfg s ch) (s₁.mo.get ch)
     let r : CauseRec :=
       { kind := .following, origin := stationByte s, channel := BitVec.ofNat 8 ch.number, zone := 0, frame := s.ft.count
         met := s.sc.state }
     let underWay : Prop := s.sc.state = .run ∨ s.sc.state = .releasing
     s₁.sc = s.sc → m.following = true →
     ((chanCfg s ch).feLimit < m.ep.natAbs ∧ endStopsRun s₁ ch = false)
       ∧ ∃ t, exec (.servoUpdate ch) s = .next t ∧ t.sc.last = some r ∧ t.sc.causes = satIncr 255 s.sc.causes
           ∧ (underWay → t.sc.first = some r ∧ t.sc.stopSerial = s.sc.stopSerial + 1
               ∧ t.tk.stopSlot = some
                   { body :=
                       { origin := r.origin, kind := .following, channel := r.channel, zone := 0, frame := s.ft.count
                         serial := s.sc.stopSerial }
                     repeats := 3 })
           ∧ (¬underWay → t.sc.first = s.sc.first ∧ t.sc.stopSerial = s.sc.stopSerial ∧ t.tk = s.tk)
           ∧ (s.sc.state = .run → workingPhase t.te.phase = false ∧ ∀ k, inRun (t.rf.get k) = false)
           ∧ (s.sc.state ≠ .halted → t.sc.state = .braking
               ∧ (∀ k, isAxis s k = true → (t.mo.get k).mode = .off ∧ drvEn t k = false)
               ∧ (let o := t.mo.get ch
                  o.v = 0 ∧ o.integ = 0 ∧ o.u = 0 ∧ o.following = false ∧ o.p = (t.fb.get ch).x * 256)
               ∧ pwmLevel t ch = false)
           ∧ (s.sc.state ≠ .halted → s.sc.state ≠ .braking → t.sc.brakeReleased = false ∧ t.sc.stopTimer = none
               ∧ t.sc.releaseTimer = none ∧ t.sc.brakeTimer = some (after t.clock (s.cfg.brakeEngage * 1000)))
           ∧ (s.sc.state = .halted → t.sc.state = .halted ∧ t.sc.brakeReleased = s.sc.brakeReleased)))

/-- O22. On a REFERENCED channel a setpoint within the soft limits stays within them: a crossing of either limit stops on it. One beyond a
limit moves no further out, stands with v at 0 when the velocity points outward, and moves inward freely. Each clamp sets SOFT_LIMIT, which
stays until the setpoint lies strictly between the limits (R31). -/
def Obligations.SoftLimitsHold : Prop :=
  ∀ (i : UpdateInput) (c : ChanCfg) (m : Motion), i.ref = true → i.softLo < i.softHi → -Config.maxCount ≤ i.softLo →
    i.softHi ≤ Config.maxCount → -(Config.maxCount * 256) ≤ m.p → m.p ≤ Config.maxCount * 256 →
    (let m' := limiter i c m
     let v := newVelocity i c (clampTarget i) m.p m.v
     let lo := i.softLo * 256
     let hi := i.softHi * 256
     (lo ≤ m.p → m.p ≤ hi → lo ≤ m'.p ∧ m'.p ≤ hi)
     ∧ (hi < m.p → m'.p ≤ m.p) ∧ (m.p < lo → m.p ≤ m'.p)
     ∧ (m.p ≤ hi → hi < m.p + v → m'.p = hi ∧ m'.v = 0 ∧ m'.softLimit = true)
     ∧ (lo ≤ m.p → m.p + v < lo → m'.p = lo ∧ m'.v = 0 ∧ m'.softLimit = true)
     ∧ (hi < m.p → 0 < v → m'.p = m.p ∧ m'.v = 0 ∧ m'.softLimit = true)
     ∧ (m.p < lo → v < 0 → m'.p = m.p ∧ m'.v = 0 ∧ m'.softLimit = true)
     ∧ (hi < m.p → v ≤ 0 → lo ≤ m.p + v → m'.p = m.p + v ∧ m'.v = v)
     ∧ (m.p < lo → 0 ≤ v → m.p + v ≤ hi → m'.p = m.p + v ∧ m'.v = v)
     ∧ (lo ≤ m.p → m.p ≤ hi → lo ≤ m.p + v → m.p + v ≤ hi → m'.p = m.p + v ∧ m'.v = v)
     ∧ (lo < m'.p → m'.p < hi → m'.softLimit = false)
     ∧ (m.softLimit = true → m'.p ≤ lo ∨ hi ≤ m'.p → m'.softLimit = true))

/-- O23. The stopping distance is the least number of counts whose product with 2 × astop × 256 reaches v², and 2^31 − 1 when that
number is larger; with v = 0 it is 0 (R32). -/
def Obligations.StoppingDistanceIsCeiling : Prop :=
  ∀ (astop : Nat) (v : Int), 1 ≤ astop →
    (let sd := stoppingDistance astop v
     sd ≤ 2147483647
     ∧ (sd < 2147483647 → v.natAbs * v.natAbs ≤ sd * (2 * astop * 256))
     ∧ (0 < sd → (sd - 1) * (2 * astop * 256) < v.natAbs * v.natAbs)
     ∧ (v = 0 → sd = 0))

/-- O24. The drive value is the servo sum formed with the old integrator, shifted down, clamped to ±32,767 and in an END_STOPS run to
±ref_drive, SATURATED when a clamp changed it; the PWM high width is floor(|u| × period / 32,768), which leaves the output low for at least
one unit of every period. The integrator takes
Ki × ep, clamped to ±Imax, when the drive is not saturated or the error has turned against it, and otherwise stays; it stays within ±Imax.
The following condition is |ep| above fe_limit outside an END_STOPS run (R33, R34, R35, R36). -/
def Obligations.ServoLawBounds : Prop :=
  ∀ (i : UpdateInput) (c : ChanCfg) (m : Motion),
    (let m' := servoLaw i c m
     let raw := floorDiv (c.kp * m'.ep + m.integ + floorDiv (c.kf * m.v) 256) (2 ^ c.sh)
     let against : Prop := (c.ki * m'.ep < 0 ∧ 0 < m'.u) ∨ (0 < c.ki * m'.ep ∧ m'.u < 0)
     m'.u ≤ 32767 ∧ -32767 ≤ m'.u
     ∧ (i.endStops = true → -(c.refDrive : Int) ≤ m'.u ∧ m'.u ≤ c.refDrive)
     ∧ (i.endStops = false → m'.u = if raw < -32767 then -32767 else if 32767 < raw then 32767 else raw)
     ∧ (i.endStops = true → c.refDrive ≤ 32767 →
         m'.u = if raw < -(c.refDrive : Int) then -(c.refDrive : Int) else if (c.refDrive : Int) < raw then c.refDrive else raw)
     ∧ (m'.saturated = true ↔ m'.u ≠ raw)
     ∧ m'.pwmNext = m'.u.natAbs * c.pwmPeriod / 32768
     ∧ (0 < c.pwmPeriod → m'.pwmNext < c.pwmPeriod) ∧ (m'.u = 0 → m'.pwmNext = 0) ∧ (m'.dirNext = true ↔ m'.u < 0)
     ∧ (-(c.imax : Int) ≤ m.integ → m.integ ≤ c.imax → -(c.imax : Int) ≤ m'.integ ∧ m'.integ ≤ c.imax)
     ∧ (m'.saturated = false ∨ against →
         (let sum := m.integ + c.ki * m'.ep
          (-(c.imax : Int) ≤ sum → sum ≤ c.imax → m'.integ = sum)
          ∧ (sum < -(c.imax : Int) → m'.integ = -(c.imax : Int)) ∧ ((c.imax : Int) < sum → m'.integ = c.imax)))
     ∧ (m'.saturated = true → ¬against → m'.integ = m.integ)
     ∧ (let e := floorDiv m.p 256 - i.x
        (e.natAbs ≤ 2147483647 → m'.ep = e) ∧ (2147483647 < e → m'.ep = 2147483647) ∧ (e < -2147483647 → m'.ep = -2147483647))
     ∧ (m'.following = true ↔ c.feLimit < m'.ep.natAbs ∧ i.endStops = false))

/-- O25. At the start of a PWM period an AXIS channel takes the widths and the direction last handed over, together, and nothing else
changes but the generator's place in its period; on another channel the event changes nothing. Given before the last period has ended, it
starts the next at once, by the model's choice (log 50; R36, R37). -/
def Obligations.PwmPeriodTakesWidths : Prop :=
  ∀ (ch : Chan) (s : State), started s = true →
    (isAxis s ch = true →
      ∃ t, exec (.pwmPeriodStart ch) s = .next t
        ∧ t = { s with
          mo := s.mo.set ch { s.mo.get ch with
            pwmHigh := (s.mo.get ch).pwmNext, dir := (s.mo.get ch).dirNext, pwmPhase := (t.mo.get ch).pwmPhase } }
        ∧ (t.mo.get ch).pwmPhase ≤ (s.mo.get ch).pwmPhase) ∧
    (isAxis s ch = false → exec (.pwmPeriodStart ch) s = .next s ∧ pwmLevel s ch = false ∧ dirLevel s ch = false)

/-! ## Reference sequencer and binding unit -/

/-- O26. REFERENCE, on a station that executes desk commands, taken in RUN with the engine IDLE and no run in progress, starts a run on
every AXIS channel in HOLD that is NOT_REFERENCED or FAILED and not ABSOLUTE, toward the far travel of its search or of its back-off, and
leaves every channel already REFERENCED; not so taken, it changes nothing (R42, R43). -/
def Obligations.ReferenceStartsRuns : Prop :=
  ∀ s : State, executesDesk s = true →
    (takesReference s = true →
      ∃ t, exec .reference s = .next t ∧ t.sc = s.sc ∧ t.te = s.te ∧ t.ts = s.ts
        ∧ ∀ ch,
          (wantsRun s ch = true → (s.mo.get ch).mode = .hold →
            (t.rf.get ch).state = .search1 ∧ (t.rf.get ch).origin = (s.rf.get ch).state ∧ (t.mo.get ch).mode = .ref
              ∧ (t.mo.get ch).p = (s.mo.get ch).p ∧ (t.mo.get ch).v = (s.mo.get ch).v
              ∧ (t.rf.get ch).stall = 0 ∧ (t.rf.get ch).endLo = none ∧ (t.rf.get ch).endHi = none
              ∧ (t.rf.get ch).timer = some (after s.clock ((chanCfg s ch).refTimeout * 1000000))
              ∧ (let c := chanCfg s ch
                 let back : Bool := c.refKind = .switch && limitState (s.fb.get ch) (homeSwitch c)
                 (t.rf.get ch).backOff = back
                 ∧ (c.refKind = .endStops → (t.rf.get ch).goal = -Config.maxCount)
                 ∧ (c.refKind ≠ .endStops → (t.rf.get ch).goal = if c.refNegative = back then Config.maxCount else -Config.maxCount)
                 ∧ (c.refKind = .switch → c.analog = false → back = false →
                     (t.fb.get ch).capture = .armed (if c.refNegative then .switchNeg else .switchPos))
                 ∧ (back = true → (t.fb.get ch).capture = (s.fb.get ch).capture)
                 ∧ (c.refKind = .index → c.analog = false → (t.fb.get ch).capture = .armed .index)))
          ∧ (referenced s ch = true → t.rf.get ch = s.rf.get ch ∧ t.mo.get ch = s.mo.get ch)
          ∧ (t.fb.get ch).x = (s.fb.get ch).x) ∧
    (takesReference s = false → exec .reference s = .next s)

/-- O27. The run timer's expiry in a run fails it with TIMEOUT: FAILED, the capture disarmed, no pending offset, the timer and the stall
count stopped, X where it was, and in RUN a channel in REF is put in HOLD; after the run the expiry stops the timer alone. A cause taken
in RUN, the opened chain and the STOP button among them, fails every run: back in the state it began from, NOT_REFERENCED, or FAILED with
STOPPED, with the offset and the measured ends discarded and X kept. Either way an END_STOPS run notes a realignment. That a run failed
with STOPPED leaves the stall count at 0 is the model's choice (log 51). A wheel timer's expiry makes the source STALE and keeps the held
value and the sequence (R48, R49, R52). -/
def Obligations.RunTimerExpiry : Prop :=
  (∀ (ch : Chan) (time : Word) (s : State), (s.rf.get ch).timer = some time →
      ∃ t, exec (.runTimerExpiry ch) s = .next t ∧ (t.rf.get ch).timer = none ∧ (t.fb.get ch).x = (s.fb.get ch).x
        ∧ t.sc = s.sc ∧ t.te = s.te
        ∧ (∀ c, c ≠ ch → t.rf.get c = s.rf.get c ∧ t.mo.get c = s.mo.get c ∧ t.fb.get c = s.fb.get c)
        ∧ (inRun (s.rf.get ch) = true →
            (t.rf.get ch).state = .failed .timeout ∧ (t.rf.get ch).offset = none ∧ (t.rf.get ch).stall = 0
              ∧ (t.fb.get ch).capture = .disarmed
              ∧ (t.rf.get ch).realign = ((s.rf.get ch).realign || decide ((chanCfg s ch).refKind = .endStops))
              ∧ (s.sc.state = .run → (s.mo.get ch).mode = .ref →
                  (t.mo.get ch).mode = .hold
                    ∧ (t.mo.get ch).hold =
                      if (chanCfg s ch).refKind = .endStops then (s.fb.get ch).x else floorDiv (s.mo.get ch).p 256))
        ∧ (inRun (s.rf.get ch) = false → (t.rf.get ch).state = (s.rf.get ch).state ∧ t.mo = s.mo ∧ t.fb = s.fb)) ∧
  (∀ (ch : Chan) (time : Word) (s : State), (s.bd.get ch).timer = some time →
      ∃ t, exec (.wheelStaleExpiry ch) s = .next t ∧ (t.bd.get ch).fresh = false ∧ (t.bd.get ch).timer = none
        ∧ (t.bd.get ch).held = (s.bd.get ch).held ∧ (t.bd.get ch).seq = (s.bd.get ch).seq
        ∧ (∀ c, c ≠ ch → t.bd.get c = s.bd.get c) ∧ t.mo = s.mo ∧ t.rf = s.rf ∧ t.fb = s.fb ∧ t.sc = s.sc ∧ t.tk = s.tk) ∧
  (∀ (kind : CauseKind) (origin channel zone : Byte) (s : State), s.sc.state = .run →
    (let stopped : State → Prop := fun t => t.sc.state ≠ .run ∧ ∀ ch,
       let r := s.rf.get ch
       let r' := t.rf.get ch
       (inRun r = true →
         (r.origin = .notReferenced → r'.state = .notReferenced) ∧ (∀ why, r.origin = .failed why → r'.state = .failed .stopped)
         ∧ r'.offset = none ∧ r'.endLo = none ∧ r'.endHi = none ∧ r'.timer = none ∧ r'.stall = 0 ∧ r'.softLo = r.softLo
         ∧ r'.softHi = r.softHi ∧ r'.realign = (r.realign || decide ((chanCfg s ch).refKind = .endStops))
         ∧ (t.fb.get ch).capture = .disarmed)
       ∧ (inRun r = false → r' = r ∧ (t.fb.get ch).capture = (s.fb.get ch).capture)
       ∧ (t.fb.get ch).x = (s.fb.get ch).x
     stopped (raiseCause kind origin channel zone s)
     ∧ (s.su.phase ≠ .held → s.sc.estop.level = true →
         ∃ t, exec (.estopFilteredChange false) s = .next t ∧ stopped t)
     ∧ (deskActive s = true → pressed 9 s = false → ∃ t, exec .stopButtonPress s = .next t ∧ stopped t)))

/-- O28. A servo update in REF, in RUN. Before the limiter: a backed-off home switch that reads inactive arms the capture and turns to
ref_dir; a pending offset shifts X and P, puts the image's soft limits in force and enters PARKING with the clamped park target, and a
shift beyond the range clamps X and, at the onset, raises FEEDBACK, which ends the run and lets the rest of the update run in OFF (log
40); a realignment puts the setpoint on X at rest, or waits through an update in OFF (that every noted realignment waits is log 34). Then
the record is written, and after it: an END_STOPS search counts stalled updates in a row, the 50th of SEARCH_1 records end_lo and enters
SEARCH_2, the 50th of SEARCH_2 checks the span and parks at the midpoint within the margins or fails with SPAN_SHORT in HOLD at X; parking
is complete when the new setpoint rests on the target (R6, R18, R43, R44, R45, R46, R47). -/
def Obligations.RunUpdates : Prop :=
  (∀ (ch : Chan) (time : Word) (s : State), (s.mo.get ch).nextUpdate = some time → (s.mo.get ch).mode = .ref →
    s.sc.state = .run → s.te.phase = .idle →
    (let s₀ := modMo ch (fun m => { m with nextUpdate := some (after time 1000) }) (advanceTo time s)
     let s₁ := noteMapClamped ch (beforeUpdate ch (refreshLocal ch s₀))
     let s₂ := modMo ch (updateRecord (updateInput s₁ ch) (chanCfg s₁ ch)) s₁
     s₁.sc = s.sc → ((s₂.mo.get ch).following = true → (s.mo.get ch).following = true) →
     (updateInput s₁ ch).target = (s₁.rf.get ch).goal ∧ (updateInput s₁ ch).base = (chanCfg s ch).refSpeed
       ∧ (updateInput s₁ ch).point = true
       ∧ ∃ t, exec (.servoUpdate ch) s = .next t
           ∧ t = { afterUpdate ch s₂ with order := t.order, draws := t.draws })) ∧
  (∀ (ch : Chan) (s : State),
    (let r := s.rf.get ch
     let c := chanCfg s ch
     (r.state = .search1 → r.backOff = true → limitState (s.fb.get ch) (homeSwitch c) = false → r.offset = none →
       r.realign = false → isAxis s ch = true → c.analog = false →
       beforeUpdate ch s =
         modFb ch (fun f => { f with capture := .armed (if c.refNegative then .switchNeg else .switchPos), provisional := none })
           (modRf ch (fun r => { r with
             backOff := false, goal := if c.refNegative then -Config.maxCount else Config.maxCount }) s))
     ∧ (∀ δ, r.offset = some δ →
         (let t := applyOffset ch s
          let f := s.fb.get ch
          (t.fb.get ch).x = clampInt (-Config.maxCount) Config.maxCount (f.x + δ)
          ∧ ((f.x + δ).natAbs ≤ 2147483647 →
              t = modRf ch (fun r => { r with
                    state := .parking, offset := none, softLo := c.softLo, softHi := c.softHi
                    goal := clampInt c.softLo c.softHi c.parkPosition })
                  (modMo ch (fun m => { m with p := m.p + δ * 256 })
                    (modFb ch (fun f => { f with
                      x := f.x + δ, capture := .disarmed, provisional := none
                      saturation := if (f.x + δ).natAbs = 2147483647 then f.saturation else false }) s)))
          ∧ (2147483647 < (f.x + δ).natAbs → (t.fb.get ch).saturation = true
              ∧ (f.saturation = true → t.sc = s.sc)
              ∧ (f.saturation = false → isAxis s ch = true →
                  (t.sc.last.map fun q => (q.kind, q.channel)) = some (.feedback, BitVec.ofNat 8 ch.number)
                  ∧ (s.sc.state = .run → t.sc.state = .braking ∧ inRun (t.rf.get ch) = false)))))
     ∧ (r.realign = true → (s.mo.get ch).mode ≠ .off →
         realign ch s = modRf ch (fun r => { r with realign := false })
           (modMo ch (fun m => { m with p := (s.fb.get ch).x * 256, v := 0, integ := 0 }) s))
     ∧ (r.realign = false ∨ (s.mo.get ch).mode = .off → realign ch s = s))) ∧
  (∀ (ch : Chan) (s : State), s.sc.state = .run → (s.mo.get ch).mode = .ref →
    (let r := s.rf.get ch
     let c := chanCfg s ch
     let m := s.mo.get ch
     let t := afterUpdate ch s
     let counts : Prop := (r.state = .search1 ∧ m.ep ≤ -(c.stallThreshold : Int)) ∨ (r.state = .search2 ∧ (c.stallThreshold : Int) ≤ m.ep)
     (r.state = .parking → m.p = r.goal * 256 → m.v = 0 →
       t = modMo ch (fun m => { m with mode := .hold, hold := r.goal })
         (modRf ch (fun r => { r with state := .referenced, timer := none }) s))
     ∧ (r.state = .parking → m.p ≠ r.goal * 256 ∨ m.v ≠ 0 → t = s)
     ∧ (c.refKind = .endStops → r.state = .search1 ∨ r.state = .search2 →
         (¬counts → t = modRf ch (fun r => { r with stall := 0 }) s)
         ∧ (counts → r.stall + 1 < 50 → t = modRf ch (fun r => { r with stall := r.stall + 1 }) s)
         ∧ (counts → 50 ≤ r.stall + 1 → r.state = .search1 →
             t = modRf ch (fun r => { r with
               state := .search2, stall := 0, endLo := some m.pos, goal := Config.maxCount, realign := true }) s)
         ∧ (∀ lo, counts → 50 ≤ r.stall + 1 → r.state = .search2 → r.endLo = some lo →
             (let good : Prop := (c.minSpan : Int) ≤ m.pos - lo ∧ 2 * (c.endMargin : Int) < m.pos - lo
              (good → t = modRf ch (fun r => { r with
                 state := .parking, stall := 0, endHi := some m.pos, realign := true
                 softLo := lo + c.endMargin, softHi := m.pos - c.endMargin, goal := floorDiv (lo + m.pos) 2 }) s)
              ∧ (¬good → (t.rf.get ch).state = .failed .spanShort ∧ (t.rf.get ch).timer = none ∧ (t.rf.get ch).realign = true
                  ∧ (t.rf.get ch).endHi = some m.pos ∧ t.mo.get ch = { m with mode := .hold, hold := (s.fb.get ch).x }
                  ∧ t.sc = s.sc ∧ ∀ k, k ≠ ch → t.mo.get k = s.mo.get k ∧ t.rf.get k = s.rf.get k))))
     ∧ (c.refKind ≠ .endStops → r.state ≠ .parking → t = s)))

/-- O29. The ring position of a map of strictly increasing points lies between 0 and 65,535, is the first point's below the first and
the last point's above the last with MAP_CLAMPED, carries no MAP_CLAMPED between them, at a point is that point's, and between two
neighbouring points lies on their line, rounded toward minus infinity (R53). -/
def Obligations.MapRingPosition : Prop :=
  ∀ (points : List MapPoint) (w : Int) (first last : MapPoint), increasing points = true → points.head? = some first →
    points.getLast? = some last → (∀ p ∈ points, p.r ≤ 65535) →
    0 ≤ (mapRing points w).1 ∧ (mapRing points w).1 ≤ 65535
      ∧ (w < first.w → mapRing points w = ((first.r : Int), true))
      ∧ (last.w < w → mapRing points w = ((last.r : Int), true))
      ∧ (first.w ≤ w → w ≤ last.w → (mapRing points w).2 = false)
      ∧ (∀ p ∈ points, w = p.w → (mapRing points w).1 = p.r)
      ∧ (∀ (before after : List MapPoint) (p q : MapPoint), points = before ++ p :: q :: after → p.w ≤ w → w < q.w →
          (mapRing points w).1 = p.r + floorDiv (((q.r : Int) - p.r) * (w - p.w)) (q.w - p.w))

/-! ## Frame timer -/

/-- O30. The arrival of a pulse before a half period is a glitch, which changes the glitch count, and the raw line and its last sample as
the arrival reports them (log 4), also when no low sample came before it (log 35); any other arrival is a pulse event stamped with its own
time: the frame count rises by one, the lock state and its counts follow the table of R60 to R63, the measured period changes at an accepted
pair alone, the deadline is the close of the next window, and the STATE frame of the event waits for its publish time. Its body carries the
new count, the new lock state (log 41), the presence levels, the desk command, the channel records, the counters and one peer's diagnostic as
they stand, the peer's before or after its ageing; and, when no release is pending, no command confirmed, no required peer silent and no take
waits for the event, the stop part, the take report and every reference state, velocity and MAP_CLAMPED as they stand too. The ring value of
a record is that of the new setpoint on a REFERENCED END_STOPS channel and 0 on any other (R19, R59 to R66, R77, R97, R131). -/
def Obligations.PulseArrival : Prop :=
  (∀ s : State, started s = true → validImage s = true →
    (isGlitch s = true →
      exec .frefArrival s = .next { s with
        lines := { s.lines with fref := true }
        ft := { s.ft with frefLow := false, glitches := satIncr 65535 s.ft.glitches } }) ∧
    (isGlitch s = false →
      ∃ t, exec .frefArrival s = .next t
        ∧ t.ft.count = s.ft.count + 1 ∧ t.ft.lastEvent = some s.clock ∧ t.ft.lastPulse = true ∧ t.clock = s.clock
        ∧ t.ft.glitches = s.ft.glitches ∧ t.ft.aligned = s.ft.aligned
        ∧ t.ft.deadline =
            some (after s.clock (Config.nominalPeriod s.cfg.frameRate + Config.tolerance s.cfg.frameRate))
        ∧ (s.ft.lock = .free ∨ s.ft.lastEvent = none →
            t.ft.lock = .locking ∧ t.ft.lockCount = 0 ∧ t.ft.period = s.ft.period)
        ∧ (∀ d, sinceEvent s = some d →
            (s.ft.lock = .locking → s.ft.lastPulse = true → goodInterval s.cfg.frameRate d = true →
              t.ft.period = d ∧ t.ft.lockCount = s.ft.lockCount + 1
                ∧ t.ft.lock = if s.ft.lockCount = 7 then .locked else .locking)
            ∧ (s.ft.lock = .locking → s.ft.lastPulse = true → goodInterval s.cfg.frameRate d = false →
              t.ft.period = s.ft.period ∧ t.ft.lockCount = 0 ∧ t.ft.lock = .locking)
            ∧ (s.ft.lock = .locking → s.ft.lastPulse = false →
              t.ft.period = s.ft.period ∧ t.ft.lockCount = s.ft.lockCount ∧ t.ft.lock = .locking)
            ∧ (s.ft.lock = .locked → goodInterval s.cfg.frameRate d = true → t.ft.lock = .locked ∧ t.ft.period = d)
            ∧ (s.ft.lock = .holdover → goodInterval s.cfg.frameRate d = true →
              t.ft.lock = .locked ∧ t.ft.holdCount = 0 ∧ t.ft.period = s.ft.period)
            ∧ (s.ft.lock = .locked ∨ s.ft.lock = .holdover → goodInterval s.cfg.frameRate d = false →
              t.ft.lock = .locking ∧ t.ft.lockCount = 0 ∧ t.ft.holdCount = 0 ∧ t.ft.period = s.ft.period))
        ∧ t.tk.stateSeq = s.tk.stateSeq + 1
        ∧ (∃ body, t.tk.stateSlot = .waiting body (after s.clock s.cfg.publishDelay) ∧ publishesStation s t body
            ∧ (s.pt.confirmed = none → s.sc.pendingRelease = false →
                (∀ n ∈ peerNumbers, requiredPeer s n = true → (peerRecord t n).freshness = .fresh) →
                s.te.phase = .idle ∨ s.te.phase = .checking ∨ s.te.phase = .cueing →
                body.stop =
                  { state := s.sc.state, first := s.sc.first, last := s.sc.last, causes := s.sc.causes, result := s.sc.result
                    resultCause := s.sc.resultCause }
                ∧ body.phase = s.te.phase ∧ body.take = s.te.take ∧ body.length = s.te.length ∧ body.result = s.te.result
                ∧ body.fault = s.te.fault ∧ body.spoiled = s.te.spoiled ∧ body.holdover = s.te.holdover
                ∧ body.serial = s.te.serial
                ∧ ∀ ch,
                    (let r := body.chans.get ch
                     r.ref = (s.rf.get ch).state ∧ r.velocity = (s.mo.get ch).v
                     ∧ r.flags.getLsbD 1 = ((s.mo.get ch).mode = .live && (chanCfg s ch).bindKind = .map
                         && (s.bd.get ch).mapClamped))))
        ∧ t.tk.counters.late =
            (if waitsInSlot s.tk.stateSlot then satIncr 65535 s.tk.counters.late else s.tk.counters.late)
        ∧ t.pt.confirmed = none ∧ t.cfg = s.cfg ∧ t.zm = s.zm)) ∧
  (∀ (i : UpdateInput) (c : ChanCfg) (m : Motion),
    (let m' := updateRecord i c m
     let place := floorDiv ((floorDiv m'.p 256 - i.softLo) * 65535) (i.softHi - i.softLo)
     (i.ref = true → c.refKind = .endStops →
       ((place < 0 → m'.ring = 0) ∧ (0 ≤ place → place ≤ 65535 → (m'.ring : Int) = place) ∧ (65535 < place → m'.ring = 65535)))
     ∧ (i.ref = false ∨ c.refKind ≠ .endStops → m'.ring = 0)))

/-- O31. The expiry of the deadline makes a synthetic event stamped at the deadline: the lock state falls back as the table of R60 to R63
says, the count rises by one, the window or the nominal period sets the next deadline, every peer record ages by one, going STALE above
peer_timeout and ABSENT at 64, and the duplicate window falls by one. The desk's record going ABSENT empties its earlier content and the join
serial, and nothing else does. Each required record then not FRESH raises PEER_SILENT with its station as origin, in ascending order: the
count rises by one for each, the last record names the highest, and in RUN and RELEASING the first names the lowest and the channels ramp to
rest. A lock that falls to FREE leaves no take armed, recorded, cued or played (R60 to R63, R66, R93, R95, R121, R130, R168). -/
def Obligations.DeadlineExpiry : Prop :=
  ∀ (time : Word) (s : State), s.ft.deadline = some time →
    ∃ t, exec .frameDeadlineExpiry s = .next t
      ∧ t.ft.count = s.ft.count + 1 ∧ t.ft.lastEvent = some time ∧ t.ft.lastPulse = false ∧ t.ft.period = s.ft.period
      ∧ t.ft.glitches = s.ft.glitches
      ∧ (s.ft.lock = .free → t.ft.lock = .free)
      ∧ (s.ft.lock = .locking → t.ft.lock = .free ∧ t.ft.lockCount = 0)
      ∧ (s.ft.lock = .locked → t.ft.lock = .holdover ∧ t.ft.holdCount = 1)
      ∧ (s.ft.lock = .holdover → s.ft.holdCount ≠ 2 → t.ft.lock = .holdover ∧ t.ft.holdCount = s.ft.holdCount + 1)
      ∧ (s.ft.lock = .holdover → s.ft.holdCount = 2 → t.ft.lock = .free ∧ t.ft.holdCount = 0)
      ∧ t.ft.deadline =
          some (after time (Config.nominalPeriod s.cfg.frameRate
            + if t.ft.lock = .free then 0 else Config.tolerance s.cfg.frameRate))
      ∧ (∀ n ∈ peerNumbers,
          let r := peerRecord s n
          let r' := peerRecord t n
          (r.freshness = .absent → r' = r)
          ∧ (r.freshness ≠ .absent → r.age = 63 →
              r'.freshness = .absent ∧ r'.age = 64 ∧ r'.content = none ∧ r'.seq = none ∧ r'.gaps = r.gaps)
          ∧ (r.freshness ≠ .absent → r.age ≠ 63 →
              r'.age = satIncr 255 r.age ∧ r'.content = r.content ∧ r'.seq = r.seq ∧ r'.gaps = r.gaps
                ∧ r'.freshness = if s.cfg.peerTimeout < satIncr 255 r.age then .stale else r.freshness))
      ∧ t.sc.dupWindow = s.sc.dupWindow - 1 ∧ t.sc.pendingRelease = false ∧ t.cfg = s.cfg ∧ t.zm = s.zm
      ∧ (let desk := peerRecord s s.cfg.desk
         let fades : Prop := s.cfg.desk ≠ 0 ∧ desk.freshness ≠ .absent ∧ desk.age = 63
         (fades → t.pt.earlier = none ∧ t.pt.join = none)
         ∧ (¬fades → t.pt.earlier = s.pt.earlier ∧ t.pt.join = s.pt.join) ∧ t.pt.adopted = s.pt.adopted)
      ∧ (let silent := peerNumbers.filter fun n => requiredPeer s n && (peerRecord t n).freshness ≠ .fresh
         s.pt.confirmed = none → s.sc.pendingRelease = false →
         (silent = [] → t.sc = { s.sc with dupWindow := s.sc.dupWindow - 1 })
         ∧ (∀ low high, silent.head? = some low → silent.getLast? = some high →
             (s.sc.causes ≤ 255 → t.sc.causes = min 255 (s.sc.causes + silent.length))
             ∧ (t.sc.last.map fun r => (r.kind, r.origin, r.channel, r.zone, r.frame))
                 = some (.peerSilent, BitVec.ofNat 8 high, 0, 0, s.ft.count + 1)
             ∧ (s.sc.state = .stopping ∨ s.sc.state = .braking ∨ s.sc.state = .halted →
                 t.sc.state = s.sc.state ∧ t.sc.first = s.sc.first)
             ∧ (s.sc.state = .run → workingPhase t.te.phase = false)
             ∧ (s.sc.state = .run ∨ s.sc.state = .releasing →
                 t.sc.first = some
                   { kind := .peerSilent, origin := BitVec.ofNat 8 low, channel := 0, zone := 0, frame := s.ft.count + 1
                     met := s.sc.state }
                 ∧ t.sc.state = (if allAtRest s then .braking else .stopping)
                 ∧ (t.tk.stopSlot.map fun x => (x.body.kind, x.body.origin, x.repeats))
                     = some (.peerSilent, BitVec.ofNat 8 low, 3)
                 ∧ ∀ ch, isAxis s ch = true → (s.mo.get ch).mode ≠ .off →
                     (t.mo.get ch).mode = .hold ∧ (t.mo.get ch).hold = floorDiv (s.mo.get ch).p 256)))
      ∧ (s.ft.lock ≠ .free → t.ft.lock = .free →
          t.te.phase = .idle ∨ t.te.phase = .checking ∨ t.te.phase = .cueing)

/-! ## Trunk controller -/

/-- O32. The publish time makes a WAITING frame READY, the wheel timer places a WHEEL frame with the next sequence number and the
published wheel values and starts again, a transition on the quiet line begins a frame, and the 145th byte of a frame under way counts it
oversize; each changes nothing outside the trunk controller but the clock. A frame's start and its 145th byte given from outside are taken
as they are reported, whatever the line shows: the model's choice (log 53; R78, R80, R82). -/
def Obligations.SlotTimersAndFrames : Prop :=
  ∀ s : State,
    (∀ body time, s.tk.stateSlot = .waiting body time →
      ∃ t, exec .publishTimeExpiry s = .next t ∧ t = { s with clock := t.clock, tk := { s.tk with stateSlot := .ready body } }) ∧
    (∀ time, s.tk.wheelTimer = some time →
      ∃ t, exec .wheelTimerExpiry s = .next t
        ∧ (let value := fun ch => if isWheel s ch then publishedWheel (s.fb.get ch) else 0
           t = { s with
             clock := t.clock
             tk := { s.tk with
               wheelTimer := some (after time (s.cfg.wheelPeriod * 1000)), wheelSeq := s.tk.wheelSeq + 1
               wheelSlot := some (wheelBytes s.tk.wheelSeq { a := value .A, b := value .B, c := value .C }) } })) ∧
    (s.tk.quietAt.isSome = true →
      ∃ t, exec .frameStart s = .next t
        ∧ t = { s with
          tk := { s.tk with quietAt := none, rx := .gathering, lastTransition := t.tk.lastTransition } }
        ∧ (s.tk.heard = [] → t.tk.lastTransition = s.clock)) ∧
    (s.tk.rx = .gathering →
      ∃ t, exec .frameOversize s = .next t
        ∧ t = { s with
          tk := { s.tk with
            rx := .oversize, heard := []
            counters := { s.tk.counters with oversize := satIncr 65535 s.tk.counters.oversize } } })

/-- O33. A ready frame on a quiet line begins in the slot that equals its access gap, the class base plus the station number; it takes the
line with its stuffed bits, a STATE or WHEEL frame leaves its slot, the STOP body stays, and the quiet ends (that the command moves the
clock to that slot is the model's choice, log 3). A send succeeds exactly when the line reads back what the station drives; a collision
raises the collision counter, gives no sent notice and is not retried; an attempt at the body in the STOP slot uses one of its repeats, and
a body handed over meanwhile keeps its three. The sent notice of a STATE frame is a reading on the active desk alone: a command it would
adopt waits as the confirmed command, NONE with serial 0 empties that, and the next frame event hands it on within itself, a RELEASE to be
executed there, and empties it (R72, R73, R75, R76, R78, R81, R98, R99, R100, R102, R131, R132). -/
def Obligations.SendBeginsAtGap : Prop :=
  (∀ (cls : FrameClass) (quiet : Word) (body : List Byte) (s : State), s.tk.quietAt = some quiet →
      readyBody cls s.tk = some body → s.tk.flight = none →
      ∃ t, exec (.sendStart cls) s = .next t
        ∧ elapsed t.clock quiet % 128
            = (match cls with | .stop => 0 | .wheel => 32 | .state => 64) + s.su.station.toNat
        ∧ elapsed t.clock s.clock < 128
        ∧ (∃ f, t.tk.flight = some f ∧ f.cls = cls ∧ f.started = t.clock ∧ f.others = [] ∧ f.replaced = false
            ∧ f.bits = lineBits (envelope (kindByte cls) (stationByte s) body))
        ∧ t.tk.quietAt = none ∧ t.tk.rx = .deaf
        ∧ t.tk.stateSlot = (if cls = .state then .empty else s.tk.stateSlot)
        ∧ t.tk.wheelSlot = (if cls = .wheel then none else s.tk.wheelSlot)
        ∧ t.tk.stopSlot = s.tk.stopSlot ∧ t.tk.counters = s.tk.counters ∧ t.tk.stateSeq = s.tk.stateSeq
        ∧ t.sc = s.sc ∧ t.pt = s.pt ∧ t.mo = s.mo ∧ t.fb = s.fb ∧ t.te = s.te ∧ t.ts = s.ts) ∧
  (∀ (others : List Bool) (f : Flight) (s : State), s.tk.flight = some f →
      ∃ t, exec (.sendEnd others) s = .next t ∧ t.tk.flight = none
        ∧ (wired f.bits others = f.bits → t.tk.counters = s.tk.counters)
        ∧ (wired f.bits others ≠ f.bits →
            t.tk.counters = { s.tk.counters with collisions := satIncr 65535 s.tk.counters.collisions } ∧ t.pt = s.pt)
        ∧ (f.cls ≠ .state → t.pt = s.pt)
        ∧ (f.cls ≠ .stop ∨ f.replaced = true → t.tk.stopSlot = s.tk.stopSlot)
        ∧ (f.cls = .stop → f.replaced = false → ∀ x, s.tk.stopSlot = some x →
            t.tk.stopSlot = if x.repeats ≤ 1 then none else some { x with repeats := x.repeats - 1 })
        ∧ t.tk.stateSlot = s.tk.stateSlot ∧ t.tk.wheelSlot = s.tk.wheelSlot ∧ t.sc = s.sc ∧ t.mo = s.mo ∧ t.te = s.te
        ∧ t.ts = s.ts ∧ t.ft = s.ft
        ∧ (f.cls = .state → wired f.bits others = f.bits →
            (deskActive s = false → t.pt = s.pt)
            ∧ (deskActive s = true →
                (let none_ : Prop := f.desk.kind = 0 ∧ f.desk.serial = 0
                 let adopted : Prop := s.pt.earlier = some (f.seq - 1, f.desk)
                   ∧ 1 ≤ f.desk.kind.toNat ∧ f.desk.kind.toNat ≤ 10 ∧ 1 ≤ f.desk.serial.toNat ∧ f.desk.serial.toNat ≤ 15
                   ∧ f.desk.serial ≠ s.pt.adopted ∧ s.pt.join ≠ some f.desk.serial
                 t.pt = { s.pt with earlier := some (f.seq, f.desk), adopted := t.pt.adopted, confirmed := t.pt.confirmed }
                 ∧ (adopted → t.pt.confirmed = some f.desk ∧ t.pt.adopted = f.desk.serial)
                 ∧ (none_ → t.pt.confirmed = none ∧ t.pt.adopted = 0)
                 ∧ (¬adopted → ¬none_ → t.pt.confirmed = s.pt.confirmed ∧ t.pt.adopted = s.pt.adopted))))) ∧
  (∀ (time : Word) (c : DeskContent) (s : State), s.ft.deadline = some time → s.pt.confirmed = some c →
      ∃ t, exec .frameDeadlineExpiry s = .next t ∧ t.pt.confirmed = none ∧ t.sc.pendingRelease = false
        ∧ (1 ≤ c.kind.toNat → c.kind.toNat ≤ 8 → takeCapable s = true → t.te.serial = c.serial)
        ∧ (c.kind = 10 → (∀ n ∈ peerNumbers, requiredPeer s n = false) →
            (s.sc.state = .halted → persistingCause s = none →
              t.sc.state = .releasing ∧ t.sc.result = .released ∧ t.sc.releaseFrame = t.ft.count ∧ t.sc.first = none)
            ∧ (s.sc.state = .stopping ∨ s.sc.state = .braking ∨ s.sc.state = .releasing →
                t.sc.result = .refusedBusy ∧ t.sc.state = s.sc.state)
            ∧ (s.sc.state = .run → t.sc.result = .none ∧ t.sc.state = .run)))

/-- O34. A valid WHEEL frame of another station sets the source record of every AXIS channel bound to a channel of that station, when its
sequence is newer by 1 to 127 or the record has none: held value, sequence, FRESH and the staleness timer; it changes no other record. A
valid STOP frame whose serial is the remembered one of its source is ignored; any other is remembered, and from the release frame on it
raises PEER_STOP with the body's origin, channel and zone, which in RUN ramps the station to rest and is not sent on (R52, R84, R120, R121,
R127, R128). -/
def Obligations.WheelAndStopFrames : Prop :=
  ∀ (heard : List Bool) (s : State), started s = true → s.tk.quietAt = none → s.tk.flight = none → s.tk.rx = .gathering →
    (let b := gather heard
     let body := frameBody b
     b.length < 145 → failedCheck b = none → byteAt b 4 ≠ stationByte s →
     (byteAt b 2 = 2 →
       ∃ t, exec (.lineQuiet heard) s = .next t ∧ t.tk.counters = s.tk.counters ∧ t.mo = s.mo ∧ t.sc = s.sc ∧ t.pt = s.pt
        ∧ t.fb = s.fb ∧ t.rf = s.rf ∧ t.zm = s.zm ∧ t.te = s.te ∧ t.ft = s.ft
        ∧ ∀ ch,
          (let c := chanCfg s ch
           let old := s.bd.get ch
           let seq := byteAt body 0
           let bound : Prop := isAxis s ch = true ∧ c.bindKind ≠ .none ∧ c.srcStation = natAt b 4
           let newer : Prop := ∀ last, old.seq = some last → 1 ≤ (seq - last).toNat ∧ (seq - last).toNat ≤ 127
           (∀ k, bound → newer → Chan.ofNumber? c.srcChannel = some k →
             t.bd.get ch = { old with
               held := some (intAt body (4 * k.number - 3)), seq := some seq, fresh := true
               timer := some (after t.clock (c.wheelTimeout * 1000)) })
           ∧ (¬bound ∨ ¬newer → t.bd.get ch = old))) ∧
     (byteAt b 2 = 3 →
       ∃ t, exec (.lineQuiet heard) s = .next t ∧ t.tk.counters = s.tk.counters ∧ t.pt = s.pt ∧ t.bd = s.bd ∧ t.zm = s.zm
        ∧ t.ft = s.ft ∧ t.tk.stopSlot = s.tk.stopSlot ∧ t.sc.stopSerial = s.sc.stopSerial
        ∧ (let serial := byteAt body 8
           let place := natAt b 4 - 1
           let known : Prop := s.sc.remembered.getD place none = some serial
           (known → t.sc = s.sc ∧ t.mo = s.mo ∧ t.te = s.te)
           ∧ (¬known → t.sc.remembered = s.sc.remembered.set place (some serial))
           ∧ (¬known → (word32At body 4).toNat < s.sc.releaseFrame.toNat →
               t.sc = { s.sc with remembered := t.sc.remembered } ∧ t.mo = s.mo ∧ t.te = s.te)
           ∧ (¬known → s.sc.releaseFrame.toNat ≤ (word32At body 4).toNat →
               t.sc.last = some
                 { kind := .peerStop, origin := byteAt body 0, channel := byteAt body 2, zone := byteAt body 3
                   frame := s.ft.count, met := s.sc.state }
               ∧ t.sc.causes = satIncr 255 s.sc.causes
               ∧ (s.sc.state = .run → t.sc.first = t.sc.last ∧ workingPhase t.te.phase = false
                   ∧ t.sc.state = (if allAtRest s then .braking else .stopping)
                   ∧ ∀ ch, isAxis s ch = true → (s.mo.get ch).mode ≠ .off →
                       (t.mo.get ch).mode = .hold ∧ (t.mo.get ch).hold = floorDiv (s.mo.get ch).p 256)))))

/-- O35. What one station drives another gathers: the stuffed bits of any bytes, followed by any number of recessive bit times, give back those
bytes, and a STATE, WHEEL or STOP frame of a station 1 to 30 passes every check and gives back its kind, its source and its body. A STATE body
of 123 bytes reads back as it was built: count, capability, stop state, presence, take report, desk command and channel records. That the
recessive bit times behind a frame are not its own is log 8, and that a stuffing bit counts in the next run is log 9 (both DEDUCED;
R71, R77, R82, R83, R181, sections 12.4.1 and 12.4.2). -/
def Obligations.FramesSurviveTheLine : Prop :=
  (∀ (bytes : List Byte) (n : Nat), gather (lineBits bytes ++ List.replicate n true) = bytes) ∧
  (∀ (cls : FrameClass) (source : Byte) (body : List Byte) (n : Nat), 1 ≤ source.toNat → source.toNat ≤ 30 →
    body.length = (match cls with | .state => 123 | .wheel => 13 | .stop => 9) →
    let b := gather (lineBits (envelope (kindByte cls) source body) ++ List.replicate n true)
    failedCheck b = none ∧ byteAt b 2 = kindByte cls ∧ byteAt b 4 = source ∧ frameBody b = body) ∧
  (∀ (body : StateBody), (∀ ch, -2 ^ 31 ≤ (body.chans.get ch).position ∧ (body.chans.get ch).position < 2 ^ 31
      ∧ -2 ^ 31 ≤ (body.chans.get ch).velocity ∧ (body.chans.get ch).velocity < 2 ^ 31 ∧ (body.chans.get ch).sd < 2 ^ 32) →
    (let b := stateBytes body
     b.length = 123 ∧ byteAt b 0 = body.seq ∧ bodyCount b = body.count ∧ bodyCapable b = body.capable
     ∧ (bodyStopped b = true ↔ body.stop.state = .stopping ∨ body.stop.state = .braking ∨ body.stop.state = .halted)
     ∧ (∀ k, k < 4 → bodyPresence b (k + 1) = body.presence.getLsbD k)
     ∧ bodyDesk b = body.desk
     ∧ peerReport b =
         { stop := codeStop body.stop.state, phase := codePhase body.phase, take := nat8 body.take
           length := BitVec.ofNat 16 body.length, result := codeResult body.result, fault := codeFault body.fault
           spoiled := body.spoiled, holdover := body.holdover, serial := body.serial }
     ∧ ∀ ch,
        (let r := body.chans.get ch
         (bodyReferenced b ch.number = true ↔ r.ref = .referenced)
         ∧ bodyMotion b ch.number = (r.position, r.velocity, (r.sd : Int)))))

/-- O36. 4 µs after the last transition the line is declared quiet; a command that comes before that time moves the clock to it (log 3). A
frame under reception then ends, the one whose line levels the command carries (log 53): one that fails a check raises the counter of the
first it fails by one and nothing else but the quiet, in the order framing, CRC, kind, length, source; one of 145 bytes or more raises the
oversize counter alone; one with this station's own number is recorded as DUPLICATE_STATION and opens the 64-frame window; with no frame
under reception the quiet alone is declared (R72, R82, R83, R86, R130). -/
def Obligations.QuietEndsTheFrame : Prop :=
  ∀ (heard : List Bool) (s : State), started s = true → s.tk.quietAt = none → s.tk.flight = none →
    ∃ t, exec (.lineQuiet heard) s = .next t ∧ t.tk.quietAt = some t.clock ∧ t.tk.rx = .idle ∧ t.tk.heard = []
      ∧ (let quiet := after s.tk.lastTransition 4
         (reached s.clock quiet = false → t.clock = quiet) ∧ (reached s.clock quiet = true → t.clock = s.clock))
      ∧ (let quietWith := fun (counters : Counters) =>
           { s with
             clock := t.clock
             tk := { s.tk with quietAt := some t.clock, rx := .idle, heard := [], counters := counters } }
         (s.tk.rx ≠ .gathering → t = quietWith s.tk.counters)
         ∧ (s.tk.rx = .gathering → 145 ≤ (gather heard).length →
             t = quietWith { s.tk.counters with oversize := satIncr 65535 s.tk.counters.oversize })
         ∧ (s.tk.rx = .gathering → (gather heard).length < 145 → ∀ d, failedCheck (gather heard) = some d →
             t = quietWith (countDiscard d s.tk.counters))
         ∧ (s.tk.rx = .gathering → (gather heard).length < 145 →
             (let b := gather heard
              let n := b.length
              let counters := s.tk.counters
              let kind := (byteAt b 2).toNat
              let size := if kind = 1 then 123 else if kind = 2 then 13 else 9
              let framing : Prop := n < 7 ∨ byteAt b 0 ≠ 0x35 ∨ byteAt b 1 ≠ 0xCA
              let crc : Prop := crc16 ((b.drop 2).take (n - 4)) ≠ byteAt b (n - 2) ++ byteAt b (n - 1)
              let noKind : Prop := kind = 0 ∨ 4 ≤ kind
              let length : Prop := (byteAt b 3).toNat ≠ size ∨ n ≠ 7 + size
              let source : Prop := (byteAt b 4).toNat = 0 ∨ 31 ≤ (byteAt b 4).toNat
              (framing → t = quietWith { counters with framing := satIncr 65535 counters.framing })
              ∧ (¬framing → crc → t = quietWith { counters with crc := satIncr 65535 counters.crc })
              ∧ (¬framing → ¬crc → noKind → t = quietWith { counters with kind := satIncr 65535 counters.kind })
              ∧ (¬framing → ¬crc → ¬noKind → length →
                  t = quietWith { counters with length := satIncr 65535 counters.length })
              ∧ (¬framing → ¬crc → ¬noKind → ¬length → source →
                  t = quietWith { counters with source := satIncr 65535 counters.source })
              ∧ (¬framing → ¬crc → ¬noKind → ¬length → ¬source → failedCheck b = none))))
      ∧ (s.tk.rx = .gathering → (gather heard).length < 145 →
          failedCheck (gather heard) = none → byteAt (gather heard) 4 = stationByte s →
          t.sc.dupWindow = 64 ∧ t.tk.counters = s.tk.counters ∧ t.pt = s.pt ∧ t.bd = s.bd ∧ t.zm = s.zm ∧ t.ft = s.ft
            ∧ (t.sc.last.map fun r => (r.kind, r.origin)) = some (.duplicateStation, stationByte s)
            ∧ t.sc.causes = satIncr 255 s.sc.causes)

/-! ## Peer table -/

/-- O37. A valid STATE frame of another station makes its record FRESH at age 0 with the frame's sequence and body, raises the gap count by
the sequence numbers missed when they are 1 to 126, and leaves every other record as it was (R84, R91). -/
def Obligations.StateFrameRefreshesRecord : Prop :=
  ∀ (heard : List Bool) (n : Nat) (s : State), started s = true → s.tk.quietAt = none → s.tk.flight = none →
    s.tk.rx = .gathering → s.pt.peers.length = 30 →
    (let b := gather heard
     b.length < 145 → failedCheck b = none → byteAt b 2 = 1 → byteAt b 4 ≠ stationByte s → n = natAt b 4 →
     ∃ t, exec (.lineQuiet heard) s = .next t
      ∧ (let r := peerRecord s n
         let r' := peerRecord t n
         r'.freshness = .fresh ∧ r'.age = 0 ∧ r'.seq = some (byteAt (frameBody b) 0) ∧ r'.content = some (frameBody b)
         ∧ (r.seq = none → r'.gaps = r.gaps)
         ∧ (∀ last, r.seq = some last →
             let d := (byteAt (frameBody b) 0 - last).toNat
             (2 ≤ d → d ≤ 127 → r'.gaps = min 65535 (r.gaps + (d - 1))) ∧ (d < 2 ∨ 127 < d → r'.gaps = r.gaps)))
      ∧ (∀ k ∈ peerNumbers, k ≠ n → peerRecord t k = peerRecord s k)
      ∧ t.tk.counters = s.tk.counters)

/-- O38. A desk command is adopted exactly from two readings with consecutive sequence numbers and equal contents, of a command kind with a
serial from 1 to 15 that is neither the adopted serial nor the join serial; its serial is then the adopted one, so that no later reading of
the same serial is adopted until another command or a reading of NONE with serial 0. An arrival that finds the record ABSENT sets the join
serial, and a later one of another serial empties it. A station without a valid image or with desk field 0 executes none of the ten commands
(R98, R99, R100, R101). -/
def Obligations.AdoptionNeedsAPair : Prop :=
  (∀ (seq : Byte) (c : DeskContent) (pt : PeerTable),
    (adopts seq c pt = true ↔
      (∃ e, pt.earlier = some e ∧ seq = e.1 + 1 ∧ c = e.2) ∧ 1 ≤ c.kind.toNat ∧ c.kind.toNat ≤ 10
        ∧ 1 ≤ c.serial.toNat ∧ c.serial.toNat ≤ 15 ∧ c.serial ≠ pt.adopted ∧ pt.join ≠ some c.serial)
    ∧ (adopts seq c pt = true →
        (rememberReading seq c pt).adopted = c.serial
        ∧ ∀ seq' c', c'.serial = c.serial → adopts seq' c' (rememberReading seq c pt) = false)
    ∧ ((rememberReading seq c pt).earlier = some (seq, c))
    ∧ (adopts seq c pt = false →
        (rememberReading seq c pt).adopted = if c.kind = 0 ∧ c.serial = 0 then 0 else pt.adopted)) ∧
  (∀ (c : DeskContent) (join : Option Byte),
    (1 ≤ c.kind.toNat → c.kind.toNat ≤ 10 → 1 ≤ c.serial.toNat → c.serial.toNat ≤ 15 → joinAfter true c join = some c.serial)
    ∧ (c.kind = 0 ∨ 10 < c.kind.toNat ∨ c.serial = 0 ∨ 15 < c.serial.toNat → joinAfter true c join = none)
    ∧ (join = some c.serial → joinAfter false c join = join) ∧ (join ≠ some c.serial → joinAfter false c join = none)) ∧
  (∀ s : State, (executesDesk s = true ↔ s.su.phase = .done ∧ s.su.validity = .valid ∧ s.cfg.desk ≠ 0)
    ∧ (executesDesk s = false → ∀ (serial take : Byte) (start : Word) (rate length : BitVec 16),
        ∀ c ∈ [Instr.record serial take start, .endTake serial, .cue serial take, .run serial take start rate length,
          .abort serial, .erase serial take, .protect serial take, .live serial, .reference, .release],
        exec c s = .next s))

/-- O39. What a valid STATE frame of another station gives beside its record. Every zone of a line of that station reads the line: OCCUPIED
arms it; a CLEAR not consecutive with the frame before arms it and marks it; a first consecutive CLEAR marks it; a second starts the hold of
an ARMED one. A published STOPPING, BRAKING or HALTED from the release frame on raises PEER_STOP with the first-cause origin published, or
the source, of the desk as of any other station. A frame of the desk is an alignment reading, whose confirmed correction moves count and
release frame to the desk's, and a reading of its desk command, for which the join serial, the earlier content and the adopted serial follow.
A correction, and a lost lock, end the take work, its start frame then none (log 37; R68, R69, R92, R99, R100, R101, R107, R129, R131, R168, R169). -/
def Obligations.StateArrivalNotices : Prop :=
  (∀ (heard : List Bool) (s : State), started s = true → s.tk.quietAt = none → s.tk.flight = none → s.tk.rx = .gathering →
    (let b := gather heard
     let body := frameBody b
     let n := natAt b 4
     let seq := byteAt body 0
     let count := word32At body 1
     let c := bodyDesk body
     let inSequence : Prop := (peerRecord s n).seq = some (seq - 1)
     b.length < 145 → failedCheck b = none → byteAt b 2 = 1 → byteAt b 4 ≠ stationByte s →
     ∃ t, exec (.lineQuiet heard) s = .next t ∧ (∀ ch, (t.fb.get ch).x = (s.fb.get ch).x) ∧ t.bd = s.bd
      ∧ t.zm.caps = s.zm.caps ∧ t.zm.presence = s.zm.presence ∧ t.zm.zones.length = s.zm.zones.length
      ∧ (∀ (k : Nat) (z z' : Zone), s.zm.zones[k]? = some z → t.zm.zones[k]? = some z' →
          (∀ line, z.cfg.source = .line n line →
            (let occupied := (byteAt body 14).getLsbD (line - 1)
             (occupied = true → z' = { z with arming := .armed, timer := none, mark := false })
             ∧ (occupied = false → ¬inSequence → z' = { z with arming := .armed, timer := none, mark := true })
             ∧ (occupied = false → inSequence → z.mark = false → z' = { z with mark := true })
             ∧ (occupied = false → inSequence → z.mark = true → z.arming = .armed →
                 z' = { z with arming := .holding, timer := some (after t.clock (z.cfg.clearHold * 1000)) })
             ∧ (occupied = false → inSequence → z.mark = true → z.arming ≠ .armed → z' = z)))
          ∧ ((∀ line, z.cfg.source ≠ .line n line) → z' = z))
      ∧ (fromDesk s n = false → t.ft = s.ft ∧ t.ts.slots = s.ts.slots
          ∧ t.pt = { s.pt with peers := t.pt.peers }
          ∧ (let stopped : Prop := byteAt body 6 = 1 ∨ byteAt body 6 = 2 ∨ byteAt body 6 = 3
             (stopped → s.sc.releaseFrame.toNat ≤ count.toNat →
               t.sc.last = some
                 { kind := .peerStop, origin := if byteAt body 8 = 0 then byteAt b 4 else byteAt body 8, channel := 0, zone := 0
                   frame := s.ft.count, met := s.sc.state }
               ∧ t.sc.causes = satIncr 255 s.sc.causes ∧ t.tk.stopSlot = s.tk.stopSlot
               ∧ (s.sc.state = .run → t.sc.state = (if allAtRest s then .braking else .stopping)
                   ∧ workingPhase t.te.phase = false))
             ∧ (¬stopped ∨ count.toNat < s.sc.releaseFrame.toNat →
                 t.sc = s.sc ∧ t.mo = s.mo ∧ t.rf = s.rf ∧ t.te = s.te ∧ t.ts = s.ts)))
      ∧ (fromDesk s n = true →
          (let d := count - s.ft.count
           let confirmed : Prop := s.ft.reading = some (seq - 1, d)
           let join := joinAfter (decide ((peerRecord s n).freshness = .absent)) c s.pt.join
           let adopted := adopts seq c { s.pt with join := join }
           (d = 0 → t.ft = { s.ft with aligned := true, reading := some (seq, 0) } ∧ t.sc.releaseFrame = s.sc.releaseFrame)
           ∧ (d ≠ 0 → confirmed → t.ft = { s.ft with count := count, aligned := true, reading := none }
               ∧ t.sc.releaseFrame = count
               ∧ (adopted = false → t.te.phase = .idle ∨ t.te.phase = .checking ∨ t.te.phase = .cueing))
           ∧ (d ≠ 0 → ¬confirmed → t.ft = { s.ft with aligned := false, reading := some (seq, d) }
               ∧ t.sc.releaseFrame = s.sc.releaseFrame)
           ∧ t.pt.join = join ∧ t.pt.earlier = some (seq, c) ∧ t.pt.confirmed = s.pt.confirmed
           ∧ t.pt.adopted = (if adopted then c.serial else if c.kind = 0 ∧ c.serial = 0 then 0 else s.pt.adopted)
           ∧ (adopted = true → c.kind = 10 → t.sc.pendingRelease = true)
           ∧ (adopted = false ∨ c.kind ≠ 10 → t.sc.pendingRelease = s.sc.pendingRelease)
           ∧ (adopted = true → c.kind.toNat ≤ 8 → takeCapable s = true → t.te.serial = c.serial)
           ∧ (adopted = false → t.te.serial = s.te.serial)
           ∧ (let stopped : Prop := byteAt body 6 = 1 ∨ byteAt body 6 = 2 ∨ byteAt body 6 = 3
              (stopped → s.sc.releaseFrame.toNat ≤ count.toNat →
                (t.sc.last.map fun r => (r.kind, r.origin, r.channel, r.zone, r.met))
                  = some (.peerStop, if byteAt body 8 = 0 then byteAt b 4 else byteAt body 8, 0, 0, s.sc.state)
                ∧ t.sc.causes = satIncr 255 s.sc.causes ∧ t.tk.stopSlot = s.tk.stopSlot
                ∧ (s.sc.state = .run → t.sc.first = t.sc.last ∧ t.sc.state = (if allAtRest s then .braking else .stopping)
                    ∧ workingPhase t.te.phase = false
                    ∧ ∀ ch, isAxis s ch = true → (s.mo.get ch).mode ≠ .off →
                        (t.mo.get ch).mode = .hold ∧ (t.mo.get ch).hold = floorDiv (s.mo.get ch).p 256)
                ∧ (s.sc.state = .stopping ∨ s.sc.state = .braking ∨ s.sc.state = .halted →
                    t.sc.first = s.sc.first ∧ t.sc.state = s.sc.state))
              ∧ (¬stopped ∨ (count.toNat < s.sc.releaseFrame.toNat ∧ (d = 0 ∨ ¬confirmed)) →
                  t.sc.last = s.sc.last ∧ t.sc.first = s.sc.first ∧ t.sc.causes = s.sc.causes ∧ t.sc.state = s.sc.state)))))) ∧
  (∀ (fault : TakeFault) (s : State),
    (let t := loseTake fault s
     let ends : Prop := s.te.phase = .armedRec ∨ s.te.phase = .recording ∨ s.te.phase = .cued ∨ s.te.phase = .playing
     (¬ends → t = s)
     ∧ (ends → t.te.phase = .idle ∧ t.te.result = .aborted ∧ t.te.fault = fault ∧ t.te.start = none ∧ t.te.liveHeld = false
         ∧ t.sc = s.sc ∧ t.rf = s.rf ∧ t.ts.slots = s.ts.slots
         ∧ t.ts.dir = (if s.te.phase = .recording then
             s.ts.dir.map (fun e => if e.status = .recording then { e with status := .interrupted } else e) else s.ts.dir))
     ∧ (s.te.phase = .armedRec ∨ s.te.phase = .recording → t.mo = s.mo)
     ∧ (s.te.phase = .cued ∨ s.te.phase = .playing → s.sc.state = .run →
         ∀ ch, t.mo.get ch =
           if isAxis s ch = true ∧ (s.mo.get ch).mode ≠ .off ∧ (s.mo.get ch).mode ≠ .ref then
             { s.mo.get ch with mode := .hold, hold := floorDiv (s.mo.get ch).p 256 }
           else s.mo.get ch)
     ∧ lockNotice .free s = loseTake .lockLost s
     ∧ (ends → lockNotice .holdover s = { s with te := { s.te with holdover := true } })
     ∧ (¬ends → lockNotice .holdover s = s) ∧ lockNotice .locked s = s ∧ lockNotice .locking s = s))

/-! ## Zone monitor -/

/-- O40. The status of a term: INSIDE, REACHABLE or CLEAR by its interval and the reach on the side of the motion, UNKNOWN without inputs;
and the status of a zone from its arming state and the statuses of its terms, as the table of R113 gives it (R112, R113). -/
def Obligations.TermAndZoneStatus : Prop :=
  ((∀ lo hi pos v sd : Int, lo ≤ hi → 0 ≤ sd →
      (let shared : Prop := ∃ k, lo ≤ k ∧ k ≤ hi ∧
         ((0 < v ∧ pos ≤ k ∧ k ≤ pos + sd) ∨ (v < 0 ∧ pos - sd ≤ k ∧ k ≤ pos) ∨ (v = 0 ∧ k = pos))
       (statusOfInputs lo hi pos v sd = .inside ↔ lo ≤ pos ∧ pos ≤ hi)
       ∧ (statusOfInputs lo hi pos v sd = .reachable ↔ ¬(lo ≤ pos ∧ pos ≤ hi) ∧ shared)
       ∧ (statusOfInputs lo hi pos v sd = .clear ↔ ¬(lo ≤ pos ∧ pos ≤ hi) ∧ ¬shared)
       ∧ (pos < lo → v ≤ 0 → statusOfInputs lo hi pos v sd = .clear)
       ∧ (hi < pos → 0 ≤ v → statusOfInputs lo hi pos v sd = .clear))) ∧
    (∀ (s : State) (t : Term), (termInputs s t = none → termStatus s t = .unknown)
      ∧ ∀ pos v sd, termInputs s t = some (pos, v, sd) → termStatus s t = statusOfInputs t.lo t.hi pos v sd)) ∧
  (∀ (s : State) (z : Zone),
      (let armed : Prop := z.arming ≠ .disarmed
       let allInside : Prop := ∀ t ∈ z.cfg.terms, termStatus s t = .inside
       let someClear : Prop := ∃ t ∈ z.cfg.terms, termStatus s t = .clear
       (zoneStatus s z = .idle ↔ ¬armed)
       ∧ (zoneStatus s z = .entered ↔ armed ∧ allInside)
       ∧ (zoneStatus s z = .threatened ↔ armed ∧ ¬someClear ∧ ¬allInside)
       ∧ (zoneStatus s z = .clear ↔ armed ∧ someClear)
       ∧ (armed → z.cfg.terms ≠ [] → (∀ t ∈ z.cfg.terms, termStatus s t = .unknown) → zoneStatus s z = .threatened)))

/-- O41. A filtered change of a presence line is taken by every zone that the local line arms: occupied arms it and stops its hold, clear
starts the hold of an ARMED one; the expiry of a hold disarms its zone alone (R105, R106). -/
def Obligations.PresenceArmsZones : Prop :=
  ∀ s : State,
    (∀ (line : Fin 4) (occupied : Bool), s.su.phase ≠ .held → s.zm.presence.length = 4 →
      (s.zm.presence.getD line.val ⟨true, 0⟩).level ≠ occupied →
      ∃ t, exec (.presenceFilteredChange line occupied) s = .next t
        ∧ (t.zm.presence.getD line.val ⟨true, 0⟩).level = occupied
        ∧ (∀ k, k ≠ line.val → t.zm.presence.getD k ⟨true, 0⟩ = s.zm.presence.getD k ⟨true, 0⟩)
        ∧ t.zm.zones = s.zm.zones.map (fun z =>
            if z.cfg.source = .line s.su.station.toNat (line.val + 1) then
              if occupied then { z with arming := .armed, timer := none }
              else if z.arming = .armed then
                { z with arming := .holding, timer := some (after s.clock (z.cfg.clearHold * 1000)) }
              else z
            else z)
        ∧ t.zm.caps = s.zm.caps ∧ t.sc = s.sc ∧ t.mo = s.mo ∧ t.te = s.te ∧ t.clock = s.clock) ∧
    (∀ (zone : Nat) (time : Word), holdTimer s zone = some time →
      ∃ t, exec (.clearHoldExpiry zone) s = .next t
        ∧ t.zm.zones = s.zm.zones.map (fun z =>
            if z.cfg.id = zone then { z with arming := .disarmed, timer := none } else z)
        ∧ t.zm.caps = s.zm.caps ∧ t.zm.presence = s.zm.presence ∧ t.sc = s.sc ∧ t.mo = s.mo ∧ t.te = s.te)

/-- O42. A scan first arms each zone whose source is a line of another station that is not FRESH, then writes the status of every zone and
the cap of every channel: the least cap of the zones that act on it and are THREATENED or ENTERED, or 100. Each KEEP_OUT zone newly ENTERED
raises ZONE_BREACH with its id, in ascending order of id: the count rises by one for each, the last record names the highest id, the first one
met in RUN or RELEASING and the STOP body the lowest, and the station is left in neither of the two; a scan that finds none changes no other
block but the clock. The inputs of a channel cut since its last update are log 42 (R108, R110, R113, R114, R115). -/
def Obligations.ScanWritesStatusesAndCaps : Prop :=
  ∀ (time : Word) (s : State), s.zm.nextScan = some time →
    ∃ t, exec .zoneScan s = .next t ∧ t.zm.nextScan = some (after time 1000) ∧ t.zm.presence = s.zm.presence
      ∧ (let silent : Zone → Bool := fun z => match z.cfg.source with
           | .always => false
           | .line st _ => st ≠ s.su.station.toNat && (peerRecord s st).freshness ≠ .fresh
         let armed := s.zm.zones.map fun z =>
           if silent z then { z with arming := .armed, timer := none, mark := false } else z
         t.zm.zones = armed.map (fun z => { z with status := zoneStatus s z })
         ∧ (∀ ch,
             (∀ z ∈ t.zm.zones, capping z = true → z.cfg.actsOn.get ch = true → t.zm.caps.get ch ≤ z.cfg.cap)
             ∧ (t.zm.caps.get ch = 100
                 ∨ ∃ z ∈ t.zm.zones, capping z = true ∧ z.cfg.actsOn.get ch = true ∧ t.zm.caps.get ch = z.cfg.cap))
         ∧ ((∃ z ∈ armed, z.cfg.keepOut = true ∧ zoneStatus s z = .entered ∧ z.status ≠ .entered) →
             underWay t.sc.state = false
               ∧ (t.sc.last.map fun r => (r.kind, r.origin)) = some (.zoneBreach, stationByte s))
         ∧ (let found := armed.filter fun z => z.cfg.keepOut && zoneStatus s z = .entered && z.status ≠ .entered
            (s.sc.causes ≤ 255 → t.sc.causes = min 255 (s.sc.causes + found.length))
            ∧ (∀ low ∈ found, ∀ high ∈ found, (∀ z ∈ found, low.cfg.id ≤ z.cfg.id ∧ z.cfg.id ≤ high.cfg.id) →
                (t.sc.last.map fun r => (r.kind, r.origin, r.channel, r.zone, r.frame))
                  = some (.zoneBreach, stationByte s, 0, BitVec.ofNat 8 high.cfg.id, s.ft.count)
                ∧ (underWay s.sc.state = true →
                    t.sc.first = some
                      { kind := .zoneBreach, origin := stationByte s, channel := 0, zone := BitVec.ofNat 8 low.cfg.id
                        frame := s.ft.count, met := s.sc.state }
                    ∧ t.sc.state = (if allAtRest s then .braking else .stopping)
                    ∧ t.sc.stopSerial = s.sc.stopSerial + 1
                    ∧ t.tk.stopSlot = some
                        { body :=
                            { origin := stationByte s, kind := .zoneBreach, channel := 0, zone := BitVec.ofNat 8 low.cfg.id
                              frame := s.ft.count, serial := s.sc.stopSerial }
                          repeats := 3 })
                ∧ (underWay s.sc.state = false →
                    t.sc.first = s.sc.first ∧ t.sc.state = s.sc.state ∧ t.sc.stopSerial = s.sc.stopSerial ∧ t.tk = s.tk)))
         ∧ ((∀ z ∈ armed, z.cfg.keepOut = true → zoneStatus s z = .entered → z.status = .entered) →
             t = { s with clock := t.clock, zm := t.zm }))

/-! ## Stop controller -/

/-- O43. The expiries of the stop, brake and release timers: STOP_TIMEOUT cuts the drives and leaves the first-cause record; brake_engage
ends HALTED with every AXIS channel OFF; brake_release ends in RUN, where the bound REFERENCED channels go LIVE and no other channel's
mode changes (R55, R121, R122, R123, R133). -/
def Obligations.StopTimersExpire : Prop :=
  ∀ (time : Word) (s : State),
    (s.sc.stopTimer = some time → s.sc.state = .stopping →
      ∃ t, exec .stopTimerExpiry s = .next t ∧ t.sc.state = .braking ∧ t.sc.brakeReleased = false ∧ t.sc.stopTimer = none
        ∧ t.sc.brakeTimer = some (after t.clock (s.cfg.brakeEngage * 1000)) ∧ t.sc.first = s.sc.first
        ∧ (t.sc.last.map fun r => (r.kind, r.origin, r.met)) = some (.stopTimeout, stationByte s, .stopping)
        ∧ t.sc.causes = satIncr 255 s.sc.causes ∧ t.sc.stopSerial = s.sc.stopSerial ∧ t.tk = s.tk
        ∧ (∀ ch, isAxis s ch = true → (t.mo.get ch).mode = .off) ∧ (∀ ch, (t.fb.get ch).x = (s.fb.get ch).x)) ∧
    (s.sc.brakeTimer = some time → s.sc.state = .braking →
      ∃ t, exec .brakeTimerExpiry s = .next t
        ∧ t.sc = { s.sc with state := .halted, stopTimer := none, brakeTimer := none, releaseTimer := none }
        ∧ (∀ ch, (isAxis s ch = true → (t.mo.get ch).mode = .off) ∧ drvEn t ch = false) ∧ t.tk = s.tk ∧ t.te = s.te
        ∧ t.rf = s.rf ∧ t.fb = s.fb) ∧
    (s.sc.releaseTimer = some time → s.sc.state = .releasing →
      ∃ t, exec .releaseTimerExpiry s = .next t
        ∧ t.sc = { s.sc with state := .run, stopTimer := none, brakeTimer := none, releaseTimer := none }
        ∧ (∀ ch, t.mo.get ch =
            if isAxis s ch = true ∧ (chanCfg s ch).bindKind ≠ .none ∧ referenced s ch = true
                ∧ ((s.mo.get ch).mode = .hold ∨ (s.mo.get ch).mode = .live)
            then { s.mo.get ch with mode := .live } else s.mo.get ch)
        ∧ t.tk = s.tk ∧ t.te = s.te ∧ t.rf = s.rf ∧ t.fb = s.fb)

/-- O44. A chain that opens in RUN cuts the drives at once, one that closes changes its filtered level and the raw line, which the model sets to
the level each of these commands reports (log 4), and nothing else; a press of STOP, a change from
RELEASED, on the active desk in RUN ramps every AXIS channel to rest in HOLD, or ends in BRAKING at once when all are at rest. Each cause
fills both records with the own frame count, puts a STOP body with the next stop serial in the slot for three attempts, and ends the take
work; with the button PRESSED already there is no press (R118, R120, R121, R122, R125, R126, R127, R167, R170). -/
def Obligations.ChainAndStopButton : Prop :=
  ∀ s : State,
    (let rec_ : CauseKind → CauseRec := fun k =>
       { kind := k, origin := stationByte s, channel := 0, zone := 0, frame := s.ft.count, met := .run }
     let body : CauseKind → StopBody := fun k =>
       { origin := stationByte s, kind := k, channel := 0, zone := 0, frame := s.ft.count, serial := s.sc.stopSerial }
     (s.su.phase ≠ .held → s.sc.estop.level = true → s.sc.state = .run →
       ∃ t, exec (.estopFilteredChange false) s = .next t ∧ t.sc.estop.level = false ∧ t.sc.state = .braking
         ∧ t.sc.brakeReleased = false ∧ t.sc.first = some (rec_ .estopChain) ∧ t.sc.last = some (rec_ .estopChain)
         ∧ t.tk.stopSlot = some { body := body .estopChain, repeats := 3 } ∧ t.sc.stopSerial = s.sc.stopSerial + 1
         ∧ (∀ ch, isAxis s ch = true → (t.mo.get ch).mode = .off) ∧ workingPhase t.te.phase = false
         ∧ t = { s with
           lines := { s.lines with estop := false }
           fb := t.fb, mo := t.mo, rf := t.rf, sc := t.sc, tk := t.tk, ts := t.ts, te := t.te, dk := t.dk }) ∧
     (s.su.phase ≠ .held → s.sc.estop.level = false →
       exec (.estopFilteredChange true) s
         = .next { s with sc := { s.sc with estop := { level := true, run := 0 } }, lines := { s.lines with estop := true } }) ∧
     (deskActive s = true → pressed 9 s = true → exec .stopButtonPress s = .next s) ∧
     (deskActive s = true → pressed 9 s = false → s.sc.state = .run →
       ∃ t, exec .stopButtonPress s = .next t
         ∧ t.sc.state = (if allAtRest s then .braking else .stopping) ∧ t.sc.brakeReleased = (!allAtRest s && s.sc.brakeReleased)
         ∧ t.sc.first = some (rec_ .deskStop) ∧ t.sc.last = some (rec_ .deskStop)
         ∧ t.tk.stopSlot = some { body := body .deskStop, repeats := 3 } ∧ t.sc.stopSerial = s.sc.stopSerial + 1
         ∧ (∀ ch, isAxis s ch = true → (s.mo.get ch).mode ≠ .off →
             (t.mo.get ch).mode = .hold ∧ (t.mo.get ch).hold = floorDiv (s.mo.get ch).p 256
               ∧ (t.mo.get ch).v = (s.mo.get ch).v ∧ (t.mo.get ch).p = (s.mo.get ch).p)
         ∧ workingPhase t.te.phase = false
         ∧ (∀ k, k ≠ 9 → t.lines.buttons.getLsbD k = s.lines.buttons.getLsbD k) ∧ t.lines.buttons.getLsbD 9 = false
         ∧ t = { s with
           lines := { s.lines with buttons := t.lines.buttons }
           fb := t.fb, mo := t.mo, rf := t.rf, sc := t.sc, tk := t.tk, ts := t.ts, te := t.te
           dk := { s.dk with
             buttons := s.dk.buttons.set 9 ⟨true, 0⟩
             lamps := { s.dk.lamps with stopped := true } } }))

/-- O45. RELEASE is held until the next frame event, an arrival of FREF or an expiry of the deadline, which with a pending release acts as
executeRelease on the state with the count risen and the duplicate window one lower, and leaves none pending. It acts by the stop state: in
HALTED it is refused with the first persisting cause in the order of R132's table, or enters RELEASING with empty records, the release frame
at the own count, the brakes released and every AXIS channel held where it stands; in STOPPING, BRAKING and RELEASING it is refused as busy,
and in RUN the result is NONE. A station that executes no desk command takes none. That an ENTERED KEEP_OUT zone is read by its status alone
is log 12, DEDUCED from R116; the frame event is the one with no command confirmed beside it, whose required peers stay FRESH (R98, R116,
R130, R131, R132, R133). -/
def Obligations.ReleaseActsByStopState : Prop :=
  ∀ s : State,
    (executesDesk s = true → exec .release s = .next { s with sc := { s.sc with pendingRelease := true } }) ∧
    (executesDesk s = false → exec .release s = .next s) ∧
    (∀ c : Instr,
      (c = .frefArrival ∧ started s = true ∧ validImage s = true ∧ isGlitch s = false)
        ∨ (c = .frameDeadlineExpiry ∧ s.ft.deadline.isSome = true) →
      s.sc.pendingRelease = true → s.pt.confirmed = none →
      ∃ t, exec c s = .next t ∧ t.ft.count = s.ft.count + 1 ∧ t.sc.pendingRelease = false
        ∧ ((∀ n ∈ peerNumbers, requiredPeer s n = true → (peerRecord t n).freshness = .fresh) →
            (let u := executeRelease { s with
               clock := t.clock, ft := t.ft
               sc := { s.sc with pendingRelease := false, dupWindow := s.sc.dupWindow - 1 } }
             t.sc = u.sc ∧ (s.te.phase = .idle → t.mo = u.mo ∧ t.dk = u.dk ∧ t.te = u.te)))) ∧
    (let t := executeRelease s
     (s.sc.state = .halted → ∀ kind, persistingCause s = some kind →
       t = { s with sc := { s.sc with result := .refusedCause, resultCause := some kind } }) ∧
     (s.sc.state = .halted → persistingCause s = none →
       t.sc.state = .releasing ∧ t.sc.brakeReleased = true ∧ t.sc.first = none ∧ t.sc.last = none ∧ t.sc.causes = 0
         ∧ t.sc.releaseFrame = s.ft.count ∧ t.sc.result = .released ∧ t.sc.resultCause = none
         ∧ t.sc.releaseTimer = some (after s.clock (s.cfg.brakeRelease * 1000)) ∧ (∀ r ∈ t.sc.remembered, r = none)
         ∧ (∀ ch, isAxis s ch = true →
             (let m := t.mo.get ch
              m.mode = .hold ∧ m.p = (s.fb.get ch).x * 256 ∧ m.hold = (s.fb.get ch).x ∧ m.v = 0 ∧ m.integ = 0 ∧ m.u = 0)
             ∧ drvEn t ch = true ∧ brk t ch = true)
         ∧ t.fb = s.fb ∧ t.rf = s.rf ∧ t.te = s.te ∧ t.tk = s.tk) ∧
     (s.sc.state = .stopping ∨ s.sc.state = .braking ∨ s.sc.state = .releasing →
       t = { s with sc := { s.sc with result := .refusedBusy, resultCause := none } }) ∧
     (s.sc.state = .run → t = { s with sc := { s.sc with result := .none, resultCause := none } })) ∧
    (persistingCause s = none ↔
      s.su.validity ≠ .invalid ∧ s.sc.estop.level = true ∧ (∀ ch, isAxis s ch = true → fbFault (s.fb.get ch) = false)
        ∧ (∀ n ∈ peerNumbers, requiredPeer s n = true → (peerRecord s n).freshness = .fresh) ∧ s.sc.dupWindow = 0
        ∧ (∀ z ∈ s.zm.zones, z.cfg.keepOut = true → z.status ≠ .entered)) ∧
    (let config : Prop := s.su.validity = .invalid
     let chain : Prop := s.sc.estop.level = false
     let feedback : Prop := ∃ ch, isAxis s ch = true ∧ (8 ≤ (s.fb.get ch).illegal ∨ (s.fb.get ch).rail = true
       ∨ (s.fb.get ch).saturation = true)
     let silent : Prop := ∃ n ∈ peerNumbers, requiredPeer s n = true ∧ (peerRecord s n).freshness ≠ .fresh
     let duplicate : Prop := 0 < s.sc.dupWindow
     let breach : Prop := ∃ z ∈ s.zm.zones, z.cfg.keepOut = true ∧ z.status = .entered
     (config → persistingCause s = some .configInvalid)
     ∧ (¬config → chain → persistingCause s = some .estopChain)
     ∧ (¬config → ¬chain → feedback → persistingCause s = some .feedback)
     ∧ (¬config → ¬chain → ¬feedback → silent → persistingCause s = some .peerSilent)
     ∧ (¬config → ¬chain → ¬feedback → ¬silent → duplicate → persistingCause s = some .duplicateStation)
     ∧ (¬config → ¬chain → ¬feedback → ¬silent → ¬duplicate → breach → persistingCause s = some .zoneBreach))

/-! ## Take store and take engine -/

/-- O46. RECORD on a take-capable station that executes desk commands is accepted exactly when the engine is IDLE in RUN, LOCKED and ALIGNED
with every AXIS channel REFERENCED, the take number is 1 to 99 and new, the directory has room and the start frame lies ahead; it then waits
ARMED_REC. A refused one sets REFUSED with the fault of the first condition it fails in that order, and nothing else but the serial; neither
touches a slot, an entry or a channel (R150, R152). -/
def Obligations.RecordIsChecked : Prop :=
  ∀ (serial take : Byte) (start : Word) (s : State), executesDesk s = true → takeCapable s = true →
    (let ok : Prop := s.te.phase = .idle ∧ s.sc.state = .run ∧ s.ft.lock = .locked ∧ s.ft.aligned = true
       ∧ (∀ ch, isAxis s ch = true → referenced s ch = true) ∧ 1 ≤ take.toNat ∧ take.toNat ≤ 99
       ∧ (∀ e ∈ s.ts.dir, e.take ≠ take.toNat) ∧ s.ts.dir.length < 16
       ∧ 1 ≤ (start - s.ft.count).toNat ∧ (start - s.ft.count).toNat < 2 ^ 31
     ∃ t, exec (.record serial take start) s = .next t ∧ t = { s with te := t.te }
       ∧ (ok → t.te = { s.te with
           phase := .armedRec, take := take.toNat, start := some start, length := 0, result := .none, fault := .none
           spoiled := false, holdover := false, serial := serial })
       ∧ (¬ok → t.te.fault ≠ .none ∧ t.te = { s.te with result := .refused, fault := t.te.fault, serial := serial })
       ∧ (let busy : Prop := s.te.phase ≠ .idle
          let stopped : Prop := s.sc.state ≠ .run
          let unlocked : Prop := s.ft.lock ≠ .locked
          let unaligned : Prop := s.ft.aligned = false
          let unreferenced : Prop := ∃ ch, isAxis s ch = true ∧ (s.rf.get ch).state ≠ .referenced
          let noNumber : Prop := take.toNat = 0 ∨ 99 < take.toNat
          let carried : Prop := ∃ e ∈ s.ts.dir, e.take = take.toNat
          let full : Prop := 16 ≤ s.ts.dir.length
          (busy → t.te.fault = .busy)
          ∧ (¬busy → stopped → t.te.fault = .notRunning)
          ∧ (¬busy → ¬stopped → unlocked → t.te.fault = .notLocked)
          ∧ (¬busy → ¬stopped → ¬unlocked → unaligned → t.te.fault = .alignLost)
          ∧ (¬busy → ¬stopped → ¬unlocked → ¬unaligned →
              (unreferenced → t.te.fault = .notReferenced)
              ∧ (¬unreferenced → noNumber → t.te.fault = .takeMissing)
              ∧ (¬unreferenced → ¬noNumber → carried → t.te.fault = .takeExists)
              ∧ (¬unreferenced → ¬noNumber → ¬carried → full → t.te.fault = .dirFull)
              ∧ (¬unreferenced → ¬noNumber → ¬carried → ¬full → ¬ok → t.te.fault = .lateStart))))

/-- O47. END completes a recording with the length it has and hands on a held live order, ends ARMED_REC without an entry and is refused
in every other phase; at the station time of an append that found the store full it leaves the report at DONE with STORE_FULL (log 29).
ABORT ends every phase but IDLE with ABORTED, leaving a recording INTERRUPTED and holding the channels of CUEING, CUED and PLAYING at
floor(P / 256) in RUN, and fails the reference runs in progress: the measured ends discarded, a realignment noted for END_STOPS, the stall
count and the back-off cleared by the model's choice (log 51), the channel held in RUN at X for END_STOPS and at floor(P / 256) otherwise.
The start frame is none after a phase has ended (log 37; R50, R142, R155, R164, R166). -/
def Obligations.EndAndAbort : Prop :=
  ∀ (serial : Byte) (s : State), executesDesk s = true → takeCapable s = true →
    (∃ t, exec (.endTake serial) s = .next t ∧ t = { s with te := t.te, ts := t.ts, mo := t.mo } ∧ t.te.serial = serial
      ∧ (s.te.phase = .recording →
          t.te.phase = .idle ∧ t.te.result = .done ∧ t.te.fault = .none ∧ t.te.length = s.te.length ∧ t.te.liveHeld = false
            ∧ t.ts = { s.ts with
                dir := s.ts.dir.map fun e => if e.status = .recording then { e with status := .complete } else e }
            ∧ ∀ ch, t.mo.get ch =
                if s.te.liveHeld = true ∧ s.sc.state = .run ∧ isAxis s ch = true ∧ (chanCfg s ch).bindKind ≠ .none
                    ∧ referenced s ch = true ∧ ((s.mo.get ch).mode = .hold ∨ (s.mo.get ch).mode = .live)
                then { s.mo.get ch with mode := .live } else s.mo.get ch)
      ∧ (s.te.phase = .armedRec →
          t.te.phase = .idle ∧ t.te.result = .aborted ∧ t.te.fault = .none ∧ t.ts = s.ts ∧ t.mo = s.mo)
      ∧ (s.te.phase ≠ .recording → s.te.phase ≠ .armedRec →
          (let full : Prop := s.te.phase = .idle ∧ s.te.filledAt = some s.clock ∧ s.te.result = .done ∧ s.te.fault = .storeFull
           (full → t = { s with te := { s.te with serial := serial } })
           ∧ (¬full → t = { s with te := { s.te with serial := serial, result := .refused, fault := .busy } })))) ∧
    (∃ t, exec (.abort serial) s = .next t ∧ t = { s with te := t.te, ts := t.ts, mo := t.mo, rf := t.rf, fb := t.fb }
      ∧ t.te.serial = serial ∧ t.te.phase = .idle
      ∧ (s.te.phase = .idle → t.te = { s.te with serial := serial } ∧ t.ts = s.ts)
      ∧ (s.te.phase ≠ .idle → t.te.result = .aborted ∧ t.te.fault = .none ∧ t.te.liveHeld = false ∧ t.te.start = none)
      ∧ (s.te.phase = .recording →
          t.ts = { s.ts with
            dir := s.ts.dir.map fun e => if e.status = .recording then { e with status := .interrupted } else e })
      ∧ (s.te.phase = .checking → t.ts = { s.ts with check := none })
      ∧ (s.te.phase ≠ .recording → s.te.phase ≠ .checking → t.ts = s.ts)
      ∧ (∀ ch,
          let r := s.rf.get ch
          let m := s.mo.get ch
          let ends : Bool := (chanCfg s ch).refKind = .endStops
          let engineHolds : Prop := (s.te.phase = .cueing ∨ s.te.phase = .cued ∨ s.te.phase = .playing)
            ∧ s.sc.state = .run ∧ isAxis s ch = true ∧ (m.mode = .live ∨ m.mode = .cue ∨ m.mode = .play ∨ m.mode = .hold)
          (inRun r = true →
            t.rf.get ch = { r with
              state := .failed .aborted, offset := none, timer := none, stall := 0, backOff := false, endLo := none
              endHi := none, realign := r.realign || ends }
            ∧ t.fb.get ch = { s.fb.get ch with capture := .disarmed, provisional := none }
            ∧ t.mo.get ch =
                if engineHolds ∨ (s.sc.state = .run ∧ (m.mode = .ref ∨ m.mode = .hold)) then
                  { m with mode := .hold, hold := if ends then (s.fb.get ch).x else floorDiv m.p 256 }
                else m)
          ∧ (inRun r = false → t.rf.get ch = r ∧ t.fb.get ch = s.fb.get ch
              ∧ t.mo.get ch = if engineHolds then { m with mode := .hold, hold := floorDiv m.p 256 } else m)))

/-- O48. CUE of a finished, undamaged take of this frame rate and these channels starts its check run, which ends ceil(samples / 2,048) ms
on; any other is refused with the fault of the first condition it fails in R156's order, and the report alone changes. The completion marks a
take whose samples do not give its check word DAMAGED and ends IDLE; an intact one puts every AXIS channel in CUE in RUN, from HOLD, LIVE or
CUE on REFERENCED channels, is refused with the first refusing channel's reason where one refuses, those put in CUE held, and with
NOT_RUNNING in any other stop state (R22, R144, R156, R157). -/
def Obligations.CueChecksTheTake : Prop :=
  ∀ s : State,
    (∀ (serial take : Byte) (e : Entry), executesDesk s = true → takeCapable s = true → s.te.phase = .idle →
      lookupTake s.ts.dir take.toNat = some e → e.status = .complete ∨ e.status = .interrupted → e.rate = s.cfg.frameRate →
      e.mask = axisMask s → e.normalized = axisKinds s → (∀ ch, isAxis s ch = true → referenced s ch = true) →
      ∃ t, exec (.cue serial take) s = .next t
        ∧ t = { s with
          te := { s.te with
            serial := serial, phase := .checking, take := take.toNat, length := e.length, result := .none, fault := .none
            spoiled := false, holdover := false }
          ts := { s.ts with
            check := some
              { take := take.toNat
                completes := after s.clock ((e.length * maskCount e.mask + 2047) / 2048 * 1000) } } }) ∧
    (∀ (serial take : Byte), executesDesk s = true → takeCapable s = true → s.te.phase ≠ .idle →
      exec (.cue serial take) s
        = .next { s with te := { s.te with serial := serial, result := .refused, fault := .busy } }) ∧
    (∀ (serial take : Byte) (fault : TakeFault), executesDesk s = true → takeCapable s = true → s.te.phase = .idle →
      (let e? := lookupTake s.ts.dir take.toNat
       (e? = none ∧ fault = .takeMissing)
       ∨ ∃ e, e? = some e ∧
          (let wrong : Prop := e.mask ≠ axisMask s ∨ e.normalized ≠ axisKinds s
           (e.status = .damaged ∧ fault = .takeDamaged)
           ∨ (e.status ≠ .damaged ∧ e.rate ≠ s.cfg.frameRate ∧ fault = .rateMismatch)
           ∨ (e.status ≠ .damaged ∧ e.rate = s.cfg.frameRate ∧ wrong ∧ fault = .channelMismatch)
           ∨ (e.status ≠ .damaged ∧ e.rate = s.cfg.frameRate ∧ ¬wrong
               ∧ (∃ ch, isAxis s ch = true ∧ (s.rf.get ch).state ≠ .referenced) ∧ fault = .notReferenced))) →
      exec (.cue serial take) s = .next { s with te := { s.te with serial := serial, result := .refused, fault := fault } }) ∧
    (∀ (run : CheckRun) (e : Entry), s.ts.check = some run → s.te.phase = .checking → lookupTake s.ts.dir run.take = some e →
      ∃ t, exec .checkRunCompletion s = .next t ∧ t.ts.check = none ∧ t.ts.slots = s.ts.slots ∧ t.ts.free = s.ts.free
        ∧ t.sc = s.sc
        ∧ (checkWordOf s.ts.slots e ≠ ~~~e.crc →
            t.te.phase = .idle ∧ t.te.result = .refused ∧ t.te.fault = .takeDamaged ∧ t.mo = s.mo
              ∧ t.ts.dir = s.ts.dir.map fun x => if x.take = run.take then { x with status := .damaged } else x)
        ∧ (checkWordOf s.ts.slots e = ~~~e.crc → t.ts.dir = s.ts.dir
            ∧ (s.sc.state ≠ .run → t.te.phase = .idle ∧ t.te.result = .refused ∧ t.te.fault = .notRunning ∧ t.mo = s.mo)
            ∧ (s.sc.state = .run →
                (∀ ch, isAxis s ch = true → referenced s ch = true
                  ∧ ((s.mo.get ch).mode = .hold ∨ (s.mo.get ch).mode = .live ∨ (s.mo.get ch).mode = .cue)) →
                t.te.phase = .cueing ∧ t.te.marks = .all false ∧ ∀ ch,
                  t.mo.get ch = if isAxis s ch then { s.mo.get ch with mode := .cue } else s.mo.get ch)
            ∧ (s.sc.state = .run →
                (let refuses := fun (ch : Chan) => isAxis s ch = true ∧ ((s.rf.get ch).state ≠ .referenced
                   ∨ ((s.mo.get ch).mode ≠ .hold ∧ (s.mo.get ch).mode ≠ .live ∧ (s.mo.get ch).mode ≠ .cue))
                 ∀ ch, refuses ch → (∀ k, k.number < ch.number → ¬refuses k) →
                   t.te.phase = .idle ∧ t.te.result = .refused
                   ∧ ((s.mo.get ch).mode = .hold ∨ (s.mo.get ch).mode = .live ∨ (s.mo.get ch).mode = .cue →
                       t.te.fault = .notReferenced)
                   ∧ ∀ k,
                      (refuses k ∧ (s.mo.get k).mode ≠ .cue → t.mo.get k = s.mo.get k)
                      ∧ (isAxis s k = true → ¬refuses k →
                          t.mo.get k = { s.mo.get k with mode := .hold, hold := floorDiv (s.mo.get k).p 256 })
                      ∧ (isAxis s k = false → t.mo.get k = s.mo.get k)))))

/-- O49. RUN of the cued take schedules the play: a rate below 64 taken as 64 and one above 256 as 256, the length of at least 2 frames and no more than the
take's, the start frame ahead of an ALIGNED count; otherwise it is refused with the fault of its first failing check, and nothing but
the report changes either way (R159). -/
def Obligations.RunSchedulesThePlay : Prop :=
  ∀ (serial take : Byte) (start : Word) (rate length : BitVec 16) (s : State), executesDesk s = true → takeCapable s = true →
    ∃ t, exec (.run serial take start rate length) s = .next t ∧ t = { s with te := t.te } ∧ t.te.serial = serial
      ∧ t.te.phase = s.te.phase
      ∧ (s.te.phase ≠ .cued ∨ s.te.take ≠ take.toNat → t.te.result = .refused ∧ t.te.fault = .notCued)
      ∧ (s.te.phase = .cued → s.te.take = take.toNat →
          (s.ft.aligned = false → t.te.result = .refused ∧ t.te.fault = .alignLost)
          ∧ (s.ft.aligned = true →
              (length.toNat < 2 ∨ s.te.length < length.toNat → t.te.result = .refused ∧ t.te.fault = .shortTake)
              ∧ (2 ≤ length.toNat → length.toNat ≤ s.te.length →
                  (liesAfter start s.ft.count = false → t.te.result = .refused ∧ t.te.fault = .lateStart)
                  ∧ (liesAfter start s.ft.count = true →
                      t.te.result = .none ∧ t.te.fault = .none ∧ t.te.start = some start ∧ t.te.playLen = length.toNat
                        ∧ 64 ≤ t.te.rate ∧ t.te.rate ≤ 256
                        ∧ (rate.toNat < 64 → t.te.rate = 64) ∧ (256 < rate.toNat → t.te.rate = 256)
                        ∧ (64 ≤ rate.toNat → rate.toNat ≤ 256 → t.te.rate = rate.toNat)))))
      ∧ (t.te.result = .refused → t.te.start = s.te.start ∧ t.te.rate = s.te.rate ∧ t.te.playLen = s.te.playLen)

/-- O50. What a frame event does in the take engine, its count already risen. ARMED_REC at the start frame creates the entry with its first
page and frame 0, or is refused with the store's answer; RECORDING writes the next frame, or is COMPLETE and DONE with STORE_FULL when the
pages or the frame numbers are used up; CUED at the start frame puts every AXIS channel in PLAY, or ends ABORTED; PLAYING moves τ on by the
rate and ends DONE in HOLD on the last sample. Every other phase, and a start frame not reached, changes nothing. Where a phase begins or
ends, the start frame is none (log 37), and a store found full notes its station time, the model's own (log 29). The lock state it reads is
the one the event leaves (log 41). A frame event whose other
blocks ask nothing of the take engine hands it this, and, when the lock state changes, the lock notice before it or after it, which ends the
take work with LOCK_LOST when the lock is lost (R66, R139, R140, R141, R143, R153, R154, R160, R161, R166, R168). -/
def Obligations.FrameEventsDriveTheTake : Prop :=
  (∀ s : State, Memory.wf s.ts.slots = true → (∀ p ∈ s.ts.free, p < 128) → (∀ e ∈ s.ts.dir, ∀ p ∈ e.pages, p < 128) →
    (let t := takeFrameEvent s
     let samples := fun (mask kinds : PerChan Bool) => (maskChans mask).map fun ch =>
       if kinds.get ch then
         BitVec.ofInt 32 (clampInt 0 65535 (floorDiv ((floorDiv (s.mo.get ch).p 256 - (s.rf.get ch).softLo) * 65535)
           ((s.rf.get ch).softHi - (s.rf.get ch).softLo)))
       else BitVec.ofInt 32 (floorDiv (s.mo.get ch).p 256)
     (s.te.phase = .idle ∨ s.te.phase = .checking ∨ s.te.phase = .cueing → t = s)
     ∧ (s.te.phase = .armedRec ∨ s.te.phase = .cued → s.te.start ≠ some s.ft.count → t = s)
     ∧ (s.te.phase = .armedRec → s.te.start = some s.ft.count →
         (let room : Prop := recordings s.ts.dir = 0 ∧ lookupTake s.ts.dir s.te.take = none ∧ s.ts.dir.length < 16
          (¬room ∨ s.ts.free = [] →
            t = { s with te := t.te } ∧ t.te.phase = .idle ∧ t.te.result = .refused ∧ (room → t.te.fault = .storeFull)
              ∧ (t.te.fault = .busy ∨ t.te.fault = .takeExists ∨ t.te.fault = .dirFull ∨ t.te.fault = .storeFull))
          ∧ (∀ page rest, room → s.ts.free = page :: rest →
              (let mask := axisMask s
               let kinds := axisKinds s
               t = { s with ts := t.ts, te := { s.te with phase := .recording, length := 1, start := none } }
               ∧ t.ts.free = rest ∧ t.ts.check = s.ts.check
               ∧ t.ts.dir = s.ts.dir ++
                   [{ take := s.te.take, status := .recording, protect := false, mask := mask, normalized := kinds
                      rate := s.cfg.frameRate, length := 1, pages := [page]
                      crc := (samples mask kinds).foldl crc32Sample crc32Start }]
               ∧ (∀ (j : Nat) (w : Word), (samples mask kinds)[j]? = some w → slotRead t.ts.slots (page * 512 + j) = w)
               ∧ ∀ a, a < page * 512 ∨ page * 512 + maskCount mask ≤ a → slotRead t.ts.slots a = slotRead s.ts.slots a))))
     ∧ (∀ e, s.te.phase = .recording → recordingEntry s.ts.dir = some e →
         (let k := maskCount e.mask
          let newPage : Prop := e.length % (512 / k) = 0
          let full : Prop := e.length = 65535 ∨ (newPage ∧ s.ts.free = [])
          (full → t.te.phase = .idle ∧ t.te.result = .done ∧ t.te.fault = .storeFull ∧ t.te.length = s.te.length
            ∧ t.te.filledAt = some s.clock
            ∧ t.ts = { s.ts with dir := s.ts.dir.map fun x => if x.take = e.take then { x with status := .complete } else x }
            ∧ t.te.liveHeld = false ∧ (s.te.liveHeld = false → t.mo = s.mo))
          ∧ (¬full →
              (let pages := if e.length % (512 / k) = 0 then e.pages ++ s.ts.free.take 1 else e.pages
               let base := pages.getD (e.length / (512 / k)) 0 * 512 + e.length % (512 / k) * k
               let frame := samples e.mask e.normalized
               t = { s with ts := t.ts, te := { s.te with length := e.length + 1 } }
               ∧ t.ts.free = (if e.length % (512 / k) = 0 then s.ts.free.drop 1 else s.ts.free) ∧ t.ts.check = s.ts.check
               ∧ t.ts.dir = s.ts.dir.map (fun x => if x.take = e.take then
                   { x with pages := pages, length := e.length + 1, crc := frame.foldl crc32Sample e.crc } else x)
               ∧ (∀ (j : Nat) (w : Word), frame[j]? = some w → slotRead t.ts.slots (base + j) = w)
               ∧ ∀ a, a < base ∨ base + k ≤ a → slotRead t.ts.slots a = slotRead s.ts.slots a))))
     ∧ (s.te.phase = .cued → s.te.start = some s.ft.count →
         ((∀ ch, isAxis s ch = true → refusal .play ch s = none) →
           t = { s with mo := t.mo, te := t.te }
           ∧ t.te = { s.te with
               phase := .playing, tau := 0, length := s.te.playLen, start := none, spoiled := false
               holdover := decide (s.ft.lock = .holdover) }
           ∧ ∀ ch, t.mo.get ch = if isAxis s ch then { s.mo.get ch with mode := .play } else s.mo.get ch)
         ∧ ((∃ ch, isAxis s ch = true ∧ refusal .play ch s ≠ none) →
             t.te.phase = .idle ∧ t.te.result = .aborted ∧ (s.sc.state ≠ .run → t.te.fault = .busy)
               ∧ t = { s with mo := t.mo, te := t.te }
               ∧ ∀ ch, (t.mo.get ch).p = (s.mo.get ch).p ∧ (t.mo.get ch).v = (s.mo.get ch).v
                   ∧ (s.sc.state = .run → isAxis s ch = true → (t.mo.get ch).mode ≠ .play)))
     ∧ (s.te.phase = .playing →
         (let last := (s.te.playLen - 1) * 65536
          let tau := s.te.tau + s.te.rate * 256
          (tau < last → t = { s with te := { s.te with tau := tau } })
          ∧ (last ≤ tau → t.te.tau = last ∧ t.te.phase = .idle ∧ t.te.result = .done ∧ t.te.fault = .none
              ∧ t.te.start = none ∧ t.te.liveHeld = false ∧ t.ts = s.ts ∧ t.sc = s.sc ∧ t.rf = s.rf
              ∧ (s.sc.state = .run → ∀ ch, isAxis s ch = true → (s.mo.get ch).mode = .play →
                  t.mo.get ch =
                    { s.mo.get ch with
                      mode := if s.te.liveHeld ∧ (chanCfg s ch).bindKind ≠ .none ∧ referenced s ch then .live else .hold
                      hold := takeCounts s ch (takeSample s (s.te.playLen - 1) ch) })))))) ∧
  (∀ (pulse : Bool) (stamp : Word) (next : FrameTimer → FrameTimer) (s : State),
    s.pt.confirmed = none → s.sc.pendingRelease = false → (∀ n ∈ peerNumbers, requiredPeer s n = false) →
    (let t := frameEvent pulse stamp next s
     let new := (next s.ft).lock
     let s₁ := { s with ft := stampEvent s.cfg.frameRate pulse stamp (next s.ft) }
     let does : State → Prop := fun u => t.te = u.te ∧ t.ts = u.ts ∧ t.mo = u.mo ∧ t.rf = u.rf
     let working : Prop :=
       s.te.phase = .armedRec ∨ s.te.phase = .recording ∨ s.te.phase = .cued ∨ s.te.phase = .playing
     (new = s.ft.lock → does (takeFrameEvent s₁))
     ∧ (new ≠ s.ft.lock → does (takeFrameEvent (lockNotice new s₁)) ∨ does (lockNotice new (takeFrameEvent s₁)))
     ∧ (s.ft.lock ≠ .free → new = .free → working →
         t.te.phase = .idle ∧ t.te.start = none
         ∧ (s.te.phase = .armedRec ∨ s.te.phase = .cued → s.te.start ≠ some ((next s.ft).count + 1) →
             t.te.result = .aborted ∧ t.te.fault = .lockLost))))

/-- O51. ERASE in IDLE removes an unprotected take that is neither recorded nor checked and puts its pages at the tail of the free list in their
order, no slot changed; it is refused for a take that is missing or protected, and outside IDLE. LIVE in IDLE puts the bound REFERENCED
channels in HOLD in LIVE in RUN, and is held in any other phase. PROTECT inverts an entry's flag in every status, with nothing but the serial
in the report, and the new value is answered nowhere (log 22, DEDUCED); with no entry of that number it is refused with TAKE_MISSING; a
protected take is kept by ERASE, and a new entry begins with the flag clear (R55, R147, R148, R165, R166). -/
def Obligations.EraseLiveAndProtect : Prop :=
  (∀ (serial take : Byte) (s : State), executesDesk s = true → takeCapable s = true →
      (∃ t, exec (.erase serial take) s = .next t ∧ t.te.serial = serial ∧ t = { s with te := t.te, ts := t.ts }
        ∧ t.ts.slots = s.ts.slots
        ∧ (s.te.phase ≠ .idle → t.ts = s.ts ∧ t.te.result = .refused ∧ t.te.fault = .busy)
        ∧ (s.te.phase = .idle → lookupTake s.ts.dir take.toNat = none →
            t.ts = s.ts ∧ t.te.result = .refused ∧ t.te.fault = .takeMissing)
        ∧ (∀ e, s.te.phase = .idle → lookupTake s.ts.dir take.toNat = some e →
            (e.protect = true → t.ts = s.ts ∧ t.te.result = .refused ∧ t.te.fault = .takeProtected)
            ∧ (e.protect = false → e.status ≠ .recording → s.ts.check = none →
                t.ts.free = s.ts.free ++ e.pages ∧ t.ts.dir = s.ts.dir.filter (fun x => x.take ≠ take.toNat)
                  ∧ t.te.result = .done ∧ t.te.fault = .none ∧ t.te.length = 0 ∧ t.te.take = take.toNat))) ∧
      (∃ t, exec (.live serial) s = .next t ∧ t.te.serial = serial ∧ t.ts = s.ts ∧ t.sc = s.sc ∧ t.te.result = s.te.result
        ∧ (s.te.phase ≠ .idle → t.mo = s.mo ∧ t.te.liveHeld = true)
        ∧ (s.te.phase = .idle → t.te.liveHeld = s.te.liveHeld
            ∧ ∀ ch, t.mo.get ch =
                if s.sc.state = .run ∧ isAxis s ch = true ∧ (chanCfg s ch).bindKind ≠ .none ∧ referenced s ch = true
                    ∧ ((s.mo.get ch).mode = .hold ∨ (s.mo.get ch).mode = .live)
                then { s.mo.get ch with mode := .live } else s.mo.get ch))) ∧
  (∀ (serial take : Byte) (s : State), executesDesk s = true → takeCapable s = true →
      ∃ t, exec (.protect serial take) s = .next t ∧ t = { s with te := t.te, ts := t.ts } ∧ t.te.serial = serial
        ∧ t.te.phase = s.te.phase ∧ t.te.take = s.te.take ∧ t.te.length = s.te.length
        ∧ ((∃ e ∈ s.ts.dir, e.take = take.toNat) →
            t.te = { s.te with serial := serial } ∧ t.ts.slots = s.ts.slots ∧ t.ts.free = s.ts.free ∧ t.ts.check = s.ts.check
              ∧ t.ts.dir = s.ts.dir.map (fun e => if e.take = take.toNat then { e with protect := !e.protect } else e)
              ∧ (∀ e, lookupTake t.ts.dir take.toNat = some e → e.protect = true →
                  (storeErase take.toNat t.ts) = (.takeProtected, t.ts)))
        ∧ ((∀ e ∈ s.ts.dir, e.take ≠ take.toNat) →
            t.ts = s.ts ∧ t.te = { s.te with serial := serial, result := .refused, fault := .takeMissing })
        ∧ (∀ (k : Nat) (mask kinds : PerChan Bool) (rate : Nat) (samples : List Word) (ts' : Store),
            storeCreate k mask kinds rate samples s.ts = (.none, ts') → ∀ e ∈ ts'.dir, e ∈ s.ts.dir ∨ e.protect = false))

/-! ## Desk unit -/

/-- O52. A press on the active desk, a change of the button from RELEASED, is published with the next serial when its check passes, RECORD
and RUN four frames ahead of the own count; a failing check publishes nothing and starts the refusal lamp timer at 1,000 ms. RECORD needs
every participant IDLE in RUN, the desk LOCKED and a take 1 to 99; CUE every participant IDLE and a take; RUN every participant CUED on one
take; ERASE and PROTECT a take; and there is at least one participant. RUN carries the rate of the two rate selects and the least length
reported; a field that a command does not use is 0. A RECORD or RUN is watched from then on, with done clear (also at the scan's own station
time: log 44), and any other publication leaves the watch as it is, but for a watched serial that is taken again, which ends it. Nothing
outside the desk unit and the button's line changes, and a button PRESSED already gives no press (R170, R172, R173, R174, R175, R176). -/
def Obligations.PressPublishesOrRefuses : Prop :=
  ∀ (b : Button) (s : State), deskActive s = true →
    (pressed (buttonPlace b) s = true → exec (.buttonPress b) s = .next s) ∧ (pressed (buttonPlace b) s = false →
    ∃ t, exec (.buttonPress b) s = .next t ∧ t = { s with lines := t.lines, dk := t.dk }
      ∧ (deskCheck b s = true →
          1 ≤ t.dk.serial ∧ (s.dk.serial < 15 → t.dk.serial = s.dk.serial + 1) ∧ (s.dk.serial = 15 → t.dk.serial = 1)
            ∧ t.dk.current.serial = BitVec.ofNat 8 t.dk.serial ∧ t.dk.refusalTimer = s.dk.refusalTimer
            ∧ (b = .record ∨ b = .run →
                t.dk.current.start = s.ft.count + 4 ∧ t.dk.watched = some t.dk.serial ∧ t.dk.done = false)
            ∧ (b ≠ .record → b ≠ .run → t.dk.current.start = 0
                ∧ t.dk.watched = (if s.dk.watched = some t.dk.serial then none else s.dk.watched) ∧ t.dk.done = s.dk.done)
            ∧ (b = .end_ ∨ b = .abort ∨ b = .live ∨ b = .reference → t.dk.current.take = 0)
            ∧ (b ≠ .run → t.dk.current.rate = 0 ∧ t.dk.current.length = 0)
            ∧ t.dk.lamps = s.dk.lamps ∧ t.dk.key = s.dk.key ∧ t.dk.selects = s.dk.selects ∧ t.dk.holdTimer = s.dk.holdTimer
            ∧ t.dk.nextScan = s.dk.nextScan
            ∧ (b = .record ∨ b = .cue ∨ b = .erase ∨ b = .protect →
                t.dk.current.take = BitVec.ofNat 8 (takeSelect s))
            ∧ (b = .run → t.dk.current.take = shownTake s
                ∧ (let rs := fun k => (s.dk.selects.getD k ⟨true, 0⟩).level
                   t.dk.current.rate = if rs 8 then (if rs 7 then 64 else 128) else if rs 7 then 192 else 256)
                ∧ (∀ r ∈ participants s, t.dk.current.length.toNat ≤ r.length.toNat)
                ∧ ∃ r ∈ participants s, t.dk.current.length = r.length)
            ∧ t.dk.current.kind = (match b with
                | .record => 1 | .end_ => 2 | .cue => 3 | .run => 4 | .abort => 5 | .erase => 6 | .protect => 7 | .live => 8
                | .reference => 9))
      ∧ (deskCheck b s = false → t.dk.current = s.dk.current ∧ t.dk.serial = s.dk.serial ∧ t.dk.watched = s.dk.watched
          ∧ t.dk.done = s.dk.done ∧ t.dk.refusalTimer = some (after s.clock 1000000))
      ∧ (b = .end_ ∨ b = .abort ∨ b = .live ∨ b = .reference → deskCheck b s = true)
      ∧ (let ps := participants s
         let take : Prop := 1 ≤ takeSelect s ∧ takeSelect s ≤ 99
         (∀ k, k < 7 → (takeSelect s).testBit k = (s.dk.selects.getD k ⟨true, 0⟩).level) ∧ takeSelect s < 128
         ∧ (b = .record → (deskCheck b s = true ↔
             ps ≠ [] ∧ (∀ r ∈ ps, r.phase = 0 ∧ r.stop = 0) ∧ s.ft.lock = .locked ∧ take))
         ∧ (b = .cue → (deskCheck b s = true ↔ ps ≠ [] ∧ (∀ r ∈ ps, r.phase = 0) ∧ take))
         ∧ (b = .run → (deskCheck b s = true ↔
             ps ≠ [] ∧ (∀ r ∈ ps, r.phase = 5) ∧ ∀ r ∈ ps, ∀ q ∈ ps, r.take = q.take))
         ∧ (b = .erase ∨ b = .protect → (deskCheck b s = true ↔ take))))

/-- O53. The RELEASE key: a change to PRESSED starts the hold timer at 1,000 ms, a change to RELEASED stops it, and its expiry publishes
RELEASE with the next serial without a check, which leaves the abort watch but for a watched serial taken again; a press of a PRESSED key and a letting go of a RELEASED one are no changes. The expiry of the
refusal lamp timer ends REFUSED. Each changes nothing outside the desk unit but the clock and its line, whose raw level the model sets to
the level reported (log 4; R171, R175, R176). -/
def Obligations.ReleaseKeyAndLampTimer : Prop :=
  ∀ (time : Word) (s : State),
    (deskActive s = true →
      (s.dk.key.level = true → exec .releaseKeyPress s = .next s) ∧
      (s.dk.key.level = false → exec .releaseKeyLetgo s = .next s) ∧
      (s.dk.key.level = false → ∃ t, exec .releaseKeyPress s = .next t
        ∧ t = { s with
          lines := { s.lines with key := false }
          dk := { s.dk with key := { level := true, run := 0 }, holdTimer := some (after s.clock 1000000) } }) ∧
      (s.dk.key.level = true → ∃ t, exec .releaseKeyLetgo s = .next t
        ∧ t = { s with
          lines := { s.lines with key := true }
          dk := { s.dk with key := { level := false, run := 0 }, holdTimer := none } })) ∧
    (s.dk.holdTimer = some time →
      ∃ t, exec .releaseHoldExpiry s = .next t ∧ t = { s with clock := t.clock, dk := t.dk } ∧ t.dk.holdTimer = none
        ∧ t.dk.serial = (if s.dk.serial < 15 then s.dk.serial + 1 else 1)
        ∧ t.dk.current = { DeskContent.zero with kind := 10, serial := BitVec.ofNat 8 t.dk.serial }
        ∧ t.dk.watched = (if s.dk.watched = some t.dk.serial then none else s.dk.watched)
        ∧ t.dk.lamps = s.dk.lamps ∧ t.dk.done = s.dk.done) ∧
    (s.dk.refusalTimer = some time →
      ∃ t, exec .refusalLampExpiry s = .next t ∧ refusedLamp t = false
        ∧ t = { s with clock := t.clock, dk := { s.dk with refusalTimer := none } })

/-- O54. A panel scan sets every lamp from the participants' reports, comes again 1,000 µs on, and publishes an ABORT exactly when a serial
is watched, the done flag is clear and a participant names that serial with REFUSED, STORE_FULL, LOCK_LOST or ALIGN_LOST; the done flag is
then set, so that the same serial gives no second ABORT. FAULT is lit by the codes 1 to 17 alone: R176 says a fault other than NONE, and
that a value outside the code list is none of its codes is log 15, DEDUCED from R181 (R175, R176, R181). -/
def Obligations.PanelScanSetsLamps : Prop :=
  ∀ (time : Word) (s : State), s.dk.nextScan = some time →
    ∃ t, exec .panelScan s = .next t ∧ t = { s with clock := t.clock, dk := t.dk } ∧ t.dk.nextScan = some (after time 1000)
      ∧ (let ps := participants s
         (t.dk.lamps.ready = true ↔ ps ≠ [] ∧ (∀ r ∈ ps, r.phase = 5) ∧ ∀ r ∈ ps, ∀ q ∈ ps, r.take = q.take)
         ∧ (t.dk.lamps.recording = true ↔ ∃ r ∈ ps, r.phase = 2)
         ∧ (t.dk.lamps.play = true ↔ ∃ r ∈ ps, r.phase = 6)
         ∧ (t.dk.lamps.fault = true ↔ ∃ r ∈ ps, 1 ≤ r.fault.toNat ∧ r.fault.toNat ≤ 17)
         ∧ (t.dk.lamps.spoiled = true ↔ ∃ r ∈ ps, r.spoiled = true)
         ∧ (t.dk.lamps.stopped = true ↔ s.sc.state ≠ .run)
         ∧ (let trips : Prop := ∃ serial, s.dk.watched = some serial ∧ s.dk.done = false ∧ ∃ r ∈ ps,
              r.serial.toNat = serial ∧ (r.result = 4 ∨ r.fault = 5 ∨ r.fault = 16 ∨ r.fault = 17)
            (trips → t.dk.done = true ∧ t.dk.current.kind = 5 ∧ t.dk.serial = if s.dk.serial < 15 then s.dk.serial + 1 else 1)
            ∧ (¬trips → t.dk.current = s.dk.current ∧ t.dk.serial = s.dk.serial ∧ t.dk.watched = s.dk.watched
                ∧ t.dk.done = s.dk.done)))

/-! ## Invariants -/

/-- O55. The machine right after reset meets every invariant below. -/
def Obligations.ResetMeetsInvariants : Prop :=
  StopInv State.reset ∧ ModeInv State.reset ∧ TakeInv State.reset ∧ ZoneInv State.reset ∧ CapInv State.reset
    ∧ StoreInv State.reset.ts ∧ RecordInv State.reset ∧ LockInv State.reset ∧ TablesInv State.reset

/-- O56. Every step keeps the stop controller's fields in agreement: the brakes released exactly in RELEASING, RUN and STOPPING, the
first-cause record empty exactly in RUN and RELEASING, each timer in its own state (R118, R120, R123, R133). -/
def Obligations.StopInvKept : Prop := ∀ s t : State, StopInv s → step s = .next t → StopInv t

/-- O57. Every step keeps each channel's mode in agreement with the stop state and the reference state, a reference run and the take work to
RUN: no channel is driven in HALTED, none is in LIVE, CUE or PLAY unless it is REFERENCED and the station is in RUN, and leaving RUN ends
every run (R22, R49, R118, R124, R167). -/
def Obligations.WorkKeptToRun : Prop :=
  ∀ s t : State, StopInv s → ModeInv s → TakeInv s → step s = .next t → ModeInv t ∧ TakeInv t

/-- O58. Every step keeps the station out of RUN and RELEASING while a KEEP_OUT zone is ENTERED, and the caps in agreement with the
statuses (R114, R115, R116). -/
def Obligations.ZonesKept : Prop :=
  ∀ s t : State, StopInv s → ZoneInv s → CapInv s → step s = .next t → ZoneInv t ∧ CapInv t

/-- O59. Every step keeps the take store whole: every page free or in one entry's list, never two entries of one number, at most one
RECORDING and that exactly in the phase RECORDING, every entry's pages those its length needs, the slots in canonical form (R135 to
R138, R141). -/
def Obligations.StoreKept : Prop :=
  ∀ s t : State, StoreInv s.ts → RecordInv s → step s = .next t → StoreInv t.ts ∧ RecordInv t

/-- O60. Every step keeps the frame timer's counts in their ranges and, in LOCKED and HOLDOVER, the measured period within the tolerance of
the nominal period, and every table its size (R60 to R64, R89, R104, R128). -/
def Obligations.FrameTimerKept : Prop :=
  ∀ s t : State, LockInv s → TablesInv s → step s = .next t → LockInv t ∧ TablesInv t
end

