-- ==== Sys2Proof/Laws/State.lean ====
section
/-! SUPPORT. One lemma for each field of the state that an update leaves alone, true by rfl, so that no proof unfolds a record
update; and what the per-channel records read after a write. -/

namespace Sys2Proof

/-! ## Per-channel records -/

@[simp] theorem PerChan.get_set {α : Type} (t : PerChan α) (ch : Chan) (x : α) : (t.set ch x).get ch = x := by
  cases ch <;> rfl

theorem PerChan.get_set_ne {α : Type} (t : PerChan α) (ch c : Chan) (x : α) (h : c ≠ ch) : (t.set ch x).get c = t.get c := by
  cases ch <;> cases c <;> first | rfl | exact absurd rfl h

@[simp] theorem PerChan.get_map {α β : Type} (t : PerChan α) (f : α → β) (ch : Chan) : (t.map f).get ch = f (t.get ch) := by
  cases ch <;> rfl

@[simp] theorem PerChan.get_all {α : Type} (x : α) (ch : Chan) : (PerChan.all x).get ch = x := by
  cases ch <;> rfl

namespace Machine

variable (s : State)

/-! ## modFb -/

@[simp] theorem modFb_pending (ch : Chan) (f : Feedback → Feedback) : (modFb ch f s).pending = s.pending := rfl
@[simp] theorem modFb_clock (ch : Chan) (f : Feedback → Feedback) : (modFb ch f s).clock = s.clock := rfl
@[simp] theorem modFb_lines (ch : Chan) (f : Feedback → Feedback) : (modFb ch f s).lines = s.lines := rfl
@[simp] theorem modFb_inputs (ch : Chan) (f : Feedback → Feedback) : (modFb ch f s).inputs = s.inputs := rfl
@[simp] theorem modFb_sampled (ch : Chan) (f : Feedback → Feedback) : (modFb ch f s).sampled = s.sampled := rfl
@[simp] theorem modFb_order (ch : Chan) (f : Feedback → Feedback) : (modFb ch f s).order = s.order := rfl
@[simp] theorem modFb_draws (ch : Chan) (f : Feedback → Feedback) : (modFb ch f s).draws = s.draws := rfl
@[simp] theorem modFb_su (ch : Chan) (f : Feedback → Feedback) : (modFb ch f s).su = s.su := rfl
@[simp] theorem modFb_cfg (ch : Chan) (f : Feedback → Feedback) : (modFb ch f s).cfg = s.cfg := rfl
@[simp] theorem modFb_mo (ch : Chan) (f : Feedback → Feedback) : (modFb ch f s).mo = s.mo := rfl
@[simp] theorem modFb_rf (ch : Chan) (f : Feedback → Feedback) : (modFb ch f s).rf = s.rf := rfl
@[simp] theorem modFb_bd (ch : Chan) (f : Feedback → Feedback) : (modFb ch f s).bd = s.bd := rfl
@[simp] theorem modFb_ft (ch : Chan) (f : Feedback → Feedback) : (modFb ch f s).ft = s.ft := rfl
@[simp] theorem modFb_tk (ch : Chan) (f : Feedback → Feedback) : (modFb ch f s).tk = s.tk := rfl
@[simp] theorem modFb_pt (ch : Chan) (f : Feedback → Feedback) : (modFb ch f s).pt = s.pt := rfl
@[simp] theorem modFb_zm (ch : Chan) (f : Feedback → Feedback) : (modFb ch f s).zm = s.zm := rfl
@[simp] theorem modFb_sc (ch : Chan) (f : Feedback → Feedback) : (modFb ch f s).sc = s.sc := rfl
@[simp] theorem modFb_ts (ch : Chan) (f : Feedback → Feedback) : (modFb ch f s).ts = s.ts := rfl
@[simp] theorem modFb_te (ch : Chan) (f : Feedback → Feedback) : (modFb ch f s).te = s.te := rfl
@[simp] theorem modFb_dk (ch : Chan) (f : Feedback → Feedback) : (modFb ch f s).dk = s.dk := rfl

/-! ## modMo -/

@[simp] theorem modMo_pending (ch : Chan) (f : Motion → Motion) : (modMo ch f s).pending = s.pending := rfl
@[simp] theorem modMo_clock (ch : Chan) (f : Motion → Motion) : (modMo ch f s).clock = s.clock := rfl
@[simp] theorem modMo_lines (ch : Chan) (f : Motion → Motion) : (modMo ch f s).lines = s.lines := rfl
@[simp] theorem modMo_inputs (ch : Chan) (f : Motion → Motion) : (modMo ch f s).inputs = s.inputs := rfl
@[simp] theorem modMo_sampled (ch : Chan) (f : Motion → Motion) : (modMo ch f s).sampled = s.sampled := rfl
@[simp] theorem modMo_order (ch : Chan) (f : Motion → Motion) : (modMo ch f s).order = s.order := rfl
@[simp] theorem modMo_draws (ch : Chan) (f : Motion → Motion) : (modMo ch f s).draws = s.draws := rfl
@[simp] theorem modMo_su (ch : Chan) (f : Motion → Motion) : (modMo ch f s).su = s.su := rfl
@[simp] theorem modMo_cfg (ch : Chan) (f : Motion → Motion) : (modMo ch f s).cfg = s.cfg := rfl
@[simp] theorem modMo_fb (ch : Chan) (f : Motion → Motion) : (modMo ch f s).fb = s.fb := rfl
@[simp] theorem modMo_rf (ch : Chan) (f : Motion → Motion) : (modMo ch f s).rf = s.rf := rfl
@[simp] theorem modMo_bd (ch : Chan) (f : Motion → Motion) : (modMo ch f s).bd = s.bd := rfl
@[simp] theorem modMo_ft (ch : Chan) (f : Motion → Motion) : (modMo ch f s).ft = s.ft := rfl
@[simp] theorem modMo_tk (ch : Chan) (f : Motion → Motion) : (modMo ch f s).tk = s.tk := rfl
@[simp] theorem modMo_pt (ch : Chan) (f : Motion → Motion) : (modMo ch f s).pt = s.pt := rfl
@[simp] theorem modMo_zm (ch : Chan) (f : Motion → Motion) : (modMo ch f s).zm = s.zm := rfl
@[simp] theorem modMo_sc (ch : Chan) (f : Motion → Motion) : (modMo ch f s).sc = s.sc := rfl
@[simp] theorem modMo_ts (ch : Chan) (f : Motion → Motion) : (modMo ch f s).ts = s.ts := rfl
@[simp] theorem modMo_te (ch : Chan) (f : Motion → Motion) : (modMo ch f s).te = s.te := rfl
@[simp] theorem modMo_dk (ch : Chan) (f : Motion → Motion) : (modMo ch f s).dk = s.dk := rfl

/-! ## modRf -/

@[simp] theorem modRf_pending (ch : Chan) (f : Reference → Reference) : (modRf ch f s).pending = s.pending := rfl
@[simp] theorem modRf_clock (ch : Chan) (f : Reference → Reference) : (modRf ch f s).clock = s.clock := rfl
@[simp] theorem modRf_lines (ch : Chan) (f : Reference → Reference) : (modRf ch f s).lines = s.lines := rfl
@[simp] theorem modRf_inputs (ch : Chan) (f : Reference → Reference) : (modRf ch f s).inputs = s.inputs := rfl
@[simp] theorem modRf_sampled (ch : Chan) (f : Reference → Reference) : (modRf ch f s).sampled = s.sampled := rfl
@[simp] theorem modRf_order (ch : Chan) (f : Reference → Reference) : (modRf ch f s).order = s.order := rfl
@[simp] theorem modRf_draws (ch : Chan) (f : Reference → Reference) : (modRf ch f s).draws = s.draws := rfl
@[simp] theorem modRf_su (ch : Chan) (f : Reference → Reference) : (modRf ch f s).su = s.su := rfl
@[simp] theorem modRf_cfg (ch : Chan) (f : Reference → Reference) : (modRf ch f s).cfg = s.cfg := rfl
@[simp] theorem modRf_fb (ch : Chan) (f : Reference → Reference) : (modRf ch f s).fb = s.fb := rfl
@[simp] theorem modRf_mo (ch : Chan) (f : Reference → Reference) : (modRf ch f s).mo = s.mo := rfl
@[simp] theorem modRf_bd (ch : Chan) (f : Reference → Reference) : (modRf ch f s).bd = s.bd := rfl
@[simp] theorem modRf_ft (ch : Chan) (f : Reference → Reference) : (modRf ch f s).ft = s.ft := rfl
@[simp] theorem modRf_tk (ch : Chan) (f : Reference → Reference) : (modRf ch f s).tk = s.tk := rfl
@[simp] theorem modRf_pt (ch : Chan) (f : Reference → Reference) : (modRf ch f s).pt = s.pt := rfl
@[simp] theorem modRf_zm (ch : Chan) (f : Reference → Reference) : (modRf ch f s).zm = s.zm := rfl
@[simp] theorem modRf_sc (ch : Chan) (f : Reference → Reference) : (modRf ch f s).sc = s.sc := rfl
@[simp] theorem modRf_ts (ch : Chan) (f : Reference → Reference) : (modRf ch f s).ts = s.ts := rfl
@[simp] theorem modRf_te (ch : Chan) (f : Reference → Reference) : (modRf ch f s).te = s.te := rfl
@[simp] theorem modRf_dk (ch : Chan) (f : Reference → Reference) : (modRf ch f s).dk = s.dk := rfl

/-! ## modBd -/

@[simp] theorem modBd_pending (ch : Chan) (f : Binding → Binding) : (modBd ch f s).pending = s.pending := rfl
@[simp] theorem modBd_clock (ch : Chan) (f : Binding → Binding) : (modBd ch f s).clock = s.clock := rfl
@[simp] theorem modBd_lines (ch : Chan) (f : Binding → Binding) : (modBd ch f s).lines = s.lines := rfl
@[simp] theorem modBd_inputs (ch : Chan) (f : Binding → Binding) : (modBd ch f s).inputs = s.inputs := rfl
@[simp] theorem modBd_sampled (ch : Chan) (f : Binding → Binding) : (modBd ch f s).sampled = s.sampled := rfl
@[simp] theorem modBd_order (ch : Chan) (f : Binding → Binding) : (modBd ch f s).order = s.order := rfl
@[simp] theorem modBd_draws (ch : Chan) (f : Binding → Binding) : (modBd ch f s).draws = s.draws := rfl
@[simp] theorem modBd_su (ch : Chan) (f : Binding → Binding) : (modBd ch f s).su = s.su := rfl
@[simp] theorem modBd_cfg (ch : Chan) (f : Binding → Binding) : (modBd ch f s).cfg = s.cfg := rfl
@[simp] theorem modBd_fb (ch : Chan) (f : Binding → Binding) : (modBd ch f s).fb = s.fb := rfl
@[simp] theorem modBd_mo (ch : Chan) (f : Binding → Binding) : (modBd ch f s).mo = s.mo := rfl
@[simp] theorem modBd_rf (ch : Chan) (f : Binding → Binding) : (modBd ch f s).rf = s.rf := rfl
@[simp] theorem modBd_ft (ch : Chan) (f : Binding → Binding) : (modBd ch f s).ft = s.ft := rfl
@[simp] theorem modBd_tk (ch : Chan) (f : Binding → Binding) : (modBd ch f s).tk = s.tk := rfl
@[simp] theorem modBd_pt (ch : Chan) (f : Binding → Binding) : (modBd ch f s).pt = s.pt := rfl
@[simp] theorem modBd_zm (ch : Chan) (f : Binding → Binding) : (modBd ch f s).zm = s.zm := rfl
@[simp] theorem modBd_sc (ch : Chan) (f : Binding → Binding) : (modBd ch f s).sc = s.sc := rfl
@[simp] theorem modBd_ts (ch : Chan) (f : Binding → Binding) : (modBd ch f s).ts = s.ts := rfl
@[simp] theorem modBd_te (ch : Chan) (f : Binding → Binding) : (modBd ch f s).te = s.te := rfl
@[simp] theorem modBd_dk (ch : Chan) (f : Binding → Binding) : (modBd ch f s).dk = s.dk := rfl

/-! ## modLines -/

@[simp] theorem modLines_pending (ch : Chan) (f : ChanLines → ChanLines) : (modLines ch f s).pending = s.pending := rfl
@[simp] theorem modLines_clock (ch : Chan) (f : ChanLines → ChanLines) : (modLines ch f s).clock = s.clock := rfl
@[simp] theorem modLines_inputs (ch : Chan) (f : ChanLines → ChanLines) : (modLines ch f s).inputs = s.inputs := rfl
@[simp] theorem modLines_sampled (ch : Chan) (f : ChanLines → ChanLines) : (modLines ch f s).sampled = s.sampled := rfl
@[simp] theorem modLines_order (ch : Chan) (f : ChanLines → ChanLines) : (modLines ch f s).order = s.order := rfl
@[simp] theorem modLines_draws (ch : Chan) (f : ChanLines → ChanLines) : (modLines ch f s).draws = s.draws := rfl
@[simp] theorem modLines_su (ch : Chan) (f : ChanLines → ChanLines) : (modLines ch f s).su = s.su := rfl
@[simp] theorem modLines_cfg (ch : Chan) (f : ChanLines → ChanLines) : (modLines ch f s).cfg = s.cfg := rfl
@[simp] theorem modLines_fb (ch : Chan) (f : ChanLines → ChanLines) : (modLines ch f s).fb = s.fb := rfl
@[simp] theorem modLines_mo (ch : Chan) (f : ChanLines → ChanLines) : (modLines ch f s).mo = s.mo := rfl
@[simp] theorem modLines_rf (ch : Chan) (f : ChanLines → ChanLines) : (modLines ch f s).rf = s.rf := rfl
@[simp] theorem modLines_bd (ch : Chan) (f : ChanLines → ChanLines) : (modLines ch f s).bd = s.bd := rfl
@[simp] theorem modLines_ft (ch : Chan) (f : ChanLines → ChanLines) : (modLines ch f s).ft = s.ft := rfl
@[simp] theorem modLines_tk (ch : Chan) (f : ChanLines → ChanLines) : (modLines ch f s).tk = s.tk := rfl
@[simp] theorem modLines_pt (ch : Chan) (f : ChanLines → ChanLines) : (modLines ch f s).pt = s.pt := rfl
@[simp] theorem modLines_zm (ch : Chan) (f : ChanLines → ChanLines) : (modLines ch f s).zm = s.zm := rfl
@[simp] theorem modLines_sc (ch : Chan) (f : ChanLines → ChanLines) : (modLines ch f s).sc = s.sc := rfl
@[simp] theorem modLines_ts (ch : Chan) (f : ChanLines → ChanLines) : (modLines ch f s).ts = s.ts := rfl
@[simp] theorem modLines_te (ch : Chan) (f : ChanLines → ChanLines) : (modLines ch f s).te = s.te := rfl
@[simp] theorem modLines_dk (ch : Chan) (f : ChanLines → ChanLines) : (modLines ch f s).dk = s.dk := rfl

/-! ## mapZones -/

@[simp] theorem mapZones_pending (f : Zone → Zone) : (mapZones f s).pending = s.pending := rfl
@[simp] theorem mapZones_clock (f : Zone → Zone) : (mapZones f s).clock = s.clock := rfl
@[simp] theorem mapZones_lines (f : Zone → Zone) : (mapZones f s).lines = s.lines := rfl
@[simp] theorem mapZones_inputs (f : Zone → Zone) : (mapZones f s).inputs = s.inputs := rfl
@[simp] theorem mapZones_sampled (f : Zone → Zone) : (mapZones f s).sampled = s.sampled := rfl
@[simp] theorem mapZones_order (f : Zone → Zone) : (mapZones f s).order = s.order := rfl
@[simp] theorem mapZones_draws (f : Zone → Zone) : (mapZones f s).draws = s.draws := rfl
@[simp] theorem mapZones_su (f : Zone → Zone) : (mapZones f s).su = s.su := rfl
@[simp] theorem mapZones_cfg (f : Zone → Zone) : (mapZones f s).cfg = s.cfg := rfl
@[simp] theorem mapZones_fb (f : Zone → Zone) : (mapZones f s).fb = s.fb := rfl
@[simp] theorem mapZones_mo (f : Zone → Zone) : (mapZones f s).mo = s.mo := rfl
@[simp] theorem mapZones_rf (f : Zone → Zone) : (mapZones f s).rf = s.rf := rfl
@[simp] theorem mapZones_bd (f : Zone → Zone) : (mapZones f s).bd = s.bd := rfl
@[simp] theorem mapZones_ft (f : Zone → Zone) : (mapZones f s).ft = s.ft := rfl
@[simp] theorem mapZones_tk (f : Zone → Zone) : (mapZones f s).tk = s.tk := rfl
@[simp] theorem mapZones_pt (f : Zone → Zone) : (mapZones f s).pt = s.pt := rfl
@[simp] theorem mapZones_sc (f : Zone → Zone) : (mapZones f s).sc = s.sc := rfl
@[simp] theorem mapZones_ts (f : Zone → Zone) : (mapZones f s).ts = s.ts := rfl
@[simp] theorem mapZones_te (f : Zone → Zone) : (mapZones f s).te = s.te := rfl
@[simp] theorem mapZones_dk (f : Zone → Zone) : (mapZones f s).dk = s.dk := rfl

/-! ## setStop -/

@[simp] theorem setStop_pending (new : StopState) (a b c : Option Word) : (setStop new a b c s).pending = s.pending := rfl
@[simp] theorem setStop_clock (new : StopState) (a b c : Option Word) : (setStop new a b c s).clock = s.clock := rfl
@[simp] theorem setStop_lines (new : StopState) (a b c : Option Word) : (setStop new a b c s).lines = s.lines := rfl
@[simp] theorem setStop_inputs (new : StopState) (a b c : Option Word) : (setStop new a b c s).inputs = s.inputs := rfl
@[simp] theorem setStop_sampled (new : StopState) (a b c : Option Word) : (setStop new a b c s).sampled = s.sampled := rfl
@[simp] theorem setStop_order (new : StopState) (a b c : Option Word) : (setStop new a b c s).order = s.order := rfl
@[simp] theorem setStop_draws (new : StopState) (a b c : Option Word) : (setStop new a b c s).draws = s.draws := rfl
@[simp] theorem setStop_su (new : StopState) (a b c : Option Word) : (setStop new a b c s).su = s.su := rfl
@[simp] theorem setStop_cfg (new : StopState) (a b c : Option Word) : (setStop new a b c s).cfg = s.cfg := rfl
@[simp] theorem setStop_fb (new : StopState) (a b c : Option Word) : (setStop new a b c s).fb = s.fb := rfl
@[simp] theorem setStop_mo (new : StopState) (a b c : Option Word) : (setStop new a b c s).mo = s.mo := rfl
@[simp] theorem setStop_rf (new : StopState) (a b c : Option Word) : (setStop new a b c s).rf = s.rf := rfl
@[simp] theorem setStop_bd (new : StopState) (a b c : Option Word) : (setStop new a b c s).bd = s.bd := rfl
@[simp] theorem setStop_ft (new : StopState) (a b c : Option Word) : (setStop new a b c s).ft = s.ft := rfl
@[simp] theorem setStop_tk (new : StopState) (a b c : Option Word) : (setStop new a b c s).tk = s.tk := rfl
@[simp] theorem setStop_pt (new : StopState) (a b c : Option Word) : (setStop new a b c s).pt = s.pt := rfl
@[simp] theorem setStop_zm (new : StopState) (a b c : Option Word) : (setStop new a b c s).zm = s.zm := rfl
@[simp] theorem setStop_ts (new : StopState) (a b c : Option Word) : (setStop new a b c s).ts = s.ts := rfl
@[simp] theorem setStop_te (new : StopState) (a b c : Option Word) : (setStop new a b c s).te = s.te := rfl
@[simp] theorem setStop_dk (new : StopState) (a b c : Option Word) : (setStop new a b c s).dk = s.dk := rfl

/-! ## setBrake -/

@[simp] theorem setBrake_pending (released : Bool) : (setBrake released s).pending = s.pending := rfl
@[simp] theorem setBrake_clock (released : Bool) : (setBrake released s).clock = s.clock := rfl
@[simp] theorem setBrake_lines (released : Bool) : (setBrake released s).lines = s.lines := rfl
@[simp] theorem setBrake_inputs (released : Bool) : (setBrake released s).inputs = s.inputs := rfl
@[simp] theorem setBrake_sampled (released : Bool) : (setBrake released s).sampled = s.sampled := rfl
@[simp] theorem setBrake_order (released : Bool) : (setBrake released s).order = s.order := rfl
@[simp] theorem setBrake_draws (released : Bool) : (setBrake released s).draws = s.draws := rfl
@[simp] theorem setBrake_su (released : Bool) : (setBrake released s).su = s.su := rfl
@[simp] theorem setBrake_cfg (released : Bool) : (setBrake released s).cfg = s.cfg := rfl
@[simp] theorem setBrake_fb (released : Bool) : (setBrake released s).fb = s.fb := rfl
@[simp] theorem setBrake_mo (released : Bool) : (setBrake released s).mo = s.mo := rfl
@[simp] theorem setBrake_rf (released : Bool) : (setBrake released s).rf = s.rf := rfl
@[simp] theorem setBrake_bd (released : Bool) : (setBrake released s).bd = s.bd := rfl
@[simp] theorem setBrake_ft (released : Bool) : (setBrake released s).ft = s.ft := rfl
@[simp] theorem setBrake_tk (released : Bool) : (setBrake released s).tk = s.tk := rfl
@[simp] theorem setBrake_pt (released : Bool) : (setBrake released s).pt = s.pt := rfl
@[simp] theorem setBrake_zm (released : Bool) : (setBrake released s).zm = s.zm := rfl
@[simp] theorem setBrake_ts (released : Bool) : (setBrake released s).ts = s.ts := rfl
@[simp] theorem setBrake_te (released : Bool) : (setBrake released s).te = s.te := rfl
@[simp] theorem setBrake_dk (released : Bool) : (setBrake released s).dk = s.dk := rfl

/-! ## recordCause -/

@[simp] theorem recordCause_pending (kind : CauseKind) (o c z : Byte) : (recordCause kind o c z s).pending = s.pending := rfl
@[simp] theorem recordCause_clock (kind : CauseKind) (o c z : Byte) : (recordCause kind o c z s).clock = s.clock := rfl
@[simp] theorem recordCause_lines (kind : CauseKind) (o c z : Byte) : (recordCause kind o c z s).lines = s.lines := rfl
@[simp] theorem recordCause_inputs (kind : CauseKind) (o c z : Byte) : (recordCause kind o c z s).inputs = s.inputs := rfl
@[simp] theorem recordCause_sampled (kind : CauseKind) (o c z : Byte) : (recordCause kind o c z s).sampled = s.sampled := rfl
@[simp] theorem recordCause_order (kind : CauseKind) (o c z : Byte) : (recordCause kind o c z s).order = s.order := rfl
@[simp] theorem recordCause_draws (kind : CauseKind) (o c z : Byte) : (recordCause kind o c z s).draws = s.draws := rfl
@[simp] theorem recordCause_su (kind : CauseKind) (o c z : Byte) : (recordCause kind o c z s).su = s.su := rfl
@[simp] theorem recordCause_cfg (kind : CauseKind) (o c z : Byte) : (recordCause kind o c z s).cfg = s.cfg := rfl
@[simp] theorem recordCause_fb (kind : CauseKind) (o c z : Byte) : (recordCause kind o c z s).fb = s.fb := rfl
@[simp] theorem recordCause_mo (kind : CauseKind) (o c z : Byte) : (recordCause kind o c z s).mo = s.mo := rfl
@[simp] theorem recordCause_rf (kind : CauseKind) (o c z : Byte) : (recordCause kind o c z s).rf = s.rf := rfl
@[simp] theorem recordCause_bd (kind : CauseKind) (o c z : Byte) : (recordCause kind o c z s).bd = s.bd := rfl
@[simp] theorem recordCause_ft (kind : CauseKind) (o c z : Byte) : (recordCause kind o c z s).ft = s.ft := rfl
@[simp] theorem recordCause_tk (kind : CauseKind) (o c z : Byte) : (recordCause kind o c z s).tk = s.tk := rfl
@[simp] theorem recordCause_pt (kind : CauseKind) (o c z : Byte) : (recordCause kind o c z s).pt = s.pt := rfl
@[simp] theorem recordCause_zm (kind : CauseKind) (o c z : Byte) : (recordCause kind o c z s).zm = s.zm := rfl
@[simp] theorem recordCause_ts (kind : CauseKind) (o c z : Byte) : (recordCause kind o c z s).ts = s.ts := rfl
@[simp] theorem recordCause_te (kind : CauseKind) (o c z : Byte) : (recordCause kind o c z s).te = s.te := rfl
@[simp] theorem recordCause_dk (kind : CauseKind) (o c z : Byte) : (recordCause kind o c z s).dk = s.dk := rfl

/-! ## offerStop -/

@[simp] theorem offerStop_pending (body : StopBody) : (offerStop body s).pending = s.pending := rfl
@[simp] theorem offerStop_clock (body : StopBody) : (offerStop body s).clock = s.clock := rfl
@[simp] theorem offerStop_lines (body : StopBody) : (offerStop body s).lines = s.lines := rfl
@[simp] theorem offerStop_inputs (body : StopBody) : (offerStop body s).inputs = s.inputs := rfl
@[simp] theorem offerStop_sampled (body : StopBody) : (offerStop body s).sampled = s.sampled := rfl
@[simp] theorem offerStop_order (body : StopBody) : (offerStop body s).order = s.order := rfl
@[simp] theorem offerStop_draws (body : StopBody) : (offerStop body s).draws = s.draws := rfl
@[simp] theorem offerStop_su (body : StopBody) : (offerStop body s).su = s.su := rfl
@[simp] theorem offerStop_cfg (body : StopBody) : (offerStop body s).cfg = s.cfg := rfl
@[simp] theorem offerStop_fb (body : StopBody) : (offerStop body s).fb = s.fb := rfl
@[simp] theorem offerStop_mo (body : StopBody) : (offerStop body s).mo = s.mo := rfl
@[simp] theorem offerStop_rf (body : StopBody) : (offerStop body s).rf = s.rf := rfl
@[simp] theorem offerStop_bd (body : StopBody) : (offerStop body s).bd = s.bd := rfl
@[simp] theorem offerStop_ft (body : StopBody) : (offerStop body s).ft = s.ft := rfl
@[simp] theorem offerStop_pt (body : StopBody) : (offerStop body s).pt = s.pt := rfl
@[simp] theorem offerStop_zm (body : StopBody) : (offerStop body s).zm = s.zm := rfl
@[simp] theorem offerStop_sc (body : StopBody) : (offerStop body s).sc = s.sc := rfl
@[simp] theorem offerStop_ts (body : StopBody) : (offerStop body s).ts = s.ts := rfl
@[simp] theorem offerStop_te (body : StopBody) : (offerStop body s).te = s.te := rfl
@[simp] theorem offerStop_dk (body : StopBody) : (offerStop body s).dk = s.dk := rfl

/-! ## makeStopBody -/

@[simp] theorem makeStopBody_pending (kind : CauseKind) (o c z : Byte) : (makeStopBody kind o c z s).pending = s.pending := rfl
@[simp] theorem makeStopBody_clock (kind : CauseKind) (o c z : Byte) : (makeStopBody kind o c z s).clock = s.clock := rfl
@[simp] theorem makeStopBody_lines (kind : CauseKind) (o c z : Byte) : (makeStopBody kind o c z s).lines = s.lines := rfl
@[simp] theorem makeStopBody_inputs (kind : CauseKind) (o c z : Byte) : (makeStopBody kind o c z s).inputs = s.inputs := rfl
@[simp] theorem makeStopBody_sampled (kind : CauseKind) (o c z : Byte) : (makeStopBody kind o c z s).sampled = s.sampled := rfl
@[simp] theorem makeStopBody_order (kind : CauseKind) (o c z : Byte) : (makeStopBody kind o c z s).order = s.order := rfl
@[simp] theorem makeStopBody_draws (kind : CauseKind) (o c z : Byte) : (makeStopBody kind o c z s).draws = s.draws := rfl
@[simp] theorem makeStopBody_su (kind : CauseKind) (o c z : Byte) : (makeStopBody kind o c z s).su = s.su := rfl
@[simp] theorem makeStopBody_cfg (kind : CauseKind) (o c z : Byte) : (makeStopBody kind o c z s).cfg = s.cfg := rfl
@[simp] theorem makeStopBody_fb (kind : CauseKind) (o c z : Byte) : (makeStopBody kind o c z s).fb = s.fb := rfl
@[simp] theorem makeStopBody_mo (kind : CauseKind) (o c z : Byte) : (makeStopBody kind o c z s).mo = s.mo := rfl
@[simp] theorem makeStopBody_rf (kind : CauseKind) (o c z : Byte) : (makeStopBody kind o c z s).rf = s.rf := rfl
@[simp] theorem makeStopBody_bd (kind : CauseKind) (o c z : Byte) : (makeStopBody kind o c z s).bd = s.bd := rfl
@[simp] theorem makeStopBody_ft (kind : CauseKind) (o c z : Byte) : (makeStopBody kind o c z s).ft = s.ft := rfl
@[simp] theorem makeStopBody_pt (kind : CauseKind) (o c z : Byte) : (makeStopBody kind o c z s).pt = s.pt := rfl
@[simp] theorem makeStopBody_zm (kind : CauseKind) (o c z : Byte) : (makeStopBody kind o c z s).zm = s.zm := rfl
@[simp] theorem makeStopBody_ts (kind : CauseKind) (o c z : Byte) : (makeStopBody kind o c z s).ts = s.ts := rfl
@[simp] theorem makeStopBody_te (kind : CauseKind) (o c z : Byte) : (makeStopBody kind o c z s).te = s.te := rfl
@[simp] theorem makeStopBody_dk (kind : CauseKind) (o c z : Byte) : (makeStopBody kind o c z s).dk = s.dk := rfl

/-! ## endPhase -/

@[simp] theorem endPhase_pending (r : TakeResult) (f : TakeFault) : (endPhase r f s).pending = s.pending := rfl
@[simp] theorem endPhase_clock (r : TakeResult) (f : TakeFault) : (endPhase r f s).clock = s.clock := rfl
@[simp] theorem endPhase_lines (r : TakeResult) (f : TakeFault) : (endPhase r f s).lines = s.lines := rfl
@[simp] theorem endPhase_inputs (r : TakeResult) (f : TakeFault) : (endPhase r f s).inputs = s.inputs := rfl
@[simp] theorem endPhase_sampled (r : TakeResult) (f : TakeFault) : (endPhase r f s).sampled = s.sampled := rfl
@[simp] theorem endPhase_order (r : TakeResult) (f : TakeFault) : (endPhase r f s).order = s.order := rfl
@[simp] theorem endPhase_draws (r : TakeResult) (f : TakeFault) : (endPhase r f s).draws = s.draws := rfl
@[simp] theorem endPhase_su (r : TakeResult) (f : TakeFault) : (endPhase r f s).su = s.su := rfl
@[simp] theorem endPhase_cfg (r : TakeResult) (f : TakeFault) : (endPhase r f s).cfg = s.cfg := rfl
@[simp] theorem endPhase_fb (r : TakeResult) (f : TakeFault) : (endPhase r f s).fb = s.fb := rfl
@[simp] theorem endPhase_mo (r : TakeResult) (f : TakeFault) : (endPhase r f s).mo = s.mo := rfl
@[simp] theorem endPhase_rf (r : TakeResult) (f : TakeFault) : (endPhase r f s).rf = s.rf := rfl
@[simp] theorem endPhase_bd (r : TakeResult) (f : TakeFault) : (endPhase r f s).bd = s.bd := rfl
@[simp] theorem endPhase_ft (r : TakeResult) (f : TakeFault) : (endPhase r f s).ft = s.ft := rfl
@[simp] theorem endPhase_tk (r : TakeResult) (f : TakeFault) : (endPhase r f s).tk = s.tk := rfl
@[simp] theorem endPhase_pt (r : TakeResult) (f : TakeFault) : (endPhase r f s).pt = s.pt := rfl
@[simp] theorem endPhase_zm (r : TakeResult) (f : TakeFault) : (endPhase r f s).zm = s.zm := rfl
@[simp] theorem endPhase_sc (r : TakeResult) (f : TakeFault) : (endPhase r f s).sc = s.sc := rfl
@[simp] theorem endPhase_ts (r : TakeResult) (f : TakeFault) : (endPhase r f s).ts = s.ts := rfl
@[simp] theorem endPhase_dk (r : TakeResult) (f : TakeFault) : (endPhase r f s).dk = s.dk := rfl

/-! ## finishTake -/

@[simp] theorem finishTake_pending (o : TakeStatus) : (finishTake o s).pending = s.pending := rfl
@[simp] theorem finishTake_clock (o : TakeStatus) : (finishTake o s).clock = s.clock := rfl
@[simp] theorem finishTake_lines (o : TakeStatus) : (finishTake o s).lines = s.lines := rfl
@[simp] theorem finishTake_inputs (o : TakeStatus) : (finishTake o s).inputs = s.inputs := rfl
@[simp] theorem finishTake_sampled (o : TakeStatus) : (finishTake o s).sampled = s.sampled := rfl
@[simp] theorem finishTake_order (o : TakeStatus) : (finishTake o s).order = s.order := rfl
@[simp] theorem finishTake_draws (o : TakeStatus) : (finishTake o s).draws = s.draws := rfl
@[simp] theorem finishTake_su (o : TakeStatus) : (finishTake o s).su = s.su := rfl
@[simp] theorem finishTake_cfg (o : TakeStatus) : (finishTake o s).cfg = s.cfg := rfl
@[simp] theorem finishTake_fb (o : TakeStatus) : (finishTake o s).fb = s.fb := rfl
@[simp] theorem finishTake_mo (o : TakeStatus) : (finishTake o s).mo = s.mo := rfl
@[simp] theorem finishTake_rf (o : TakeStatus) : (finishTake o s).rf = s.rf := rfl
@[simp] theorem finishTake_bd (o : TakeStatus) : (finishTake o s).bd = s.bd := rfl
@[simp] theorem finishTake_ft (o : TakeStatus) : (finishTake o s).ft = s.ft := rfl
@[simp] theorem finishTake_tk (o : TakeStatus) : (finishTake o s).tk = s.tk := rfl
@[simp] theorem finishTake_pt (o : TakeStatus) : (finishTake o s).pt = s.pt := rfl
@[simp] theorem finishTake_zm (o : TakeStatus) : (finishTake o s).zm = s.zm := rfl
@[simp] theorem finishTake_sc (o : TakeStatus) : (finishTake o s).sc = s.sc := rfl
@[simp] theorem finishTake_te (o : TakeStatus) : (finishTake o s).te = s.te := rfl
@[simp] theorem finishTake_dk (o : TakeStatus) : (finishTake o s).dk = s.dk := rfl

/-! ## refuseTake -/

@[simp] theorem refuseTake_pending (f : TakeFault) : (refuseTake f s).pending = s.pending := rfl
@[simp] theorem refuseTake_clock (f : TakeFault) : (refuseTake f s).clock = s.clock := rfl
@[simp] theorem refuseTake_lines (f : TakeFault) : (refuseTake f s).lines = s.lines := rfl
@[simp] theorem refuseTake_inputs (f : TakeFault) : (refuseTake f s).inputs = s.inputs := rfl
@[simp] theorem refuseTake_sampled (f : TakeFault) : (refuseTake f s).sampled = s.sampled := rfl
@[simp] theorem refuseTake_order (f : TakeFault) : (refuseTake f s).order = s.order := rfl
@[simp] theorem refuseTake_draws (f : TakeFault) : (refuseTake f s).draws = s.draws := rfl
@[simp] theorem refuseTake_su (f : TakeFault) : (refuseTake f s).su = s.su := rfl
@[simp] theorem refuseTake_cfg (f : TakeFault) : (refuseTake f s).cfg = s.cfg := rfl
@[simp] theorem refuseTake_fb (f : TakeFault) : (refuseTake f s).fb = s.fb := rfl
@[simp] theorem refuseTake_mo (f : TakeFault) : (refuseTake f s).mo = s.mo := rfl
@[simp] theorem refuseTake_rf (f : TakeFault) : (refuseTake f s).rf = s.rf := rfl
@[simp] theorem refuseTake_bd (f : TakeFault) : (refuseTake f s).bd = s.bd := rfl
@[simp] theorem refuseTake_ft (f : TakeFault) : (refuseTake f s).ft = s.ft := rfl
@[simp] theorem refuseTake_tk (f : TakeFault) : (refuseTake f s).tk = s.tk := rfl
@[simp] theorem refuseTake_pt (f : TakeFault) : (refuseTake f s).pt = s.pt := rfl
@[simp] theorem refuseTake_zm (f : TakeFault) : (refuseTake f s).zm = s.zm := rfl
@[simp] theorem refuseTake_sc (f : TakeFault) : (refuseTake f s).sc = s.sc := rfl
@[simp] theorem refuseTake_ts (f : TakeFault) : (refuseTake f s).ts = s.ts := rfl
@[simp] theorem refuseTake_dk (f : TakeFault) : (refuseTake f s).dk = s.dk := rfl

/-! ## publish -/

@[simp] theorem publish_pending (k : DeskKind) (t : Byte) (x : Word) (r l : BitVec 16) : (publish k t x r l s).pending = s.pending := rfl
@[simp] theorem publish_clock (k : DeskKind) (t : Byte) (x : Word) (r l : BitVec 16) : (publish k t x r l s).clock = s.clock := rfl
@[simp] theorem publish_lines (k : DeskKind) (t : Byte) (x : Word) (r l : BitVec 16) : (publish k t x r l s).lines = s.lines := rfl
@[simp] theorem publish_inputs (k : DeskKind) (t : Byte) (x : Word) (r l : BitVec 16) : (publish k t x r l s).inputs = s.inputs := rfl
@[simp] theorem publish_sampled (k : DeskKind) (t : Byte) (x : Word) (r l : BitVec 16) : (publish k t x r l s).sampled = s.sampled := rfl
@[simp] theorem publish_order (k : DeskKind) (t : Byte) (x : Word) (r l : BitVec 16) : (publish k t x r l s).order = s.order := rfl
@[simp] theorem publish_draws (k : DeskKind) (t : Byte) (x : Word) (r l : BitVec 16) : (publish k t x r l s).draws = s.draws := rfl
@[simp] theorem publish_su (k : DeskKind) (t : Byte) (x : Word) (r l : BitVec 16) : (publish k t x r l s).su = s.su := rfl
@[simp] theorem publish_cfg (k : DeskKind) (t : Byte) (x : Word) (r l : BitVec 16) : (publish k t x r l s).cfg = s.cfg := rfl
@[simp] theorem publish_fb (k : DeskKind) (t : Byte) (x : Word) (r l : BitVec 16) : (publish k t x r l s).fb = s.fb := rfl
@[simp] theorem publish_mo (k : DeskKind) (t : Byte) (x : Word) (r l : BitVec 16) : (publish k t x r l s).mo = s.mo := rfl
@[simp] theorem publish_rf (k : DeskKind) (t : Byte) (x : Word) (r l : BitVec 16) : (publish k t x r l s).rf = s.rf := rfl
@[simp] theorem publish_bd (k : DeskKind) (t : Byte) (x : Word) (r l : BitVec 16) : (publish k t x r l s).bd = s.bd := rfl
@[simp] theorem publish_ft (k : DeskKind) (t : Byte) (x : Word) (r l : BitVec 16) : (publish k t x r l s).ft = s.ft := rfl
@[simp] theorem publish_tk (k : DeskKind) (t : Byte) (x : Word) (r l : BitVec 16) : (publish k t x r l s).tk = s.tk := rfl
@[simp] theorem publish_pt (k : DeskKind) (t : Byte) (x : Word) (r l : BitVec 16) : (publish k t x r l s).pt = s.pt := rfl
@[simp] theorem publish_zm (k : DeskKind) (t : Byte) (x : Word) (r l : BitVec 16) : (publish k t x r l s).zm = s.zm := rfl
@[simp] theorem publish_sc (k : DeskKind) (t : Byte) (x : Word) (r l : BitVec 16) : (publish k t x r l s).sc = s.sc := rfl
@[simp] theorem publish_ts (k : DeskKind) (t : Byte) (x : Word) (r l : BitVec 16) : (publish k t x r l s).ts = s.ts := rfl
@[simp] theorem publish_te (k : DeskKind) (t : Byte) (x : Word) (r l : BitVec 16) : (publish k t x r l s).te = s.te := rfl

/-! ## setPressed -/

@[simp] theorem setPressed_pending (n : Nat) : (setPressed n s).pending = s.pending := rfl
@[simp] theorem setPressed_clock (n : Nat) : (setPressed n s).clock = s.clock := rfl
@[simp] theorem setPressed_inputs (n : Nat) : (setPressed n s).inputs = s.inputs := rfl
@[simp] theorem setPressed_sampled (n : Nat) : (setPressed n s).sampled = s.sampled := rfl
@[simp] theorem setPressed_order (n : Nat) : (setPressed n s).order = s.order := rfl
@[simp] theorem setPressed_draws (n : Nat) : (setPressed n s).draws = s.draws := rfl
@[simp] theorem setPressed_su (n : Nat) : (setPressed n s).su = s.su := rfl
@[simp] theorem setPressed_cfg (n : Nat) : (setPressed n s).cfg = s.cfg := rfl
@[simp] theorem setPressed_fb (n : Nat) : (setPressed n s).fb = s.fb := rfl
@[simp] theorem setPressed_mo (n : Nat) : (setPressed n s).mo = s.mo := rfl
@[simp] theorem setPressed_rf (n : Nat) : (setPressed n s).rf = s.rf := rfl
@[simp] theorem setPressed_bd (n : Nat) : (setPressed n s).bd = s.bd := rfl
@[simp] theorem setPressed_ft (n : Nat) : (setPressed n s).ft = s.ft := rfl
@[simp] theorem setPressed_tk (n : Nat) : (setPressed n s).tk = s.tk := rfl
@[simp] theorem setPressed_pt (n : Nat) : (setPressed n s).pt = s.pt := rfl
@[simp] theorem setPressed_zm (n : Nat) : (setPressed n s).zm = s.zm := rfl
@[simp] theorem setPressed_sc (n : Nat) : (setPressed n s).sc = s.sc := rfl
@[simp] theorem setPressed_ts (n : Nat) : (setPressed n s).ts = s.ts := rfl
@[simp] theorem setPressed_te (n : Nat) : (setPressed n s).te = s.te := rfl

/-! ## countOversize -/

@[simp] theorem countOversize_pending : (countOversize s).pending = s.pending := rfl
@[simp] theorem countOversize_clock : (countOversize s).clock = s.clock := rfl
@[simp] theorem countOversize_lines : (countOversize s).lines = s.lines := rfl
@[simp] theorem countOversize_inputs : (countOversize s).inputs = s.inputs := rfl
@[simp] theorem countOversize_sampled : (countOversize s).sampled = s.sampled := rfl
@[simp] theorem countOversize_order : (countOversize s).order = s.order := rfl
@[simp] theorem countOversize_draws : (countOversize s).draws = s.draws := rfl
@[simp] theorem countOversize_su : (countOversize s).su = s.su := rfl
@[simp] theorem countOversize_cfg : (countOversize s).cfg = s.cfg := rfl
@[simp] theorem countOversize_fb : (countOversize s).fb = s.fb := rfl
@[simp] theorem countOversize_mo : (countOversize s).mo = s.mo := rfl
@[simp] theorem countOversize_rf : (countOversize s).rf = s.rf := rfl
@[simp] theorem countOversize_bd : (countOversize s).bd = s.bd := rfl
@[simp] theorem countOversize_ft : (countOversize s).ft = s.ft := rfl
@[simp] theorem countOversize_pt : (countOversize s).pt = s.pt := rfl
@[simp] theorem countOversize_zm : (countOversize s).zm = s.zm := rfl
@[simp] theorem countOversize_sc : (countOversize s).sc = s.sc := rfl
@[simp] theorem countOversize_ts : (countOversize s).ts = s.ts := rfl
@[simp] theorem countOversize_te : (countOversize s).te = s.te := rfl
@[simp] theorem countOversize_dk : (countOversize s).dk = s.dk := rfl

/-! ## declareQuiet -/

@[simp] theorem declareQuiet_pending : (declareQuiet s).pending = s.pending := rfl
@[simp] theorem declareQuiet_clock : (declareQuiet s).clock = s.clock := rfl
@[simp] theorem declareQuiet_lines : (declareQuiet s).lines = s.lines := rfl
@[simp] theorem declareQuiet_inputs : (declareQuiet s).inputs = s.inputs := rfl
@[simp] theorem declareQuiet_sampled : (declareQuiet s).sampled = s.sampled := rfl
@[simp] theorem declareQuiet_order : (declareQuiet s).order = s.order := rfl
@[simp] theorem declareQuiet_draws : (declareQuiet s).draws = s.draws := rfl
@[simp] theorem declareQuiet_su : (declareQuiet s).su = s.su := rfl
@[simp] theorem declareQuiet_cfg : (declareQuiet s).cfg = s.cfg := rfl
@[simp] theorem declareQuiet_fb : (declareQuiet s).fb = s.fb := rfl
@[simp] theorem declareQuiet_mo : (declareQuiet s).mo = s.mo := rfl
@[simp] theorem declareQuiet_rf : (declareQuiet s).rf = s.rf := rfl
@[simp] theorem declareQuiet_bd : (declareQuiet s).bd = s.bd := rfl
@[simp] theorem declareQuiet_ft : (declareQuiet s).ft = s.ft := rfl
@[simp] theorem declareQuiet_pt : (declareQuiet s).pt = s.pt := rfl
@[simp] theorem declareQuiet_zm : (declareQuiet s).zm = s.zm := rfl
@[simp] theorem declareQuiet_sc : (declareQuiet s).sc = s.sc := rfl
@[simp] theorem declareQuiet_ts : (declareQuiet s).ts = s.ts := rfl
@[simp] theorem declareQuiet_te : (declareQuiet s).te = s.te := rfl
@[simp] theorem declareQuiet_dk : (declareQuiet s).dk = s.dk := rfl

/-! ## buildState -/

@[simp] theorem buildState_pending (t : Word) : (buildState t s).pending = s.pending := rfl
@[simp] theorem buildState_clock (t : Word) : (buildState t s).clock = s.clock := rfl
@[simp] theorem buildState_lines (t : Word) : (buildState t s).lines = s.lines := rfl
@[simp] theorem buildState_inputs (t : Word) : (buildState t s).inputs = s.inputs := rfl
@[simp] theorem buildState_sampled (t : Word) : (buildState t s).sampled = s.sampled := rfl
@[simp] theorem buildState_order (t : Word) : (buildState t s).order = s.order := rfl
@[simp] theorem buildState_draws (t : Word) : (buildState t s).draws = s.draws := rfl
@[simp] theorem buildState_su (t : Word) : (buildState t s).su = s.su := rfl
@[simp] theorem buildState_cfg (t : Word) : (buildState t s).cfg = s.cfg := rfl
@[simp] theorem buildState_fb (t : Word) : (buildState t s).fb = s.fb := rfl
@[simp] theorem buildState_mo (t : Word) : (buildState t s).mo = s.mo := rfl
@[simp] theorem buildState_rf (t : Word) : (buildState t s).rf = s.rf := rfl
@[simp] theorem buildState_bd (t : Word) : (buildState t s).bd = s.bd := rfl
@[simp] theorem buildState_ft (t : Word) : (buildState t s).ft = s.ft := rfl
@[simp] theorem buildState_pt (t : Word) : (buildState t s).pt = s.pt := rfl
@[simp] theorem buildState_zm (t : Word) : (buildState t s).zm = s.zm := rfl
@[simp] theorem buildState_sc (t : Word) : (buildState t s).sc = s.sc := rfl
@[simp] theorem buildState_ts (t : Word) : (buildState t s).ts = s.ts := rfl
@[simp] theorem buildState_te (t : Word) : (buildState t s).te = s.te := rfl
@[simp] theorem buildState_dk (t : Word) : (buildState t s).dk = s.dk := rfl

/-! ## agePeers -/

@[simp] theorem agePeers_pending : (agePeers s).pending = s.pending := rfl
@[simp] theorem agePeers_clock : (agePeers s).clock = s.clock := rfl
@[simp] theorem agePeers_lines : (agePeers s).lines = s.lines := rfl
@[simp] theorem agePeers_inputs : (agePeers s).inputs = s.inputs := rfl
@[simp] theorem agePeers_sampled : (agePeers s).sampled = s.sampled := rfl
@[simp] theorem agePeers_order : (agePeers s).order = s.order := rfl
@[simp] theorem agePeers_draws : (agePeers s).draws = s.draws := rfl
@[simp] theorem agePeers_su : (agePeers s).su = s.su := rfl
@[simp] theorem agePeers_cfg : (agePeers s).cfg = s.cfg := rfl
@[simp] theorem agePeers_fb : (agePeers s).fb = s.fb := rfl
@[simp] theorem agePeers_mo : (agePeers s).mo = s.mo := rfl
@[simp] theorem agePeers_rf : (agePeers s).rf = s.rf := rfl
@[simp] theorem agePeers_bd : (agePeers s).bd = s.bd := rfl
@[simp] theorem agePeers_ft : (agePeers s).ft = s.ft := rfl
@[simp] theorem agePeers_tk : (agePeers s).tk = s.tk := rfl
@[simp] theorem agePeers_zm : (agePeers s).zm = s.zm := rfl
@[simp] theorem agePeers_sc : (agePeers s).sc = s.sc := rfl
@[simp] theorem agePeers_ts : (agePeers s).ts = s.ts := rfl
@[simp] theorem agePeers_te : (agePeers s).te = s.te := rfl
@[simp] theorem agePeers_dk : (agePeers s).dk = s.dk := rfl

/-! ## holdRelease -/

@[simp] theorem holdRelease_pending : (holdRelease s).pending = s.pending := rfl
@[simp] theorem holdRelease_clock : (holdRelease s).clock = s.clock := rfl
@[simp] theorem holdRelease_lines : (holdRelease s).lines = s.lines := rfl
@[simp] theorem holdRelease_inputs : (holdRelease s).inputs = s.inputs := rfl
@[simp] theorem holdRelease_sampled : (holdRelease s).sampled = s.sampled := rfl
@[simp] theorem holdRelease_order : (holdRelease s).order = s.order := rfl
@[simp] theorem holdRelease_draws : (holdRelease s).draws = s.draws := rfl
@[simp] theorem holdRelease_su : (holdRelease s).su = s.su := rfl
@[simp] theorem holdRelease_cfg : (holdRelease s).cfg = s.cfg := rfl
@[simp] theorem holdRelease_fb : (holdRelease s).fb = s.fb := rfl
@[simp] theorem holdRelease_mo : (holdRelease s).mo = s.mo := rfl
@[simp] theorem holdRelease_rf : (holdRelease s).rf = s.rf := rfl
@[simp] theorem holdRelease_bd : (holdRelease s).bd = s.bd := rfl
@[simp] theorem holdRelease_ft : (holdRelease s).ft = s.ft := rfl
@[simp] theorem holdRelease_tk : (holdRelease s).tk = s.tk := rfl
@[simp] theorem holdRelease_pt : (holdRelease s).pt = s.pt := rfl
@[simp] theorem holdRelease_zm : (holdRelease s).zm = s.zm := rfl
@[simp] theorem holdRelease_ts : (holdRelease s).ts = s.ts := rfl
@[simp] theorem holdRelease_te : (holdRelease s).te = s.te := rfl
@[simp] theorem holdRelease_dk : (holdRelease s).dk = s.dk := rfl
@[simp] theorem holdRelease_pendingRelease : (holdRelease s).sc.pendingRelease = true := rfl
@[simp] theorem holdRelease_state : (holdRelease s).sc.state = s.sc.state := rfl

/-! ## The records that the channel updates change -/

@[simp] theorem modFb_get (ch : Chan) (f : Feedback → Feedback) : (modFb ch f s).fb.get ch = f (s.fb.get ch) := by simp [modFb]
@[simp] theorem modMo_get (ch : Chan) (f : Motion → Motion) : (modMo ch f s).mo.get ch = f (s.mo.get ch) := by simp [modMo]
@[simp] theorem modRf_get (ch : Chan) (f : Reference → Reference) : (modRf ch f s).rf.get ch = f (s.rf.get ch) := by simp [modRf]
@[simp] theorem modBd_get (ch : Chan) (f : Binding → Binding) : (modBd ch f s).bd.get ch = f (s.bd.get ch) := by simp [modBd]

theorem modFb_get_ne (ch c : Chan) (f : Feedback → Feedback) (h : c ≠ ch) : (modFb ch f s).fb.get c = s.fb.get c :=
  PerChan.get_set_ne _ _ _ _ h
theorem modMo_get_ne (ch c : Chan) (f : Motion → Motion) (h : c ≠ ch) : (modMo ch f s).mo.get c = s.mo.get c :=
  PerChan.get_set_ne _ _ _ _ h
theorem modRf_get_ne (ch c : Chan) (f : Reference → Reference) (h : c ≠ ch) : (modRf ch f s).rf.get c = s.rf.get c :=
  PerChan.get_set_ne _ _ _ _ h
theorem modBd_get_ne (ch c : Chan) (f : Binding → Binding) (h : c ≠ ch) : (modBd ch f s).bd.get c = s.bd.get c :=
  PerChan.get_set_ne _ _ _ _ h

/-! ## The fields of the stop controller that its updates set -/

@[simp] theorem setStop_state (new : StopState) (a b c : Option Word) : (setStop new a b c s).sc.state = new := rfl
@[simp] theorem setStop_stopTimer (new : StopState) (a b c : Option Word) : (setStop new a b c s).sc.stopTimer = a := rfl
@[simp] theorem setStop_brakeTimer (new : StopState) (a b c : Option Word) : (setStop new a b c s).sc.brakeTimer = b := rfl
@[simp] theorem setStop_releaseTimer (new : StopState) (a b c : Option Word) : (setStop new a b c s).sc.releaseTimer = c := rfl
@[simp] theorem setStop_first (new : StopState) (a b c : Option Word) : (setStop new a b c s).sc.first = s.sc.first := rfl
@[simp] theorem setStop_causes (new : StopState) (a b c : Option Word) : (setStop new a b c s).sc.causes = s.sc.causes := rfl
@[simp] theorem setBrake_released (r : Bool) : (setBrake r s).sc.brakeReleased = r := rfl
@[simp] theorem setBrake_state (r : Bool) : (setBrake r s).sc.state = s.sc.state := rfl
@[simp] theorem recordCause_state (k : CauseKind) (o c z : Byte) : (recordCause k o c z s).sc.state = s.sc.state := rfl
@[simp] theorem recordCause_causes (k : CauseKind) (o c z : Byte) :
    (recordCause k o c z s).sc.causes = satIncr 255 s.sc.causes := rfl
@[simp] theorem makeStopBody_state (k : CauseKind) (o c z : Byte) : (makeStopBody k o c z s).sc.state = s.sc.state := rfl
@[simp] theorem endPhase_phase (r : TakeResult) (f : TakeFault) : (endPhase r f s).te.phase = .idle := rfl

end Machine

end Sys2Proof
end

