-- ==== Sys2Proof/Laws/Ops.lean ====
section
/-! SUPPORT. What the shared operations can do, said once: the clock, the free order, repetition over channels, mode requests, the
mode requests of the stop controller, desk commands, rises of QI, and the taking of a cause. -/

namespace Sys2Proof.Machine

/-! ## The clock -/

/-- Moving to a station time changes the clock alone. -/
theorem advanceTo_eq (t : Word) (s : State) :
    advanceTo t s = { s with clock := if reached s.clock t then s.clock else t } := by
  unfold advanceTo; split <;> simp_all

@[simp] theorem advanceTo_pending (t : Word) (s : State) : (advanceTo t s).pending = s.pending := by simp [advanceTo_eq]
@[simp] theorem advanceTo_lines (t : Word) (s : State) : (advanceTo t s).lines = s.lines := by simp [advanceTo_eq]
@[simp] theorem advanceTo_inputs (t : Word) (s : State) : (advanceTo t s).inputs = s.inputs := by simp [advanceTo_eq]
@[simp] theorem advanceTo_sampled (t : Word) (s : State) : (advanceTo t s).sampled = s.sampled := by simp [advanceTo_eq]
@[simp] theorem advanceTo_order (t : Word) (s : State) : (advanceTo t s).order = s.order := by simp [advanceTo_eq]
@[simp] theorem advanceTo_draws (t : Word) (s : State) : (advanceTo t s).draws = s.draws := by simp [advanceTo_eq]
@[simp] theorem advanceTo_su (t : Word) (s : State) : (advanceTo t s).su = s.su := by simp [advanceTo_eq]
@[simp] theorem advanceTo_cfg (t : Word) (s : State) : (advanceTo t s).cfg = s.cfg := by simp [advanceTo_eq]
@[simp] theorem advanceTo_fb (t : Word) (s : State) : (advanceTo t s).fb = s.fb := by simp [advanceTo_eq]
@[simp] theorem advanceTo_mo (t : Word) (s : State) : (advanceTo t s).mo = s.mo := by simp [advanceTo_eq]
@[simp] theorem advanceTo_rf (t : Word) (s : State) : (advanceTo t s).rf = s.rf := by simp [advanceTo_eq]
@[simp] theorem advanceTo_bd (t : Word) (s : State) : (advanceTo t s).bd = s.bd := by simp [advanceTo_eq]
@[simp] theorem advanceTo_ft (t : Word) (s : State) : (advanceTo t s).ft = s.ft := by simp [advanceTo_eq]
@[simp] theorem advanceTo_tk (t : Word) (s : State) : (advanceTo t s).tk = s.tk := by simp [advanceTo_eq]
@[simp] theorem advanceTo_pt (t : Word) (s : State) : (advanceTo t s).pt = s.pt := by simp [advanceTo_eq]
@[simp] theorem advanceTo_zm (t : Word) (s : State) : (advanceTo t s).zm = s.zm := by simp [advanceTo_eq]
@[simp] theorem advanceTo_sc (t : Word) (s : State) : (advanceTo t s).sc = s.sc := by simp [advanceTo_eq]
@[simp] theorem advanceTo_ts (t : Word) (s : State) : (advanceTo t s).ts = s.ts := by simp [advanceTo_eq]
@[simp] theorem advanceTo_te (t : Word) (s : State) : (advanceTo t s).te = s.te := by simp [advanceTo_eq]
@[simp] theorem advanceTo_dk (t : Word) (s : State) : (advanceTo t s).dk = s.dk := by simp [advanceTo_eq]

theorem advanceTo_reached (t : Word) (s : State) (h : reached s.clock t = true) : advanceTo t s = s := by simp [advanceTo, h]

/-! ## The free order -/

/-- A choice changes the outside's list of choices and their count alone. -/
theorem draw_eq (n : Nat) (s : State) : (draw n s).2 = { s with order := s.order.tail, draws := s.draws + 1 } := by
  unfold draw; split <;> simp_all

/-- A choice among n possibilities is one of them. -/
theorem draw_lt (n : Nat) (s : State) (h : 0 < n) : (draw n s).1 < n := by
  unfold draw; split <;> exact Nat.mod_lt _ h

/-- A free order changes the outside's list of choices and their count alone. -/
theorem shuffle_eq {α : Type} (xs : List α) (s : State) :
    ∃ order draws, (shuffle xs s).2 = { s with order := order, draws := draws } := by
  induction xs generalizing s with
  | nil => exact ⟨s.order, s.draws, rfl⟩
  | cons x xs ih =>
    obtain ⟨o, d, h⟩ := ih s
    exact ⟨o.tail, d + 1, by simp [shuffle, draw_eq, h]⟩

/-- A free order is an order of the same list. -/
theorem shuffle_perm {α : Type} (xs : List α) (s : State) : (shuffle xs s).1.Perm xs := by
  induction xs generalizing s with
  | nil => exact List.Perm.nil
  | cons x xs ih =>
    simp only [shuffle]
    exact (List.perm_insertIdx _ _ (Nat.lt_succ_iff.mp (draw_lt _ _ (Nat.succ_pos _)))).trans ((ih s).cons x)

/-- What every event keeps, whichever is first, events in a free order keep. -/
theorem inAnyOrder_induct (P : State → Prop) (events : List (State → State)) (s : State)
    (free : ∀ order draws t, P t → P { t with order := order, draws := draws })
    (keep : ∀ f ∈ events, ∀ t, P t → P (f t)) (h : P s) : P (inAnyOrder events s) := by
  obtain ⟨o, d, hs⟩ := shuffle_eq events s
  have key : ∀ (l : List (State → State)) (t : State), (∀ f ∈ l, f ∈ events) → P t → P (l.foldl (fun t f => f t) t) := by
    intro l
    induction l with
    | nil => intro t _ ht; exact ht
    | cons f l ih =>
      intro t hl ht
      exact ih _ (fun g hg => hl g (List.mem_cons_of_mem _ hg)) (keep f (hl f List.mem_cons_self) t ht)
  simp only [inAnyOrder, hs]
  exact key _ _ (fun f hf => (shuffle_perm events s).mem_iff.mp hf) (free o d s h)

/-! ## Repetition over channels -/

/-- What one application keeps, the application over a list of channels keeps. -/
theorem forChans_induct (P : State → Prop) (f : Chan → State → State) (chans : List Chan) (s : State)
    (keep : ∀ ch t, P t → P (f ch t)) (h : P s) : P (forChans f chans s) := by
  induction chans generalizing s with
  | nil => exact h
  | cons ch rest ih => exact ih _ (keep ch s h)

/-! ## Mode requests (R22) -/

/-- A request is refused with the state as it was, or accepted with the mode of one channel changed. -/
theorem request_cases (r : ModeRequest) (ch : Chan) (s : State) :
    (∃ why, refusal r ch s = some why ∧ request r ch s = (some why, s)) ∨
      (refusal r ch s = none ∧ request r ch s = (none, modMo ch (acceptMode r) s)) := by
  unfold request
  cases h : refusal r ch s with
  | none => exact .inr ⟨rfl, rfl⟩
  | some why => exact .inl ⟨why, rfl, rfl⟩

/-- A request whose answer is not read changes nothing, or the mode of one channel. -/
theorem ask_cases (r : ModeRequest) (ch : Chan) (s : State) :
    (ask r ch s = s ∧ refusal r ch s ≠ none) ∨ (ask r ch s = modMo ch (acceptMode r) s ∧ refusal r ch s = none) := by
  obtain ⟨why, h₁, h₂⟩ | ⟨h₁, h₂⟩ := request_cases r ch s
  · exact .inl ⟨by simp [ask, h₂], by simp [h₁]⟩
  · exact .inr ⟨by simp [ask, h₂], h₁⟩

/-- What an accepted request has met (R22): the stop state RUN, a mode of the table, REFERENCED where the request needs it. -/
theorem refusal_none (r : ModeRequest) (ch : Chan) (s : State) (h : refusal r ch s = none) :
    s.sc.state = .run ∧ acceptedFrom r (s.mo.get ch).mode = true ∧ (needsReference r = true → referenced s ch = true) := by
  unfold refusal at h
  split at h
  · cases h
  · split at h
    · cases h
    · split at h
      · cases h
      · simp_all

/-- An accepted request leaves P, v, I and u as they are (R23). -/
theorem acceptMode_keeps (r : ModeRequest) (m : Motion) :
    (acceptMode r m).p = m.p ∧ (acceptMode r m).v = m.v ∧ (acceptMode r m).integ = m.integ ∧ (acceptMode r m).u = m.u := by
  cases r <;> exact ⟨rfl, rfl, rfl, rfl⟩

/-! ## The stop controller's requests (R21) -/

/-- After an OFF request the channel is OFF with v, I and u at 0 and the PWM output low. -/
theorem requestOff_get (ch : Chan) (s : State) :
    let m := (requestOff ch s).mo.get ch
    m.mode = .off ∧ m.v = 0 ∧ m.integ = 0 ∧ m.u = 0 ∧ m.p = (s.fb.get ch).x * 256 ∧ m.pwmHigh = 0 ∧ m.dir = false := by
  simp [requestOff]

/-- Cutting a channel leaves it in OFF. -/
theorem cutChannel_mode (ch : Chan) (s : State) : ((cutChannel ch s).mo.get ch).mode = .off := by
  unfold cutChannel; split <;> simp_all [requestOff]

/-! ## Desk commands (R98) -/

/-- A desk command is carried out, or the station executes none and stays as it is. -/
theorem deskCommand_cases (f : State → State) (s : State) :
    (executesDesk s = true ∧ deskCommand f s = f s) ∨ (executesDesk s = false ∧ deskCommand f s = s) := by
  unfold deskCommand; cases executesDesk s <;> simp

/-- What a desk command keeps where it is carried out, it keeps everywhere. -/
theorem deskCommand_induct (P : State → Prop) (f : State → State) (s : State) (h : P s) (keep : P (f s)) : P (deskCommand f s) := by
  unfold deskCommand; split
  · exact keep
  · exact h

/-! ## Rises of QI (R2, R7) -/

/-- A rise of QI changes the feedback record of its channel, its count of sampled rises and its accepted level, and the raw lines alone. -/
theorem riseIndex_eq (ch : Chan) (s : State) :
    riseIndex ch s =
      { modFb ch (fun f => if 0 < f.rises then { f with rises := f.rises - 1 } else { f with qi := ⟨true, 0⟩ }) s with
        lines := (riseIndex ch s).lines } := by
  unfold riseIndex
  by_cases h : 0 < (s.fb.get ch).rises <;> simp [modFb, modLines, h]

/-! ## Causes (R120, R121) -/

/-- What the class of a cause does, by the stop state it meets. -/
theorem actOnCause_cases (cut : Bool) (s : State) :
    (underWay s.sc.state = true ∧ actOnCause cut s = if cut then enterBrakingCut s else enterStopping s) ∨
      (s.sc.state = .stopping ∧ actOnCause cut s = if cut then enterBrakingCut s else s) ∨
      (s.sc.state = .braking ∧ actOnCause cut s = if cut then forChans cutChannel (axisChans s) s else s) ∨
      (s.sc.state = .halted ∧ actOnCause cut s = s) := by
  unfold actOnCause
  cases h : s.sc.state <;> simp [underWay]

/-- A cause taken in HALTED is recorded and no more. -/
theorem raiseCause_halted (kind : CauseKind) (o c z : Byte) (s : State) (h : s.sc.state = .halted) :
    raiseCause kind o c z s = recordCause kind o c z s := by
  simp [raiseCause, actOnCause, underWay, h]

end Sys2Proof.Machine
end

