-- ==== Sys2Proof/Laws/Frames.lean ====
section
/-! SUPPORT. What the operations of the stop controller and of the take engine leave alone, said once for each: the relation
`SameStation` for everything a stop cannot reach, and what an operation does to the records and to the stop state. -/

namespace Sys2Proof.Machine

/-- What no cause, no entry into a stop state and no end of a take phase changes: the queue, the clock, the lines, the configuration,
the measured positions and the blocks that only hear of a stop by its notice. -/
structure SameStation (s t : State) : Prop where
  pending : t.pending = s.pending
  clock : t.clock = s.clock
  lines : t.lines = s.lines
  inputs : t.inputs = s.inputs
  sampled : t.sampled = s.sampled
  order : t.order = s.order
  draws : t.draws = s.draws
  su : t.su = s.su
  cfg : t.cfg = s.cfg
  bd : t.bd = s.bd
  ft : t.ft = s.ft
  pt : t.pt = s.pt
  zm : t.zm = s.zm
  x : ∀ ch, (t.fb.get ch).x = (s.fb.get ch).x

theorem SameStation.refl (s : State) : SameStation s s := ⟨rfl, rfl, rfl, rfl, rfl, rfl, rfl, rfl, rfl, rfl, rfl, rfl, rfl, fun _ => rfl⟩

theorem SameStation.trans {s t u : State} (h : SameStation s t) (g : SameStation t u) : SameStation s u :=
  ⟨g.pending.trans h.pending, g.clock.trans h.clock, g.lines.trans h.lines, g.inputs.trans h.inputs, g.sampled.trans h.sampled,
    g.order.trans h.order, g.draws.trans h.draws, g.su.trans h.su, g.cfg.trans h.cfg, g.bd.trans h.bd, g.ft.trans h.ft,
    g.pt.trans h.pt, g.zm.trans h.zm, fun ch => (g.x ch).trans (h.x ch)⟩

theorem SameStation.forChans {f : Chan → State → State} (hf : ∀ ch s, SameStation s (f ch s)) (chans : List Chan) (s : State) :
    SameStation s (forChans f chans s) :=
  forChans_induct (SameStation s) f chans s (fun ch t ht => ht.trans (hf ch t)) (.refl s)

theorem SameStation.isAxis {s t : State} (h : SameStation s t) (ch : Chan) : isAxis t ch = isAxis s ch := by
  unfold Machine.isAxis chanCfg; rw [h.cfg]

theorem SameStation.axisChans {s t : State} (h : SameStation s t) : axisChans t = axisChans s := by
  simp [Machine.axisChans, funext h.isAxis]

/-! ## Per-channel requests -/

theorem modMo_same (ch : Chan) (f : Motion → Motion) (s : State) : SameStation s (modMo ch f s) :=
  ⟨rfl, rfl, rfl, rfl, rfl, rfl, rfl, rfl, rfl, rfl, rfl, rfl, rfl, fun _ => rfl⟩

theorem modRf_same (ch : Chan) (f : Reference → Reference) (s : State) : SameStation s (modRf ch f s) :=
  ⟨rfl, rfl, rfl, rfl, rfl, rfl, rfl, rfl, rfl, rfl, rfl, rfl, rfl, fun _ => rfl⟩

theorem modFb_same (ch : Chan) (f : Feedback → Feedback) (s : State) (h : ∀ b, (f b).x = b.x) : SameStation s (modFb ch f s) :=
  ⟨rfl, rfl, rfl, rfl, rfl, rfl, rfl, rfl, rfl, rfl, rfl, rfl, rfl, fun c => by
    by_cases hc : c = ch
    · subst hc; simp [h]
    · rw [modFb_get_ne _ _ _ _ hc]⟩

theorem cutChannel_same (ch : Chan) (s : State) : SameStation s (cutChannel ch s) := by
  unfold cutChannel; split
  · exact .refl s
  · exact modMo_same _ _ _

theorem ask_same (r : ModeRequest) (ch : Chan) (s : State) : SameStation s (ask r ch s) := by
  obtain ⟨h, -⟩ | ⟨h, -⟩ := ask_cases r ch s
  · rw [h]; exact .refl s
  · rw [h]; exact modMo_same _ _ _

theorem requestAll_same (r : ModeRequest) (chans : List Chan) (s : State) : SameStation s (requestAll r chans s).2 := by
  induction chans generalizing s with
  | nil => exact .refl s
  | cons ch rest ih =>
    have h : SameStation s (request r ch s).2 := ask_same r ch s
    exact h.trans (ih _)

theorem holdAtSetpoint_same (chans : List Chan) (s : State) : SameStation s (holdAtSetpoint chans s) :=
  .forChans (fun _ _ => ask_same _ _ _) _ _

theorem liveRequests_same (s : State) : SameStation s (liveRequests s) := by
  refine .forChans (fun ch t => ?_) _ _
  split
  · exact .refl t
  · exact ask_same _ _ _

theorem failRunStopped_same (ch : Chan) (s : State) : SameStation s (failRunStopped ch s) := by
  simp only [failRunStopped]; split
  · exact (modRf_same _ _ _).trans (modFb_same _ _ _ fun _ => rfl)
  · exact .refl s

/-! ## Ends of take phases and the stop notice -/

theorem endPhase_same (r : TakeResult) (f : TakeFault) (s : State) : SameStation s (endPhase r f s) :=
  ⟨rfl, rfl, rfl, rfl, rfl, rfl, rfl, rfl, rfl, rfl, rfl, rfl, rfl, fun _ => rfl⟩

theorem finishTake_same (o : TakeStatus) (s : State) : SameStation s (finishTake o s) :=
  ⟨rfl, rfl, rfl, rfl, rfl, rfl, rfl, rfl, rfl, rfl, rfl, rfl, rfl, fun _ => rfl⟩

theorem takeStopped_same (s : State) : SameStation s (takeStopped s) := by
  unfold takeStopped; split
  all_goals first | exact endPhase_same _ _ _ | exact (finishTake_same _ _).trans (endPhase_same _ _ _) | exact .refl s

theorem stoppedLamp_same (new : StopState) (s : State) : SameStation s (stoppedLamp new s) := by
  unfold stoppedLamp; split
  · exact ⟨rfl, rfl, rfl, rfl, rfl, rfl, rfl, rfl, rfl, rfl, rfl, rfl, rfl, fun _ => rfl⟩
  · exact .refl s

theorem stopNotice_same (old new : StopState) (s : State) : SameStation s (stopNotice old new s) := by
  have h₁ : SameStation s (if old = .run && new ≠ .run then takeStopped (forChans failRunStopped Chan.list s) else s) := by
    split
    · exact (SameStation.forChans failRunStopped_same _ _).trans (takeStopped_same _)
    · exact .refl s
  have live : ∀ t : State, SameStation t (if new = .run then liveRequests t else t) := by
    intro t; split
    · exact liveRequests_same t
    · exact .refl t
  exact (h₁.trans (live _)).trans (stoppedLamp_same _ _)

/-! ## Entries into stop states -/

theorem setStop_same (new : StopState) (a b c : Option Word) (s : State) : SameStation s (setStop new a b c s) :=
  ⟨rfl, rfl, rfl, rfl, rfl, rfl, rfl, rfl, rfl, rfl, rfl, rfl, rfl, fun _ => rfl⟩

theorem setBrake_same (r : Bool) (s : State) : SameStation s (setBrake r s) :=
  ⟨rfl, rfl, rfl, rfl, rfl, rfl, rfl, rfl, rfl, rfl, rfl, rfl, rfl, fun _ => rfl⟩

theorem enterBraking_same (s : State) : SameStation s (enterBraking s) :=
  ((setStop_same _ _ _ _ _).trans (setBrake_same _ _)).trans (stopNotice_same _ _ _)

theorem enterBrakingCut_same (s : State) : SameStation s (enterBrakingCut s) :=
  (((setStop_same _ _ _ _ _).trans (setBrake_same _ _)).trans (.forChans cutChannel_same _ _)).trans (stopNotice_same _ _ _)

theorem enterStopping_same (s : State) : SameStation s (enterStopping s) := by
  have h : SameStation s (stopNotice s.sc.state .stopping
      (forChans requestStopping (axisChans (setStop .stopping (some (after s.clock (s.cfg.stopTimeout * 1000))) none none s))
        (setStop .stopping (some (after s.clock (s.cfg.stopTimeout * 1000))) none none s))) :=
    ((setStop_same _ _ _ _ _).trans (.forChans (f := requestStopping) (fun _ _ => modMo_same _ _ _) _ _)).trans (stopNotice_same _ _ _)
  simp only [enterStopping]; split
  · exact h.trans (enterBraking_same _)
  · exact h

theorem enterHalted_same (s : State) : SameStation s (enterHalted s) :=
  ((setStop_same _ _ _ _ _).trans (.forChans cutChannel_same _ _)).trans (stopNotice_same _ _ _)

theorem enterRun_same (s : State) : SameStation s (enterRun s) := (setStop_same _ _ _ _ _).trans (stopNotice_same _ _ _)

/-! ## Causes -/

theorem recordCause_same (k : CauseKind) (o c z : Byte) (s : State) : SameStation s (recordCause k o c z s) :=
  ⟨rfl, rfl, rfl, rfl, rfl, rfl, rfl, rfl, rfl, rfl, rfl, rfl, rfl, fun _ => rfl⟩

theorem makeStopBody_same (k : CauseKind) (o c z : Byte) (s : State) : SameStation s (makeStopBody k o c z s) :=
  ⟨rfl, rfl, rfl, rfl, rfl, rfl, rfl, rfl, rfl, rfl, rfl, rfl, rfl, fun _ => rfl⟩

theorem actOnCause_same (cut : Bool) (s : State) : SameStation s (actOnCause cut s) := by
  obtain ⟨-, h⟩ | ⟨-, h⟩ | ⟨-, h⟩ | ⟨-, h⟩ := actOnCause_cases cut s <;> rw [h]
  · split
    · exact enterBrakingCut_same s
    · exact enterStopping_same s
  · split
    · exact enterBrakingCut_same s
    · exact .refl s
  · split
    · exact .forChans cutChannel_same _ _
    · exact .refl s
  · exact .refl s

/-- A cause reaches the stop controller, the channels' modes, runs in progress, the take work, the STOP slot and the STOPPED lamp, and
nothing else. -/
theorem raiseCause_same (k : CauseKind) (o c z : Byte) (s : State) : SameStation s (raiseCause k o c z s) := by
  unfold raiseCause
  refine (recordCause_same k o c z s).trans (.trans ?_ (actOnCause_same _ _))
  split
  · exact makeStopBody_same _ _ _ _ _
  · exact .refl _

/-! ## What the notices and the requests leave of the stop controller and the trunk -/

theorem ask_sc (r : ModeRequest) (ch : Chan) (s : State) : (ask r ch s).sc = s.sc ∧ (ask r ch s).tk = s.tk := by
  obtain ⟨h, -⟩ | ⟨h, -⟩ := ask_cases r ch s <;> rw [h] <;> exact ⟨rfl, rfl⟩

theorem cutChannel_sc (ch : Chan) (s : State) : (cutChannel ch s).sc = s.sc ∧ (cutChannel ch s).tk = s.tk := by
  unfold cutChannel; split <;> exact ⟨rfl, rfl⟩

theorem forChans_sc {f : Chan → State → State} (hf : ∀ ch s, (f ch s).sc = s.sc ∧ (f ch s).tk = s.tk) (chans : List Chan)
    (s : State) : (forChans f chans s).sc = s.sc ∧ (forChans f chans s).tk = s.tk :=
  forChans_induct (fun t => t.sc = s.sc ∧ t.tk = s.tk) f chans s
    (fun ch t ht => ⟨(hf ch t).1.trans ht.1, (hf ch t).2.trans ht.2⟩) ⟨rfl, rfl⟩

theorem failRunStopped_sc (ch : Chan) (s : State) : (failRunStopped ch s).sc = s.sc ∧ (failRunStopped ch s).tk = s.tk := by
  simp only [failRunStopped]; split <;> exact ⟨rfl, rfl⟩

theorem liveRequests_sc (s : State) : (liveRequests s).sc = s.sc ∧ (liveRequests s).tk = s.tk := by
  refine forChans_sc (fun ch t => ?_) _ _
  split
  · exact ⟨rfl, rfl⟩
  · exact ask_sc _ _ _

theorem takeStopped_sc (s : State) : (takeStopped s).sc = s.sc ∧ (takeStopped s).tk = s.tk := by
  unfold takeStopped; split <;> exact ⟨rfl, rfl⟩

theorem stoppedLamp_sc (new : StopState) (s : State) : (stoppedLamp new s).sc = s.sc ∧ (stoppedLamp new s).tk = s.tk := by
  unfold stoppedLamp; split <;> exact ⟨rfl, rfl⟩

/-- A stop notice changes neither the stop controller nor the trunk. -/
theorem stopNotice_sc (old new : StopState) (s : State) :
    (stopNotice old new s).sc = s.sc ∧ (stopNotice old new s).tk = s.tk := by
  have h₁ : ∀ t : State, t = (if old = .run && new ≠ .run then takeStopped (forChans failRunStopped Chan.list s) else s) →
      t.sc = s.sc ∧ t.tk = s.tk := by
    rintro t rfl; split
    · exact ⟨(takeStopped_sc _).1.trans (forChans_sc failRunStopped_sc _ _).1,
        (takeStopped_sc _).2.trans (forChans_sc failRunStopped_sc _ _).2⟩
    · exact ⟨rfl, rfl⟩
  obtain ⟨a, b⟩ := h₁ _ rfl
  simp only [stopNotice]
  refine ⟨(stoppedLamp_sc _ _).1.trans ?_, (stoppedLamp_sc _ _).2.trans ?_⟩
  · split
    · exact (liveRequests_sc _).1.trans a
    · exact a
  · split
    · exact (liveRequests_sc _).2.trans b
    · exact b

/-! ## What the entries make of the stop controller -/

theorem enterBraking_sc (s : State) : (enterBraking s).sc =
    { s.sc with
      state := .braking, stopTimer := none, brakeTimer := some (after s.clock (s.cfg.brakeEngage * 1000)), releaseTimer := none
      brakeReleased := false } ∧ (enterBraking s).tk = s.tk := by
  unfold enterBraking
  exact ⟨(stopNotice_sc _ _ _).1, (stopNotice_sc _ _ _).2⟩

theorem enterBrakingCut_sc (s : State) : (enterBrakingCut s).sc =
    { s.sc with
      state := .braking, stopTimer := none, brakeTimer := some (after s.clock (s.cfg.brakeEngage * 1000)), releaseTimer := none
      brakeReleased := false } ∧ (enterBrakingCut s).tk = s.tk := by
  unfold enterBrakingCut
  exact ⟨(stopNotice_sc _ _ _).1.trans (forChans_sc cutChannel_sc _ _).1,
    (stopNotice_sc _ _ _).2.trans (forChans_sc cutChannel_sc _ _).2⟩

theorem enterHalted_sc (s : State) : (enterHalted s).sc =
    { s.sc with state := .halted, stopTimer := none, brakeTimer := none, releaseTimer := none } ∧ (enterHalted s).tk = s.tk := by
  unfold enterHalted
  exact ⟨(stopNotice_sc _ _ _).1.trans (forChans_sc cutChannel_sc _ _).1,
    (stopNotice_sc _ _ _).2.trans (forChans_sc cutChannel_sc _ _).2⟩

theorem enterRun_sc (s : State) : (enterRun s).sc =
    { s.sc with state := .run, stopTimer := none, brakeTimer := none, releaseTimer := none } ∧ (enterRun s).tk = s.tk := by
  unfold enterRun
  exact ⟨(stopNotice_sc _ _ _).1, (stopNotice_sc _ _ _).2⟩

/-- Entry into STOPPING: the stop timer runs with the brake command as it was, or the station is in BRAKING at once. -/
theorem enterStopping_sc (s : State) :
    ((enterStopping s).sc =
        { s.sc with
          state := .stopping, stopTimer := some (after s.clock (s.cfg.stopTimeout * 1000)), brakeTimer := none
          releaseTimer := none } ∨
      (enterStopping s).sc =
        { s.sc with
          state := .braking, stopTimer := none, brakeTimer := some (after s.clock (s.cfg.brakeEngage * 1000))
          releaseTimer := none, brakeReleased := false }) ∧ (enterStopping s).tk = s.tk := by
  let s₁ := setStop .stopping (some (after s.clock (s.cfg.stopTimeout * 1000))) none none s
  let s₂ := stopNotice s.sc.state .stopping (forChans requestStopping (axisChans s₁) s₁)
  have hf : (forChans requestStopping (axisChans s₁) s₁).sc = s₁.sc ∧ (forChans requestStopping (axisChans s₁) s₁).tk = s₁.tk :=
    forChans_sc (f := requestStopping) (fun _ _ => ⟨rfl, rfl⟩) _ _
  have h : s₂.sc = s₁.sc ∧ s₂.tk = s.tk := ⟨(stopNotice_sc _ _ _).1.trans hf.1, (stopNotice_sc _ _ _).2.trans hf.2⟩
  have hs : SameStation s s₂ :=
    ((setStop_same _ _ _ _ _).trans (.forChans (fun _ _ => modMo_same _ _ _) _ _)).trans (stopNotice_same _ _ _)
  show ((if allAtRest s₂ then enterBraking s₂ else s₂).sc = _ ∨ (if allAtRest s₂ then enterBraking s₂ else s₂).sc = _) ∧
    (if allAtRest s₂ then enterBraking s₂ else s₂).tk = s.tk
  split
  · refine ⟨.inr ?_, (enterBraking_sc s₂).2.trans h.2⟩
    rw [(enterBraking_sc s₂).1, h.1, hs.clock, hs.cfg]; rfl
  · exact ⟨.inl h.1, h.2⟩

/-! ## What a cause makes of the stop controller -/

/-- The records after a cause are those of R120, whatever state the cause leads to. -/
theorem raiseCause_records (k : CauseKind) (o c z : Byte) (s : State) :
    (raiseCause k o c z s).sc.last =
        some { kind := k, origin := o, channel := c, zone := z, frame := s.ft.count, met := s.sc.state } ∧
      (raiseCause k o c z s).sc.first =
        (if underWay s.sc.state then
          some { kind := k, origin := o, channel := c, zone := z, frame := s.ft.count, met := s.sc.state } else s.sc.first) ∧
      (raiseCause k o c z s).sc.causes = satIncr 255 s.sc.causes := by
  have act : ∀ (cut : Bool) (t : State), (actOnCause cut t).sc.last = t.sc.last ∧ (actOnCause cut t).sc.first = t.sc.first ∧
      (actOnCause cut t).sc.causes = t.sc.causes := by
    intro cut t
    obtain ⟨-, h⟩ | ⟨-, h⟩ | ⟨-, h⟩ | ⟨-, h⟩ := actOnCause_cases cut t <;> rw [h]
    · split
      · rw [(enterBrakingCut_sc t).1]; exact ⟨rfl, rfl, rfl⟩
      · obtain ⟨h | h, -⟩ := enterStopping_sc t <;> rw [h] <;> exact ⟨rfl, rfl, rfl⟩
    · split
      · rw [(enterBrakingCut_sc t).1]; exact ⟨rfl, rfl, rfl⟩
      · exact ⟨rfl, rfl, rfl⟩
    · split
      · rw [(forChans_sc cutChannel_sc _ _).1]; exact ⟨rfl, rfl, rfl⟩
      · exact ⟨rfl, rfl, rfl⟩
    · exact ⟨rfl, rfl, rfl⟩
  unfold raiseCause
  obtain ⟨a, b, d⟩ := act (isCut k)
    (if k ≠ .peerStop && underWay s.sc.state then makeStopBody k o c z (recordCause k o c z s) else recordCause k o c z s)
  refine ⟨a.trans ?_, b.trans ?_, d.trans ?_⟩ <;> split <;> rfl

end Sys2Proof.Machine
end

