-- ==== Sys2Proof/Laws/Channels.lean ====
section
/-! SUPPORT. What an operation carried out for each channel leaves in each channel's motion record, and the channels after a cause and
after the entries into stop states. -/

namespace Sys2Proof.Machine

/-- The parts of the state that decide a mode request, the motion records apart. -/
structure SameReads (s t : State) : Prop where
  fb : t.fb = s.fb
  rf : t.rf = s.rf
  sc : t.sc = s.sc
  cfg : t.cfg = s.cfg

theorem SameReads.refl (s : State) : SameReads s s := ⟨rfl, rfl, rfl, rfl⟩

theorem SameReads.trans {s t u : State} (h : SameReads s t) (g : SameReads t u) : SameReads s u :=
  ⟨g.fb.trans h.fb, g.rf.trans h.rf, g.sc.trans h.sc, g.cfg.trans h.cfg⟩

theorem modMo_reads (ch : Chan) (f : Motion → Motion) (s : State) : SameReads s (modMo ch f s) := ⟨rfl, rfl, rfl, rfl⟩

/-- An operation on channels that each change their own motion record, by what the records and the rest of the state say. -/
theorem forChans_mo (f : Chan → State → State) (keep : ∀ ch s, SameReads s (f ch s))
    (other : ∀ ch c s, c ≠ ch → (f ch s).mo.get c = s.mo.get c)
    (own : ∀ ch s t, SameReads s t → t.mo.get ch = s.mo.get ch → (f ch t).mo.get ch = (f ch s).mo.get ch)
    (chans : List Chan) (nodup : chans.Nodup) (s : State) :
    SameReads s (forChans f chans s) ∧
      ∀ ch, (forChans f chans s).mo.get ch = if ch ∈ chans then (f ch s).mo.get ch else s.mo.get ch := by
  induction chans generalizing s with
  | nil => exact ⟨.refl s, fun ch => by simp [forChans]⟩
  | cons c rest ih =>
    obtain ⟨hc, hr⟩ := List.nodup_cons.mp nodup
    obtain ⟨h₁, h₂⟩ := ih hr (f c s)
    refine ⟨(keep c s).trans h₁, fun ch => ?_⟩
    show (forChans f rest (f c s)).mo.get ch = _
    rw [h₂ ch]
    by_cases h : ch = c
    · subst h; simp [hc]
    · by_cases hm : ch ∈ rest
      · simp [hm, own ch s (f c s) (keep c s) (other c ch s h)]
      · simp [hm, h, other c ch s h]

theorem axisChans_nodup (s : State) : (axisChans s).Nodup := List.Nodup.filter _ (by decide)

@[simp] theorem mem_axisChans (s : State) (ch : Chan) : ch ∈ axisChans s ↔ isAxis s ch = true := by
  cases ch <;> simp [axisChans, Chan.list]

/-! ## The stop controller's requests -/

theorem cutChannel_reads (ch : Chan) (s : State) : SameReads s (cutChannel ch s) := by
  unfold cutChannel; split
  · exact .refl s
  · exact modMo_reads _ _ _

theorem cutChannel_other (ch c : Chan) (s : State) (h : c ≠ ch) : (cutChannel ch s).mo.get c = s.mo.get c := by
  unfold cutChannel; split
  · rfl
  · exact modMo_get_ne _ _ _ _ h

theorem cutChannel_own (ch : Chan) (s t : State) (h : t.fb = s.fb) (hm : t.mo.get ch = s.mo.get ch) :
    (cutChannel ch t).mo.get ch = (cutChannel ch s).mo.get ch := by
  unfold cutChannel; rw [hm]; split
  · exact hm
  · simp [requestOff, hm, h]

/-- Channels cut: each of them is cut as it stood, and no other changes. -/
theorem cutAll (chans : List Chan) (nodup : chans.Nodup) (s : State) :
    SameReads s (forChans cutChannel chans s) ∧
      ∀ ch, (forChans cutChannel chans s).mo.get ch = if ch ∈ chans then (cutChannel ch s).mo.get ch else s.mo.get ch :=
  forChans_mo cutChannel cutChannel_reads cutChannel_other (fun ch s t h hm => cutChannel_own ch s t h.fb hm) chans nodup s

theorem stopAll (chans : List Chan) (nodup : chans.Nodup) (s : State) :
    SameReads s (forChans requestStopping chans s) ∧
      ∀ ch, (forChans requestStopping chans s).mo.get ch =
        if ch ∈ chans then (requestStopping ch s).mo.get ch else s.mo.get ch :=
  forChans_mo requestStopping (fun _ _ => modMo_reads _ _ _) (fun _ _ _ h => modMo_get_ne _ _ _ _ h)
    (fun ch s t _ hm => by simp [requestStopping, hm]) chans nodup s

theorem releaseAll (chans : List Chan) (nodup : chans.Nodup) (s : State) :
    SameReads s (forChans requestRelease chans s) ∧
      ∀ ch, (forChans requestRelease chans s).mo.get ch =
        if ch ∈ chans then (requestRelease ch s).mo.get ch else s.mo.get ch :=
  forChans_mo requestRelease (fun _ _ => modMo_reads _ _ _) (fun _ _ _ h => modMo_get_ne _ _ _ _ h)
    (fun ch s t h hm => by simp [requestRelease, hm, h.fb]) chans nodup s

/-! ## Requests that can be refused -/

theorem ask_reads (r : ModeRequest) (ch : Chan) (s : State) : SameReads s (ask r ch s) := by
  obtain ⟨h, -⟩ | ⟨h, -⟩ := ask_cases r ch s <;> rw [h]
  · exact .refl s
  · exact modMo_reads _ _ _

theorem ask_other (r : ModeRequest) (ch c : Chan) (s : State) (h : c ≠ ch) : (ask r ch s).mo.get c = s.mo.get c := by
  obtain ⟨h', -⟩ | ⟨h', -⟩ := ask_cases r ch s <;> rw [h']
  exact modMo_get_ne _ _ _ _ h

theorem refusal_reads (r : ModeRequest) (ch : Chan) (s t : State) (h : SameReads s t) (hm : t.mo.get ch = s.mo.get ch) :
    refusal r ch t = refusal r ch s := by
  unfold refusal referenced chanCfg; rw [h.sc, h.rf, h.cfg, hm]

/-- The motion record of a channel after a request: as accepted, or as it was. -/
theorem ask_get (r : ModeRequest) (ch : Chan) (s : State) :
    (ask r ch s).mo.get ch = if refusal r ch s = none then acceptMode r (s.mo.get ch) else s.mo.get ch := by
  obtain ⟨h, h'⟩ | ⟨h, h'⟩ := ask_cases r ch s <;> simp [h, h']

theorem ask_own (r : ModeRequest) (ch : Chan) (s t : State) (h : SameReads s t) (hm : t.mo.get ch = s.mo.get ch) :
    (ask r ch t).mo.get ch = (ask r ch s).mo.get ch := by
  rw [ask_get, ask_get, refusal_reads r ch s t h hm, hm]

/-- LIVE requests: a bound channel that R22 lets go LIVE does, and no other channel changes (R55). -/
theorem liveRequests_mo (s : State) :
    SameReads s (liveRequests s) ∧
      ∀ ch, (liveRequests s).mo.get ch =
        if isAxis s ch = true ∧ refusal .live ch s = none then { s.mo.get ch with mode := .live } else s.mo.get ch := by
  have h := forChans_mo (fun ch t => if (chanCfg t ch).bindKind = .none then t else ask .live ch t)
    (fun ch t => by split; exacts [.refl t, ask_reads _ _ _])
    (fun ch c t hc => by split; exacts [rfl, ask_other _ _ _ _ hc])
    (fun ch s t hr hm => by
      have hc : chanCfg t ch = chanCfg s ch := by unfold chanCfg; rw [hr.cfg]
      rw [hc]
      split
      · exact hm
      · exact ask_own _ _ _ _ hr hm) (axisChans s) (axisChans_nodup s) s
  refine ⟨h.1, fun ch => (h.2 ch).trans ?_⟩
  by_cases ha : isAxis s ch = true
  · simp only [mem_axisChans, ha, true_and, if_true]
    split
    · rename_i hb
      have : refusal .live ch s ≠ none := by
        unfold refusal
        repeat' split
        all_goals simp_all
      simp [this]
    · rw [ask_get]; rfl
  · simp [ha]

/-! ## The notice -/

theorem failRunStopped_mo (ch : Chan) (s : State) : (failRunStopped ch s).mo = s.mo := by
  simp only [failRunStopped]; split <;> rfl

theorem takeStopped_mo (s : State) : (takeStopped s).mo = s.mo ∧ (takeStopped s).rf = s.rf ∧ (takeStopped s).fb = s.fb := by
  unfold takeStopped; split <;> exact ⟨rfl, rfl, rfl⟩

theorem stoppedLamp_mo (new : StopState) (s : State) :
    (stoppedLamp new s).mo = s.mo ∧ (stoppedLamp new s).rf = s.rf ∧ (stoppedLamp new s).fb = s.fb ∧
      (stoppedLamp new s).te = s.te ∧ (stoppedLamp new s).ts = s.ts := by
  unfold stoppedLamp; split <;> exact ⟨rfl, rfl, rfl, rfl, rfl⟩

/-- A notice of a state other than RUN makes no mode request. -/
theorem stopNotice_mo (old new : StopState) (s : State) (h : new ≠ .run) : (stopNotice old new s).mo = s.mo := by
  simp only [stopNotice, h, if_false]
  rw [(stoppedLamp_mo _ _).1]
  split
  · rw [(takeStopped_mo _).1]
    exact forChans_induct (fun t => t.mo = s.mo) failRunStopped Chan.list s
      (fun ch t ht => (failRunStopped_mo ch t).trans ht) rfl
  · rfl

/-- Leaving RUN ends the take work (R167). -/
theorem takeStopped_phase (s : State) : workingPhase (takeStopped s).te.phase = false := by
  unfold takeStopped; split <;> simp_all [workingPhase, endPhase, finishTake]

theorem stopNotice_phase (new : StopState) (s : State) (h : new ≠ .run) :
    workingPhase (stopNotice .run new s).te.phase = false := by
  simp only [stopNotice, h, if_false, ne_eq, not_false_eq_true, decide_true, Bool.and_self, if_true]
  rw [(stoppedLamp_mo _ _).2.2.2.1]
  exact takeStopped_phase _

/-! ## Channels after the entries -/

/-- After a cut every AXIS channel is cut as it stood. -/
theorem enterBrakingCut_mo (s : State) (ch : Chan) :
    (enterBrakingCut s).mo.get ch = if isAxis s ch = true then (cutChannel ch s).mo.get ch else s.mo.get ch := by
  let s₁ := setBrake false (setStop .braking none (some (after s.clock (s.cfg.brakeEngage * 1000))) none s)
  have h := (cutAll (axisChans s₁) (axisChans_nodup s₁) s₁).2 ch
  show (stopNotice s.sc.state .braking (forChans cutChannel (axisChans s₁) s₁)).mo.get ch = _
  rw [stopNotice_mo _ _ _ (by decide), h]
  have ha : ch ∈ axisChans s₁ ↔ isAxis s ch = true := mem_axisChans s₁ ch
  simp only [ha, cutChannel_own ch s s₁ rfl rfl]; rfl

theorem enterHalted_mo (s : State) (ch : Chan) :
    (enterHalted s).mo.get ch = if isAxis s ch = true then (cutChannel ch s).mo.get ch else s.mo.get ch := by
  let s₁ := setStop .halted none none none s
  have h := (cutAll (axisChans s₁) (axisChans_nodup s₁) s₁).2 ch
  show (stopNotice s.sc.state .halted (forChans cutChannel (axisChans s₁) s₁)).mo.get ch = _
  rw [stopNotice_mo _ _ _ (by decide), h]
  have ha : ch ∈ axisChans s₁ ↔ isAxis s ch = true := mem_axisChans s₁ ch
  simp only [ha, cutChannel_own ch s s₁ rfl rfl]; rfl

theorem enterBraking_mo (s : State) : (enterBraking s).mo = s.mo := stopNotice_mo _ _ _ (by decide)

/-- After entry into STOPPING every AXIS channel not in OFF is in HOLD at its setpoint, whether BRAKING follows at once or not. -/
theorem enterStopping_mo (s : State) (ch : Chan) :
    (enterStopping s).mo.get ch = if isAxis s ch = true then (requestStopping ch s).mo.get ch else s.mo.get ch := by
  let s₁ := setStop .stopping (some (after s.clock (s.cfg.stopTimeout * 1000))) none none s
  let s₂ := stopNotice s.sc.state .stopping (forChans requestStopping (axisChans s₁) s₁)
  have h := (stopAll (axisChans s₁) (axisChans_nodup s₁) s₁).2 ch
  have h₂ : s₂.mo.get ch = if isAxis s ch = true then (requestStopping ch s).mo.get ch else s.mo.get ch := by
    show (stopNotice _ _ _).mo.get ch = _
    rw [stopNotice_mo _ _ _ (by decide), h]
    have ha : ch ∈ axisChans s₁ ↔ isAxis s ch = true := mem_axisChans s₁ ch
    simp only [ha]; rfl
  show (if allAtRest s₂ then enterBraking s₂ else s₂).mo.get ch = _
  split
  · rw [enterBraking_mo]; exact h₂
  · exact h₂

/-- A CUT cause in RUN, RELEASING or STOPPING: BRAKING with the brakes applied and every AXIS channel cut (R121). -/
theorem raiseCause_cut (k : CauseKind) (o c z : Byte) (s : State) (hk : isCut k = true)
    (hs : underWay s.sc.state = true ∨ s.sc.state = .stopping) :
    (raiseCause k o c z s).sc.state = .braking ∧ (raiseCause k o c z s).sc.brakeReleased = false ∧
      (raiseCause k o c z s).sc.stopTimer = none ∧ (raiseCause k o c z s).sc.releaseTimer = none ∧
      (raiseCause k o c z s).sc.brakeTimer = some (after s.clock (s.cfg.brakeEngage * 1000)) ∧
      ∀ ch, (raiseCause k o c z s).mo.get ch = if isAxis s ch = true then (cutChannel ch s).mo.get ch else s.mo.get ch := by
  have key : ∀ s₂ : State, s₂.sc.state = s.sc.state → s₂.mo = s.mo → s₂.fb = s.fb → s₂.clock = s.clock → s₂.cfg = s.cfg →
      (actOnCause true s₂).sc.state = .braking ∧ (actOnCause true s₂).sc.brakeReleased = false ∧
      (actOnCause true s₂).sc.stopTimer = none ∧ (actOnCause true s₂).sc.releaseTimer = none ∧
      (actOnCause true s₂).sc.brakeTimer = some (after s.clock (s.cfg.brakeEngage * 1000)) ∧
      ∀ ch, (actOnCause true s₂).mo.get ch = if isAxis s ch = true then (cutChannel ch s).mo.get ch else s.mo.get ch := by
    intro s₂ hst hmo hfb hcl hcf
    have e : actOnCause true s₂ = enterBrakingCut s₂ := by
      unfold actOnCause; rw [hst]
      rcases hs with h | h
      · cases hq : s.sc.state <;> simp_all [underWay]
      · simp [h]
    rw [e, (enterBrakingCut_sc s₂).1, hcl, hcf]
    refine ⟨rfl, rfl, rfl, rfl, rfl, fun ch => ?_⟩
    have ha : isAxis s₂ ch = isAxis s ch := by unfold isAxis chanCfg; rw [hcf]
    rw [enterBrakingCut_mo, cutChannel_own ch s s₂ hfb (by rw [hmo]), ha, hmo]
  unfold raiseCause
  rw [hk]
  by_cases hl : (decide (k ≠ .peerStop) && underWay s.sc.state) = true
  · simp only [hl, if_true]; exact key _ rfl rfl rfl rfl rfl
  · simp only [hl]; exact key _ rfl rfl rfl rfl rfl

end Sys2Proof.Machine
end

