-- ==== Sys2Proof/Laws/Events.lean ====
section
/-! SUPPORT. What the parts of an update, of a frame event, of a send's end and of END can do, each said once; and the reference and
feedback records after every run has failed. -/

namespace Sys2Proof.Machine

/-! ## Ends of runs (R49) -/

@[simp] theorem clearRun_state (st : RefState) (b : Bool) (r : Reference) : (clearRun st b r).state = st := rfl
@[simp] theorem clearRun_offset (st : RefState) (b : Bool) (r : Reference) : (clearRun st b r).offset = none := rfl
@[simp] theorem clearRun_timer (st : RefState) (b : Bool) (r : Reference) : (clearRun st b r).timer = none := rfl
@[simp] theorem clearRun_stall (st : RefState) (b : Bool) (r : Reference) : (clearRun st b r).stall = 0 := rfl
@[simp] theorem clearRun_realign (st : RefState) (b : Bool) (r : Reference) : (clearRun st b r).realign = (r.realign || b) := rfl
@[simp] theorem clearRun_softLo (st : RefState) (b : Bool) (r : Reference) : (clearRun st b r).softLo = r.softLo := rfl
@[simp] theorem clearRun_softHi (st : RefState) (b : Bool) (r : Reference) : (clearRun st b r).softHi = r.softHi := rfl
@[simp] theorem dropEnds_endLo (r : Reference) : (dropEnds r).endLo = none := rfl
@[simp] theorem dropEnds_endHi (r : Reference) : (dropEnds r).endHi = none := rfl
@[simp] theorem dropEnds_state (r : Reference) : (dropEnds r).state = r.state := rfl
@[simp] theorem dropEnds_realign (r : Reference) : (dropEnds r).realign = r.realign := rfl

/-- The record of a channel after the failure of its run (R49). -/
def stoppedRun (c : ChanCfg) (r : Reference) : Reference :=
  if inRun r then dropEnds (clearRun (stoppedFrom r.origin) (c.refKind = .endStops) r) else r

theorem failRunStopped_cfg (ch : Chan) (s : State) : (failRunStopped ch s).cfg = s.cfg := by
  simp only [failRunStopped]; split <;> rfl

theorem failRunStopped_own (ch : Chan) (s : State) :
    (failRunStopped ch s).rf.get ch = stoppedRun (chanCfg s ch) (s.rf.get ch) ∧
      (failRunStopped ch s).fb.get ch = if inRun (s.rf.get ch) then disarm (s.fb.get ch) else s.fb.get ch := by
  simp only [failRunStopped, stoppedRun]; split <;> simp [modFb, modRf]

theorem failRunStopped_other (ch c : Chan) (s : State) (h : c ≠ ch) :
    (failRunStopped ch s).rf.get c = s.rf.get c ∧ (failRunStopped ch s).fb.get c = s.fb.get c := by
  simp only [failRunStopped]; split <;> simp [modFb, modRf, PerChan.get_set_ne _ _ _ _ h]

/-- Every channel after the failure of every run. -/
theorem failRuns_get (s : State) (ch : Chan) :
    (forChans failRunStopped Chan.list s).rf.get ch = stoppedRun (chanCfg s ch) (s.rf.get ch) ∧
      (forChans failRunStopped Chan.list s).fb.get ch = if inRun (s.rf.get ch) then disarm (s.fb.get ch) else s.fb.get ch := by
  have hc : ∀ k t, chanCfg (failRunStopped k t) ch = chanCfg t ch := fun k t => by
    simp only [chanCfg, failRunStopped_cfg]
  simp only [forChans, Chan.list]
  cases ch
  · simp only [failRunStopped_other _ _ _ (show Chan.A ≠ .C by decide), failRunStopped_other _ _ _ (show Chan.A ≠ .B by decide)]
    exact failRunStopped_own .A s
  · simp only [failRunStopped_other _ _ _ (show Chan.B ≠ .C by decide)]
    have h := failRunStopped_own .B (failRunStopped .A s)
    simpa only [failRunStopped_other _ _ _ (show Chan.B ≠ .A by decide), hc] using h
  · have h := failRunStopped_own .C (failRunStopped .B (failRunStopped .A s))
    simpa only [failRunStopped_other _ _ _ (show Chan.C ≠ .B by decide),
      failRunStopped_other _ _ _ (show Chan.C ≠ .A by decide), hc] using h

/-! ## A servo update's end (R33, R39) -/

theorem velocityReport_cases (s : State) :
    (velocityReport s = s ∧ (s.sc.state ≠ .stopping ∨ allAtRest s = false)) ∨
      (velocityReport s = enterBraking s ∧ s.sc.state = .stopping ∧ allAtRest s = true) := by
  unfold velocityReport
  split
  · next h => exact .inr ⟨rfl, by simpa using h⟩
  · next h => exact .inl ⟨rfl, by simpa [Classical.or_iff_not_imp_left] using h⟩

@[simp] theorem followingOnset_false (ch : Chan) (s : State) : followingOnset false ch s = s := rfl
@[simp] theorem followingOnset_true (ch : Chan) (s : State) : followingOnset true ch s = raiseChannel .following ch s := rfl

/-! ## A frame event's parts (R98, R102, R168) -/

theorem handConfirmed_cases (s : State) :
    (handConfirmed s = s ∧ s.pt.confirmed = none) ∨
      ∃ c, s.pt.confirmed = some c ∧ handConfirmed s = executeDesk c { s with pt := { s.pt with confirmed := none } } := by
  unfold handConfirmed
  cases h : s.pt.confirmed with
  | none => exact .inl ⟨rfl, rfl⟩
  | some c => exact .inr ⟨c, rfl, rfl⟩

theorem handRelease_cases (s : State) :
    handRelease s = s ∨ (handRelease s = handConfirmed s ∧ ∃ c, s.pt.confirmed = some c ∧ c.kind = codeDesk .release) := by
  unfold handRelease
  split
  · next h => exact .inr ⟨rfl, by simpa [Option.any_eq_true] using h⟩
  · exact .inl rfl

theorem lockNotice_cases (new : Lock) (s : State) :
    (lockNotice new s = loseTake .lockLost s ∧ new = .free) ∨ lockNotice new s = s ∨
      (lockNotice new s = { s with te := { s.te with holdover := true } } ∧ new = .holdover) := by
  unfold lockNotice
  split
  · exact .inl ⟨rfl, rfl⟩
  · split
    all_goals first | exact .inr (.inr ⟨rfl, rfl⟩) | exact .inr (.inl rfl)
  · exact .inr (.inl rfl)
  · exact .inr (.inl rfl)

/-! ## The end of a send (R76, R102) -/

theorem sentNotice_idle (seq : Byte) (c : DeskContent) (s : State) (h : deskActive s = false) : sentNotice seq c s = s := by
  simp [sentNotice, h]

/-- A sent notice changes the peer table's desk fields alone. -/
theorem sentNotice_frame (seq : Byte) (c : DeskContent) (s : State) : sentNotice seq c s = { s with pt := (sentNotice seq c s).pt } := by
  unfold sentNotice; split <;> rfl

/-! ## END (R155) -/

theorem filledNow_iff (s : State) :
    filledNow s = true ↔ s.te.filledAt = some s.clock ∧ s.te.result = .done ∧ s.te.fault = .storeFull := by
  simp [filledNow, and_assoc]

/-- What END does, by the phase it finds. -/
theorem endTake_cases (s : State) :
    (s.te.phase = .recording ∧ endTake s = endDone .none (finishTake .complete s)) ∨
      (s.te.phase = .armedRec ∧ endTake s = endPhase .aborted .none s) ∨
      (s.te.phase = .idle ∧ filledNow s = true ∧ endTake s = s) ∨
      (s.te.phase ≠ .recording ∧ s.te.phase ≠ .armedRec ∧ ¬(s.te.phase = .idle ∧ filledNow s = true)
        ∧ endTake s = refuseTake .busy s) := by
  cases h : s.te.phase <;> simp [endTake, h]
  cases filledNow s <;> simp

end Sys2Proof.Machine
end

