-- ==== Sys2Proof/Laws/Store.lean ====
section
/-! SUPPORT. The take memory: a read after a write, and the canonical form that every memory operation keeps. -/

namespace Sys2Proof.Machine

/-! ## Read after write -/

theorem slotRead_putSlot_ne (a b : Nat) (w : Word) (rest : List (Nat × Word)) (h : b ≠ a) :
    slotRead (putSlot a w rest) b = slotRead rest b := by
  unfold putSlot
  split
  · rfl
  · exact if_neg (Ne.symm h)

theorem slotRead_putSlot_same (a : Nat) (w : Word) (rest : List (Nat × Word)) (h : slotRead rest a = 0#32) :
    slotRead (putSlot a w rest) a = w := by
  unfold putSlot
  split
  · rename_i hw; rw [h, hw]
  · exact if_pos rfl

/-- Below the first listed slot every slot reads 0. -/
theorem slotRead_low (m : List (Nat × Word)) (low a : Nat) (h : slotsWfFrom low m = true) (ha : a < low) :
    slotRead m a = 0#32 := by
  induction m generalizing low with
  | nil => rfl
  | cons e rest ih =>
    obtain ⟨k, v⟩ := e
    simp only [slotsWfFrom, Bool.and_eq_true, decide_eq_true_eq] at h
    have hk : k ≠ a := by omega
    simp only [slotRead, if_neg hk]
    exact ih (k + 1) h.2 (by omega)

/-- A read after a write to the same slot gives what was written. -/
theorem slotRead_slotWrite_same (m : List (Nat × Word)) (low a : Nat) (w : Word) (h : slotsWfFrom low m = true) :
    slotRead (slotWrite m a w) a = w := by
  induction m generalizing low with
  | nil => exact slotRead_putSlot_same a w [] rfl
  | cons e rest ih =>
    obtain ⟨k, v⟩ := e
    have h' := h
    simp only [slotsWfFrom, Bool.and_eq_true, decide_eq_true_eq] at h
    unfold slotWrite
    split
    · rename_i hk
      refine slotRead_putSlot_same a w _ ?_
      have hne : k ≠ a := by omega
      simp only [slotRead, if_neg hne]
      exact slotRead_low rest (k + 1) a h.2 (by omega)
    · split
      · rename_i hk; exact slotRead_putSlot_same a w rest (slotRead_low rest (k + 1) a h.2 (by omega))
      · rename_i hk
        simp only [slotRead, if_neg (Ne.symm hk)]
        exact ih (k + 1) h.2

/-- A write leaves every other slot alone. -/
theorem slotRead_slotWrite_ne (m : List (Nat × Word)) (a b : Nat) (w : Word) (h : b ≠ a) :
    slotRead (slotWrite m a w) b = slotRead m b := by
  induction m with
  | nil => exact slotRead_putSlot_ne a b w [] h
  | cons e rest ih =>
    obtain ⟨k, v⟩ := e
    unfold slotWrite
    split
    · exact slotRead_putSlot_ne a b w _ h
    · split
      · rename_i hk; subst hk
        rw [slotRead_putSlot_ne a b w rest h]
        simp only [slotRead, if_neg (Ne.symm h)]
      · simp only [slotRead, ih]

/-! ## The canonical form -/

theorem slotsWfFrom_mono (m : List (Nat × Word)) (low low' : Nat) (h : low' ≤ low) (hm : slotsWfFrom low m = true) :
    slotsWfFrom low' m = true := by
  cases m with
  | nil => rfl
  | cons e rest =>
    obtain ⟨k, v⟩ := e
    simp only [slotsWfFrom, Bool.and_eq_true, decide_eq_true_eq] at hm ⊢
    exact ⟨⟨⟨by omega, hm.1.1.2⟩, hm.1.2⟩, hm.2⟩

theorem putSlot_wfFrom (a low : Nat) (w : Word) (rest : List (Nat × Word)) (hl : low ≤ a) (ha : a < 65536)
    (h : slotsWfFrom (a + 1) rest = true) : slotsWfFrom low (putSlot a w rest) = true := by
  unfold putSlot
  split
  · exact slotsWfFrom_mono rest (a + 1) low (by omega) h
  · rename_i hw
    simp only [slotsWfFrom, Bool.and_eq_true, decide_eq_true_eq]
    exact ⟨⟨⟨hl, ha⟩, hw⟩, h⟩

theorem slotWrite_wfFrom (m : List (Nat × Word)) (low a : Nat) (w : Word) (hl : low ≤ a) (ha : a < 65536)
    (h : slotsWfFrom low m = true) : slotsWfFrom low (slotWrite m a w) = true := by
  induction m generalizing low with
  | nil => exact putSlot_wfFrom a low w [] hl ha rfl
  | cons e rest ih =>
    obtain ⟨k, v⟩ := e
    have h' := h
    simp only [slotsWfFrom, Bool.and_eq_true, decide_eq_true_eq] at h
    unfold slotWrite
    split
    · rename_i hk
      refine putSlot_wfFrom a low w _ hl ha ?_
      simp only [slotsWfFrom, Bool.and_eq_true, decide_eq_true_eq]
      exact ⟨⟨⟨by omega, h.1.1.2⟩, h.1.2⟩, h.2⟩
    · split
      · rename_i hk; subst hk; exact putSlot_wfFrom a low w rest hl ha h.2
      · simp only [slotsWfFrom, Bool.and_eq_true, decide_eq_true_eq]
        exact ⟨h.1, ih (k + 1) (by omega) h.2⟩

/-- A write keeps the canonical form. -/
theorem slotWrite_wf (m : List (Nat × Word)) (a : Nat) (w : Word) (ha : a < 65536) (h : Memory.wf m = true) :
    Memory.wf (slotWrite m a w) = true := slotWrite_wfFrom m 0 a w (Nat.zero_le _) ha h

/-- The writing of consecutive samples keeps the canonical form. -/
theorem writeSamples_wf (m : List (Nat × Word)) (a : Nat) (ws : List Word) (ha : a + ws.length ≤ 65536)
    (h : Memory.wf m = true) : Memory.wf (writeSamples m a ws) = true := by
  induction ws generalizing m a with
  | nil => exact h
  | cons w ws ih =>
    simp only [List.length_cons] at ha
    exact ih _ (a + 1) (by omega) (slotWrite_wf m a w (by omega) h)

/-- The memory after a power reset has the canonical form. -/
theorem reset_memory_wf : Memory.wf State.reset.ts.slots = true := rfl

/-! ## Requests that write nothing -/

@[simp] theorem storeFinish_slots (o : TakeStatus) (ts : Store) : (storeFinish o ts).slots = ts.slots := rfl
@[simp] theorem storeFinish_free (o : TakeStatus) (ts : Store) : (storeFinish o ts).free = ts.free := rfl
@[simp] theorem storeFinish_check (o : TakeStatus) (ts : Store) : (storeFinish o ts).check = ts.check := rfl
@[simp] theorem storeAbandon_slots (ts : Store) : (storeAbandon ts).slots = ts.slots := rfl
@[simp] theorem storeAbandon_free (ts : Store) : (storeAbandon ts).free = ts.free := rfl
@[simp] theorem storeAbandon_dir (ts : Store) : (storeAbandon ts).dir = ts.dir := rfl
@[simp] theorem storeWarmReset_slots (ts : Store) : (storeWarmReset ts).slots = ts.slots := rfl
@[simp] theorem storeWarmReset_free (ts : Store) : (storeWarmReset ts).free = ts.free := rfl

theorem storeErase_slots (take : Nat) (ts : Store) : (storeErase take ts).2.slots = ts.slots := by
  unfold storeErase; split
  · rfl
  · split
    · rfl
    · split <;> rfl

theorem storeProtect_slots (take : Nat) (ts : Store) : (storeProtect take ts).2.slots = ts.slots := by
  unfold storeProtect; split <;> rfl

theorem storeCheck_slots (take : Nat) (now : Word) (ts : Store) : (storeCheck take now ts).2.slots = ts.slots := by
  unfold storeCheck; split
  · rfl
  · split <;> rfl

theorem storeCheckDone_slots (run : CheckRun) (ts : Store) : (storeCheckDone run ts).2.slots = ts.slots := by
  unfold storeCheckDone; split
  · rfl
  · split <;> rfl

/-- Create keeps the canonical form when the pages of the free-page list exist. -/
theorem storeCreate_wf (take : Nat) (mask kinds : PerChan Bool) (rate : Nat) (samples : List Word) (ts : Store)
    (hp : ∀ p ∈ ts.free, p < 128) (hs : samples.length ≤ 3) (h : Memory.wf ts.slots = true) :
    Memory.wf (storeCreate take mask kinds rate samples ts).2.slots = true := by
  unfold storeCreate
  split
  · exact h
  split
  · exact h
  split
  · exact h
  split
  · exact h
  · rename_i page rest hf
    have hpage : page < 128 := hp page (by simp [hf])
    refine writeSamples_wf _ _ _ ?_ h
    simp only [memorySlot, Config.slotsPerPage]
    omega

/-- A frame's slots lie in the take memory. -/
theorem frame_slots (k i page : Nat) (hk : k ≤ 3) (hp : page < 128) :
    memorySlot page (i % framesPerPage k * k) + k ≤ 65536 := by
  have h : i % framesPerPage k * k + k ≤ 512 := by
    interval_cases k
    · simp
    all_goals
      simp only [framesPerPage, Config.slotsPerPage]
      omega
  simp only [memorySlot, Config.slotsPerPage]
  omega

/-- A written frame keeps the canonical form. -/
theorem writeFrame_wf (e : Entry) (pages : List Nat) (samples : List Word) (ts : Store) (hp : ∀ p ∈ pages, p < 128)
    (hs : samples.length ≤ maskCount e.mask) (h : Memory.wf ts.slots = true) :
    Memory.wf (writeFrame e pages samples ts).slots = true := by
  have hk : maskCount e.mask ≤ 3 := by
    simp only [maskCount]
    have hb : ∀ b : Bool, b.toNat ≤ 1 := by intro b; cases b <;> simp
    have := hb e.mask.a; have := hb e.mask.b; have := hb e.mask.c; omega
  have hpage : pages.getD (e.length / framesPerPage (maskCount e.mask)) 0 < 128 := by
    by_cases hi : e.length / framesPerPage (maskCount e.mask) < pages.length
    · rw [List.getD_eq_getElem _ _ hi]; exact hp _ (List.getElem_mem hi)
    · rw [List.getD_eq_default _ _ (by omega)]; omega
  have hslots := frame_slots (maskCount e.mask) e.length _ hk hpage
  exact writeSamples_wf _ _ _ (le_trans (Nat.add_le_add_left hs _) hslots) h

/-- Append keeps the canonical form when the pages of the store exist and a frame has one sample for each channel. -/
theorem storeAppend_wf (samples : List Word) (ts : Store) (hp : ∀ p ∈ ts.free, p < 128)
    (he : ∀ e, recordingEntry ts.dir = some e → (∀ p ∈ e.pages, p < 128) ∧ samples.length ≤ maskCount e.mask)
    (h : Memory.wf ts.slots = true) : Memory.wf (storeAppend samples ts).2.slots = true := by
  unfold storeAppend
  split
  · exact h
  · rename_i e hr
    obtain ⟨hpe, hse⟩ := he e hr
    split
    · exact h
    · split
      · split
        · exact h
        · rename_i page rest hf
          refine writeFrame_wf e (e.pages ++ [page]) samples { ts with free := rest } ?_ hse h
          intro p hmem
          rcases List.mem_append.mp hmem with hm | hm
          · exact hpe p hm
          · rw [List.mem_singleton] at hm; subst hm; exact hp _ (by simp [hf])
      · exact writeFrame_wf e e.pages samples ts hpe hse h

end Sys2Proof.Machine
end

