-- ==== Sys2Proof/Laws/Time.lean ====
section
/-! SUPPORT. The passing of time: what a filter, a posted event, a due timer and each part of a microsecond can do, each said once; and
when a channel counts as in place. -/

namespace Sys2Proof.Machine

/-! ## Filters (R12, R104, R125, R170) -/

@[simp] theorem filterStep_same (hold : Nat) (f : Filt) : filterStep hold f.level f = ({ f with run := 0 }, false) := by
  simp [filterStep]

theorem filterStep_differs (hold : Nat) (sample : Bool) (f : Filt) (h : sample ≠ f.level) :
    filterStep hold sample f = ({ f with run := f.run + 1 }, decide (hold ≤ f.run)) := by
  simp [filterStep, h]

/-- A filter never changes its own level: its change is an event. -/
@[simp] theorem filterStep_level (hold : Nat) (sample : Bool) (f : Filt) : (filterStep hold sample f).1.level = f.level := by
  unfold filterStep; split <;> rfl

theorem filterStep_fires (hold : Nat) (sample : Bool) (f : Filt) :
    (filterStep hold sample f).2 = true ↔ f.level ≠ sample ∧ hold ≤ f.run := by
  unfold filterStep
  split
  · next h => simp [h]
  · next h => simp [Ne.symm h]

/-! ## Events found and events due -/

/-- Posting changes the events found by sampling alone. -/
theorem post_frame (events : List Instr) (s : State) : post events s = { s with sampled := (post events s).sampled } := by
  unfold post; split <;> rfl

@[simp] theorem post_flatten (events : List Instr) (s : State) :
    (post events s).sampled.flatten = s.sampled.flatten ++ events := by
  unfold post
  split
  · next h => simp [h]
  · simp

theorem mem_when (c : Bool) (i j : Instr) : j ∈ when_ c i ↔ c = true ∧ j = i := by
  cases c <;> simp [when_]

/-- A timed event is due exactly from its time on. -/
theorem mem_dueAt (now : Word) (time : Option Word) (i j : Instr) :
    j ∈ dueAt now time i ↔ j = i ∧ ∃ w, time = some w ∧ reached now w = true := by
  cases time <;> simp [dueAt, and_comm]

/-! ## The parts of a microsecond -/

theorem tickChain_frame (s : State) :
    tickChain s =
      { s with
        sampled := (tickChain s).sampled, sc := { s.sc with estop := (filterStep chainHold s.lines.estop s.sc.estop).1 } } := by
  simp only [tickChain]; rw [post_frame]

theorem tickPresence_frame (i : Fin 4) (s : State) :
    tickPresence i s =
      { s with
        sampled := (tickPresence i s).sampled
        zm := { s.zm with
          presence := s.zm.presence.set i.val
            (filterStep panelHold (readsOccupied s.cfg.polarity s.lines.presence i.val) (s.zm.presence.getD i.val ⟨true, 0⟩)).1 } } := by
  simp only [tickPresence]; rw [post_frame]

theorem tickFref_frame (s : State) :
    tickFref s =
      { s with
        sampled := (tickFref s).sampled
        ft := { s.ft with frefLow := if started s then !s.lines.fref else s.ft.frefLow } } := by
  unfold tickFref
  split
  · rw [post_frame]
  · rfl

theorem tickTrunk_frame (before : Word) (others : BitVec 4) (s : State) :
    tickTrunk before others s =
      { s with
        sampled := (tickTrunk before others s).sampled, tk := if started s then tickBits before s.clock others s.tk else s.tk } := by
  unfold tickTrunk
  split
  · rw [post_frame]
  · rfl

theorem tickPwm_frame (ch : Chan) (s : State) :
    tickPwm ch s = { s with sampled := (tickPwm ch s).sampled, mo := (tickPwm ch s).mo } := by
  unfold tickPwm
  split
  · rw [post_frame]; rfl
  · rfl

theorem tickEncoder_frame (w : Wave) (ch : Chan) (s : State) :
    tickEncoder w ch s = { s with sampled := (tickEncoder w ch s).sampled, fb := (tickEncoder w ch s).fb } := by
  unfold tickEncoder
  split
  · simp only []; rw [post_frame]; rfl
  · rfl

theorem tickSwitch_frame (ch : Chan) (sw : Switch) (before now : Bool) (s : State) :
    tickSwitch ch sw before now s =
      { s with sampled := (tickSwitch ch sw before now s).sampled, fb := (tickSwitch ch sw before now s).fb } := by
  simp only [tickSwitch]; rw [post_frame, post_frame]; rfl

/-! ## In place (R158) -/

theorem inPlace_iff (c : ChanCfg) (m : Motion) :
    inPlace c m = true ↔ m.ep.natAbs ≤ c.inPosition ∧ m.v = 0 ∧ (m.cap = 0 → m.p = m.target * 256) := by
  simp [inPlace, heldByCap, and_assoc, Classical.or_iff_not_imp_left]

/-! ## The abort watch (R175) -/

theorem watchAfter_cases (kind : DeskKind) (serial : Nat) (d : Desk) :
    ((kind = .record ∨ kind = .run) ∧ watchAfter kind serial d = (some serial, false)) ∨
      (kind ≠ .record ∧ kind ≠ .run ∧ watchAfter kind serial d = (if d.watched = some serial then none else d.watched, d.done)) := by
  unfold watchAfter
  cases kind <;> simp

end Sys2Proof.Machine
end

