-- ==== Sys2Proof/WellFormed.lean ====
section
/-! DEFINITION. Which commands the outside can send: the ranges the spec gives the operands of a command. exec is defined on
every command, well-formed or not. -/

namespace Sys2Proof

/-- A desk command's serial lies from 1 to 15 (R98). -/
def wfSerial (serial : Byte) : Bool := 1 ≤ serial.toNat && serial.toNat ≤ 15

/-- The answer of a configuration memory: it answers at least the two length bytes, and every byte up to the length they give
when that length is one the start-up unit reads (R178). -/
def wfMemory : Option (List Byte) → Bool
  | none => true
  | some m =>
    let n := 256 * (m.getD 0 0).toNat + (m.getD 1 0).toNat
    2 ≤ m.length && (n < 286 || 1024 < n || n ≤ m.length)

/-- A zone id lies from 1 to 16 (R109). -/
def wfZone (zone : Nat) : Bool := 1 ≤ zone && zone ≤ 16

/-- The commands whose operands lie in the ranges the spec gives them. -/
def Instr.wellFormed : Instr → Bool
  | .startUpFinish memory => wfMemory memory
  | .clearHoldExpiry zone => wfZone zone
  | .record serial _ _ => wfSerial serial
  | .endTake serial => wfSerial serial
  | .cue serial _ => wfSerial serial
  | .run serial _ _ _ _ => wfSerial serial
  | .abort serial => wfSerial serial
  | .erase serial _ => wfSerial serial
  | .protect serial _ => wfSerial serial
  | .live serial => wfSerial serial
  | .powerReset | .warmReset | .resetRelease _ | .legalTransition _ _ | .illegalTransition _ | .leakEvent _ | .indexRise _
  | .analogConversion _ _ | .limitFilteredChange _ _ _ | .servoUpdate _ | .frefArrival | .frameDeadlineExpiry | .frameStart
  | .lineQuiet _
  | .publishTimeExpiry | .wheelTimerExpiry | .sendStart _ | .sendEnd _ | .wheelStaleExpiry _ | .runTimerExpiry _
  | .presenceFilteredChange _ _ | .zoneScan | .estopFilteredChange _ | .stopTimerExpiry | .brakeTimerExpiry
  | .releaseTimerExpiry | .checkRunCompletion | .reference | .release | .buttonPress _ | .stopButtonPress | .releaseKeyPress
  | .releaseKeyLetgo | .releaseHoldExpiry | .refusalLampExpiry | .panelScan | .pwmPeriodStart _ | .provisionalCountNoted _ _ _
  | .frameOversize => true

end Sys2Proof
end

