-- ==== Sys2Proof/Tests/Slice0.lean ====
section
/-! SUPPORT. Tests: the ranges of operands, the spec's worked cases on the shared operations, one step of commands on a small station,
and for each obligation with hypotheses a state that meets them. Expected values come from spec/ (the place is named) or by hand from
the spec's formula. -/

namespace Sys2Proof.Tests

open Sys2Proof Sys2Proof.Machine

set_option Elab.async false

/-! ## Ill-formed commands are refused by the check -/

theorem test_wf_memory_too_short : (Instr.startUpFinish (some [1])).wellFormed = false := by decide
theorem test_wf_memory_ends_early : (Instr.startUpFinish (some [1, 30, 1])).wellFormed = false := by decide
theorem test_wf_memory_silent : (Instr.startUpFinish none).wellFormed = true := by decide
theorem test_wf_zone_ids : (Instr.clearHoldExpiry 0).wellFormed = false ∧ (Instr.clearHoldExpiry 17).wellFormed = false
    ∧ (Instr.clearHoldExpiry 16).wellFormed = true := by decide
theorem test_wf_serials : [Instr.record 0 1 4, .endTake 16, .cue 0 1, .run 16 1 4 256 2, .abort 0, .erase 16 1, .protect 0 1,
    .live 16].all (fun c => !c.wellFormed) = true ∧ (Instr.record 15 1 4).wellFormed = true := by decide

/-! ## Arithmetic and formats -/

/-- The square root of step 5 of section 2.4.1, and its neighbour. -/
theorem test_isqrt : isqrt 13107200000 = 114486 ∧ isqrt 524288000000 = 724077 ∧ isqrt 0 = 0 ∧ isqrt 3 = 1 := by decide +kernel

/-- The check value of a CRC-16 with the parameters of section 4.4, over the digits 1 to 9: 29B1. -/
theorem test_crc16 : crc16 [49, 50, 51, 52, 53, 54, 55, 56, 57] = 0x29B1#16 := by decide +kernel

/-- The check value of the CRC-32 of section 4.4 over the same digits: CBF43926. -/
theorem test_crc32 : ~~~([49, 50, 51, 52, 53, 54, 55, 56, 57].foldl crc32Byte crc32Start) = 0xCBF43926#32 := by decide +kernel

/-- After six bits of one level a bit of the other level is put in, and taken out again (R71). -/
theorem test_stuffing : stuff [false, false, false, false, false, false, true]
      = [false, false, false, false, false, false, true, true]
    ∧ unstuff [false, false, false, false, false, false, true, true] = [false, false, false, false, false, false, true] := by
  decide

/-- The start pattern of a frame, 53 and 202 (section 12.4.1), and the kind, length and source of a WHEEL frame of station 2. -/
theorem test_envelope : (envelope 2 2 (List.replicate 13 0)).take 5 = [53, 202, 2, 13, 2] := by decide +kernel

/-- The lengths of the three bodies (section 12.4.1): STOP 9, WHEEL 13. -/
theorem test_body_lengths :
    (stopBytes { origin := 9, kind := .zoneBreach, channel := 0, zone := 4, frame := 7, serial := 1 }).length = 9
      ∧ (wheelBytes 0 (.all 0)).length = 13 := by decide

/-! ## The motion unit's worked cases -/

/-- The swing axis of section 2.4.1 with the servo parameters of section 2.5.1. -/
def swing : ChanCfg :=
  { ChanCfg.unused with
    kind := .axis, limits := true, vmax := 102400, amax := 2560, astop := 5120, kp := 800, ki := 40, kf := 64, sh := 2
    imax := 200000, feLimit := 100, pwmPeriod := 1000, refKind := .index, refSpeed := 1280, refPosition := 1000
    parkPosition := 5000, softLo := -400000, softHi := 400000, refTimeout := 60, inPosition := 4, takeTolerance := 16
    bindKind := .rate, srcStation := 2, srcChannel := 1, wheelTimeout := 20, center := 2048, deadband := 40, gain := 64 }

/-- What its update reads: hold point 10,000, cap 50, X = 165. -/
def swingInput : UpdateInput :=
  { target := 10000, base := 102400, point := true, stopping := false, cap := 50, x := 165, limPos := false, limNeg := false
    ref := true, softLo := -400000, softHi := 400000, endStops := false }

/-- Section 2.4.1: v′, P′, sd and lag of the table. -/
theorem test_limiter_case :
    (let m := limiter swingInput swing { Motion.initial with v := 40960 }
     m.v = 43520 ∧ m.p = 43520 ∧ m.sd = 723 ∧ m.lag = 9830 ∧ m.target = 10000 ∧ m.targetClamped = false) := by decide +kernel

/-- Section 2.4.2: the first and the last update of the ramp, astop off the velocity, and rest. -/
theorem test_stopping_case :
    (let i := { swingInput with stopping := true, target := 170 }
     let m := limiter i swing { Motion.initial with v := 43520, p := 43520 }
     m.v = 38400 ∧ m.p = 320 * 256 ∧ m.sd = 563
       ∧ (limiter i swing { Motion.initial with v := 2560, p := 810 * 256 }).v = 0) := by decide +kernel

/-- Section 2.5.1: ep, u, I and the high width of the table. -/
theorem test_servo_case :
    (let m := servoLaw swingInput swing { Motion.initial with v := 43520, p := 43520, integ := 1200 }
     m.ep = 5 ∧ m.u = 4020 ∧ m.integ = 1400 ∧ m.pwmNext = 122 ∧ m.dirNext = false ∧ m.saturated = false) := by decide +kernel

/-- Section 2.5.2, update 1: the drive at its limit holds the integrator; and the rounding of a sum of −16,081. -/
theorem test_saturation_case :
    (let c := { swing with kf := 0, imax := 60000 }
     let m := servoLaw { swingInput with x := -200 } c { Motion.initial with integ := 50000 }
     m.ep = 200 ∧ m.u = 32767 ∧ m.saturated = true ∧ m.integ = 50000)
      ∧ rawDrive swing (-16081) = -4021 ∧ highWidth 1000 (-4021) = 122 := by decide +kernel

/-- A setpoint that would pass soft_hi stops on it (R31). -/
theorem test_soft_limit : softClamp swingInput (400000 * 256 - 10) 100 = (400000 * 256, 0, true) := by decide

/-! ## Bindings, takes and the store -/

/-- The points of section 3.8.1. -/
def zoomMap : List MapPoint := [⟨0, 0⟩, ⟨1000, 20000⟩, ⟨3000, 65535⟩]

/-- The five lines of section 3.8.1. -/
theorem test_map_case : mapRing zoomMap 1500 = (31383, false) ∧ mapRing zoomMap 500 = (10000, false)
    ∧ mapRing zoomMap 3000 = (65535, false) ∧ mapRing zoomMap 3400 = (65535, true) ∧ mapRing zoomMap (-60) = (0, true) := by
  decide +kernel

/-- The targets of the first two lines of section 3.8.1, on soft limits 1,200 and 41,200. -/
theorem test_map_targets : countOfRing 1200 41200 31383 = 20354 ∧ countOfRing 1200 41200 10000 = 7303 := by decide

/-- Section 3.9.1: the joystick at 2,688 asks for 150 counts beyond the setpoint; a STALE source asks for none. -/
theorem test_rate_case : rateTarget swing { Binding.initial with held := some 2688, fresh := true } 256000100 = 1000150
    ∧ rateTarget swing { Binding.initial with held := some 2688 } 256000100 = 1000000 := by decide

/-- Section 10.5.1: φ and the target between frames 5 and 6, floored on a falling segment. -/
theorem test_interpolation_case : framePart 7000 40000 = 11468
    ∧ interpolate (fun i => if i = 5 then 12000 else 11700) 7 333414 = 11973 := by decide +kernel

/-- A take of three channels on pages 5, 6 and 7 (section 9.3.1). -/
def threeChannels : Entry :=
  { take := 14, status := .complete, protect := false, mask := .all true, normalized := .all false, rate := 2, length := 346
    pages := [5, 6, 7], crc := 0 }

/-- The memory slots of the table of section 9.3.1. -/
theorem test_sample_slots : sampleSlot threeChannels 0 .A = 2560 ∧ sampleSlot threeChannels 169 .C = 3069
    ∧ sampleSlot threeChannels 170 .A = 3072 ∧ sampleSlot threeChannels 345 .C = 3601 := by decide

/-- Writing 0 removes an entry, and the form stays canonical (R135). -/
theorem test_slot_write : slotWrite [(3, 7), (9, 1)] 3 0 = [(9, 1)] ∧ slotWrite [(3, 7), (9, 1)] 5 2 = [(3, 7), (5, 2), (9, 1)]
    ∧ slotRead [(3, 7), (9, 1)] 65535 = 0 ∧ Memory.wf [(3, 7), (9, 1)] = true := by decide

/-- The statuses of R112 at the ends of an interval from 100 to 200. -/
theorem test_term_statuses : statusOfInputs 100 200 100 0 0 = .inside ∧ statusOfInputs 100 200 50 5 49 = .clear
    ∧ statusOfInputs 100 200 50 5 50 = .reachable ∧ statusOfInputs 100 200 50 (-5) 50 = .clear
    ∧ statusOfInputs 100 200 250 (-5) 50 = .reachable := by decide

/-- Conversions of 64 and 65,471 are good, 63 and 65,472 are rail samples (R11); the average of R10 with its sign. -/
theorem test_analog : railSample 63 = true ∧ railSample 64 = false ∧ railSample 65471 = false ∧ railSample 65472 = true
    ∧ analogPosition { swing with analogZero := 32768 } 32000 = -768
    ∧ analogPosition { swing with analogZero := 32768, reversed := true } 32000 = 768 := by decide

/-- The accepted pair 00, 10, 11, 01 counts up in that order (R3). -/
theorem test_quadrature : stepOf false false false .qa = 1 ∧ stepOf false true false .qb = 1 ∧ stepOf false true true .qa = 1
    ∧ stepOf false false true .qb = 1 ∧ stepOf false false false .qb = -1 ∧ stepOf true false false .qa = -1 := by decide

/-- The tolerance and half period of code 2, 40,000 µs (section 4.2 of chapter 4). -/
theorem test_frame_windows : goodInterval 2 39800 = true ∧ goodInterval 2 39799 = false ∧ goodInterval 2 40200 = true
    ∧ goodInterval 2 40201 = false ∧ Config.halfPeriod 2 = 20000 := by decide

/-- The gaps of section 5.4.4: STOP of station 9 in slot 9, WHEEL of station 2 in slot 34, STATE of station 4 in slot 68. -/
theorem test_access_gaps : accessGap .stop 9 = 9 ∧ accessGap .wheel 2 = 34 ∧ accessGap .state 4 = 68 := by decide

/-! ## A small station -/

/-- Station 5, which is also the desk: axis A on the swing parameters, wheel B, C unused, released and RUN, LOCKED and ALIGNED. -/
def station : State :=
  { State.reset with
    clock := 1000
    su := { phase := .done, validity := .valid, station := 5, buffer := [], heldByPower := true, resetRun := 0, bus := [] }
    cfg := { Cfg.unconfigured with desk := 5, chans := { a := swing, b := { ChanCfg.unused with kind := .wheel }, c := .unused } }
    fb := { a := { Feedback.initial with nextLeak := some 1000 }, b := { Feedback.initial with nextLeak := some 1000 }
            c := .initial }
    mo := { a := { Motion.initial with mode := .hold, nextUpdate := some 1000 }, b := .initial, c := .initial }
    rf := { a := { Reference.initial with state := .referenced, softLo := -400000, softHi := 400000 }, b := .initial
            c := .initial }
    ft := { FrameTimer.initial with lock := .locked, lockCount := 8, lastEvent := some 500, lastPulse := true
                                    deadline := some 40700, count := 100, aligned := true }
    sc := { StopCtl.initial 5 with
      state := .run, brakeReleased := true, first := none, last := none, causes := 0, estop := ⟨true, 0⟩ }
    dk := { Desk.initial with
      nextScan := some 1000, buttons := List.replicate 10 ⟨false, 0⟩, key := ⟨false, 0⟩
      selects := [⟨true, 0⟩, ⟨true, 0⟩] ++ List.replicate 7 ⟨false, 0⟩ } }

/-- The state a command leaves (every command answers one). -/
def outcome (c : Instr) (s : State) : State :=
  match exec c s with
  | .next t => t
  | _ => s

/-- The station with another feedback, motion or reference record of A, another stop state, phase or clock. -/
def withFb (f : Feedback → Feedback) : State := modFb .A f station
def withMo (f : Motion → Motion) : State := modMo .A f station
def withRf (f : Reference → Reference) : State := modRf .A f station
def inStop (st : StopState) (stop brake release : Option Word) : State :=
  { station with sc := { station.sc with
      state := st, brakeReleased := brakesOpenIn st, stopTimer := stop, brakeTimer := brake, releaseTimer := release
      first := if underWay st then none else some (.restart 5), causes := if underWay st then 0 else 1 } }
def inPhase (p : Phase) : State := { station with te := { station.te with phase := p, take := 14, length := 346 } }

/-- The take store with take 14 in it. -/
def oneTake : Store := { Store.initial with dir := [{ threeChannels with protect := true }], free := [0, 1, 2, 3, 4] }

/-! ## One step of commands -/

theorem test_legal_transition_counts : ((outcome (.legalTransition .A .qa) station).fb.get .A).x = 1 := by decide

theorem test_legal_transition_at_bound :
    (let t := outcome (.legalTransition .A .qa) (withFb fun f => { f with x := 2147483647 })
     (t.fb.get .A).x = 2147483647 ∧ (t.fb.get .A).saturation = true ∧ t.sc.state = .braking) := by decide +kernel

theorem test_illegal_transition_onset :
    (let t := outcome (.illegalTransition .A) (withFb fun f => { f with illegal := 7 })
     (t.fb.get .A).illegal = 8 ∧ t.sc.state = .braking ∧ (t.mo.get .A).mode = .off) := by decide +kernel

theorem test_leak_event : (let t := outcome (.leakEvent .A) (withFb fun f => { f with illegal := 8 })
    (t.fb.get .A).illegal = 7 ∧ (t.fb.get .A).nextLeak = some 101000) := by decide

/-- The fourth conversion of a group sets X to the floor of the average (R9, R10): (100 + 101 + 101 + 101) / 4 = 100. -/
theorem test_analog_conversion :
    ((outcome (.analogConversion .B 101)
      (modFb .B (fun f => { f with group := [100, 101, 101], nextConversion := some 1000 }) station)).fb.get .B).x = 100 := by
  decide +kernel

theorem test_hard_limit_toward : (outcome (.limitFilteredChange .A .pos true) (withMo fun m => { m with v := 5 })).sc.state
    = .braking := by decide +kernel
theorem test_hard_limit_away : (outcome (.limitFilteredChange .A .pos true) (withMo fun m => { m with v := -5 })).sc.state
    = .run := by decide +kernel

/-- A channel in HOLD at rest off its hold point starts toward it by amax (R30). -/
theorem test_servo_update : ((outcome (.servoUpdate .A)
    { withMo fun m => { m with hold := 10000 } with order := [0, 0, 0] }).mo.get .A).v = 2560 := by decide +kernel

theorem test_pwm_period : ((outcome (.pwmPeriodStart .A) (withMo fun m => { m with pwmNext := 122, dirNext := true })).mo.get
    .A).pwmHigh = 122 := by decide

theorem test_index_capture : ((outcome (.indexRise .A)
    (withFb fun f => { f with capture := .armed .index, x := 77 })).fb.get .A).capture = .captured 77 := by decide +kernel

/-- A rise of QI and its fall in one microsecond: the level stays low, the rise is still captured (R2, R7). A high level rises no more. -/
theorem test_index_rise_falls :
    (let t := outcome (.indexRise .A) (withFb fun f => { f with capture := .armed .index, x := 77, rises := 1 })
     (t.fb.get .A).capture = .captured 77 ∧ (t.fb.get .A).qi.level = false ∧ (t.fb.get .A).rises = 0)
    ∧ (let s := withFb fun f => { f with capture := .armed .index, qi := ⟨true, 0⟩ }
       outcome (.indexRise .A) s = s) := by decide +kernel

theorem test_provisional_count : ((outcome (.provisionalCountNoted .A .neg true)
    (withFb fun f => { f with capture := .armed .switchNeg, x := -9 })).fb.get .A).provisional = some (-9) := by decide +kernel

theorem test_reference_starts_run : (let t := outcome .reference (withRf fun r => { r with state := .notReferenced })
    (t.rf.get .A).state = .search1 ∧ (t.mo.get .A).mode = .ref ∧ (t.rf.get .A).timer = some 60001000) := by decide +kernel

theorem test_run_timer_fails : ((outcome (.runTimerExpiry .A)
    (withRf fun r => { r with state := .search1, timer := some 1000 })).rf.get .A).state = .failed .timeout := by decide +kernel

theorem test_wheel_stale : ((outcome (.wheelStaleExpiry .A)
    (modBd .A (fun b => { b with held := some 2048, fresh := true, timer := some 1000 }) station)).bd.get .A).fresh = false := by
  decide

/-- A pulse before 20,000 µs is a glitch; one at 40,000 µs counts a frame (R59, R62). -/
theorem test_fref_glitch : (let t := outcome .frefArrival { station with clock := 20499 }
    t.ft.glitches = 1 ∧ t.ft.count = 100) := by decide +kernel
theorem test_fref_pulse : (let t := outcome .frefArrival { station with clock := 40500, order := List.replicate 8 0 }
    t.ft.count = 101 ∧ t.ft.lock = .locked ∧ t.ft.deadline = some 80700) := by decide +kernel
theorem test_deadline_expiry :
    (let t := outcome .frameDeadlineExpiry { station with clock := 40700, order := List.replicate 8 0 }
     t.ft.count = 101 ∧ t.ft.lock = .holdover ∧ t.ft.deadline = some 80900) := by decide +kernel

/-- A frame of another kind is discarded under kind, one that is noise under framing (R82). -/
theorem test_line_quiet_discards :
    (let s := { station with tk := { station.tk with rx := .gathering } }
     (outcome (.lineQuiet (lineBits (envelope 9 2 [1, 2]))) s).tk.counters.kind = 1
       ∧ (outcome (.lineQuiet [false, true, false]) s).tk.counters.framing = 1) := by decide +kernel

theorem test_frame_start : (outcome .frameStart { station with tk := { station.tk with quietAt := some 900 } }).tk.rx
    = .gathering := by decide
theorem test_frame_oversize : (outcome .frameOversize
    { station with tk := { station.tk with rx := .gathering } }).tk.counters.oversize = 1 := by decide
theorem test_wheel_timer : (outcome .wheelTimerExpiry
    { station with tk := { station.tk with wheelTimer := some 1000 } }).tk.wheelSeq = 1 := by decide +kernel
theorem test_publish_time :
    (let body := buildBody (stopReport station) station
     (outcome .publishTimeExpiry { station with tk := { station.tk with stateSlot := .waiting body 1000 } }).tk.stateSlot
       = .ready body) := by decide +kernel

/-- A STOP body in the slot of station 5 begins at slot 5 of the quiet and leaves two repeats when it collides (R73, R75, R81). -/
def stopHeld : State :=
  { station with tk := { station.tk with
      quietAt := some 996
      stopSlot := some
        { body := { origin := 5, kind := .deskStop, channel := 0, zone := 0, frame := 100, serial := 0 }, repeats := 3 } } }
theorem test_send_start : (outcome (.sendStart .stop) stopHeld).clock = 1001 := by decide +kernel
theorem test_send_end_collides : (let t := outcome (.sendEnd [false, false, false]) (outcome (.sendStart .stop) stopHeld)
    t.tk.counters.collisions = 1 ∧ (t.tk.stopSlot.map fun x => x.repeats) = some 2) := by decide +kernel

/-- A station on a quiet line whose next sample falls from recessive at its first bit time defers: no send of its own begins (R74). -/
theorem test_defers :
    (let s := { station with
       tk := { station.tk with quietAt := some 996 }
       inputs := [{ waves := .all ⟨0, 0, 0⟩, trunk := 14, lines := station.lines }] }
     dueFrameStart s = [.frameStart] ∧ dueFrameStart { s with inputs := [] } = []) := by decide +kernel

/-- Zone 3 (spec's style of section 7): CREW, cap 30, armed always, acting on A, one term on A of this station from 100 to 200. -/
def zone (keepOut : Bool) (source : ArmSource) : Zone :=
  { cfg := { id := 3, keepOut := keepOut, cap := 30, source := source, clearHold := 2000
             actsOn := { a := true, b := false, c := false }, terms := [{ station := 5, channel := 1, lo := 100, hi := 200 }] }
    arming := .armed, timer := none, mark := false, status := .clear }
def withZones (zs : List Zone) (s : State) : State := { s with zm := { s.zm with zones := zs, nextScan := some 1000 } }

theorem test_scan_caps : ((outcome .zoneScan
    (withZones [zone false .always] (withMo fun m => { m with pos := 150 }))).zm.caps.get .A) = 30 := by decide +kernel
theorem test_scan_breach : (outcome .zoneScan
    (withZones [zone true .always] (withMo fun m => { m with pos := 150 }))).sc.state = .braking := by decide +kernel
theorem test_presence_clear_holds : ((outcome (.presenceFilteredChange 0 false)
    (withZones [zone true (.line 5 1)] station)).zm.zones.map fun z => (z.arming, z.timer))
      = [(.holding, some 2001000)] := by decide +kernel
theorem test_clear_hold : ((outcome (.clearHoldExpiry 3) (withZones
    [{ zone true (.line 5 1) with arming := .holding, timer := some 1000 }] station)).zm.zones.map fun z => z.arming)
      = [.disarmed] := by decide +kernel

theorem test_estop_opens : (let t := outcome (.estopFilteredChange false) station
    t.sc.state = .braking ∧ t.sc.causes = 1 ∧ (t.tk.stopSlot.map fun x => x.repeats) = some 3) := by decide +kernel
theorem test_stop_button_ramps : (let t := outcome .stopButtonPress (withMo fun m => { m with v := 43520, p := 43520 })
    t.sc.state = .stopping ∧ (t.mo.get .A).hold = 170) := by decide +kernel
theorem test_stop_timer : (outcome .stopTimerExpiry (inStop .stopping (some 1000) none none)).sc.state = .braking := by
  decide +kernel
theorem test_brake_timer : (outcome .brakeTimerExpiry (inStop .braking none (some 1000) none)).sc.state = .halted := by
  decide +kernel
theorem test_release_timer : (let t := outcome .releaseTimerExpiry (inStop .releasing none none (some 1000))
    t.sc.state = .run ∧ (t.mo.get .A).mode = .live) := by decide +kernel
theorem test_release_waits : (outcome .release station).sc.pendingRelease = true := by decide
theorem test_release_refused : (executeRelease
    { inStop .halted none none none with sc := { (inStop .halted none none none).sc with estop := ⟨false, 0⟩ } }).sc.resultCause
      = some .estopChain := by decide +kernel

theorem test_record_armed : (outcome (.record 1 14 104) station).te.phase = .armedRec := by decide +kernel
theorem test_record_late : (outcome (.record 1 14 100) station).te.fault = .lateStart := by decide +kernel
/-- A station with desk field 0 executes no desk command (R98). -/
theorem test_desk_zero : (let s := { station with cfg := { station.cfg with desk := 0 } }
    outcome .release s = s ∧ outcome .reference s = s ∧ outcome (.record 1 14 104) s = s) := by decide +kernel
theorem test_end_refused : (outcome (.endTake 2) station).te.fault = .busy := by decide
theorem test_cue_missing : (outcome (.cue 3 14) station).te.fault = .takeMissing := by decide +kernel
theorem test_run_scheduled : (let t := outcome (.run 4 14 104 40 346) (inPhase .cued)
    t.te.start = some 104 ∧ t.te.rate = 64 ∧ t.te.playLen = 346) := by decide +kernel
theorem test_run_short : (outcome (.run 4 14 104 256 1) (inPhase .cued)).te.fault = .shortTake := by decide +kernel
theorem test_abort : (outcome (.abort 5) (inPhase .cued)).te.result = .aborted := by decide +kernel
theorem test_erase_protected : (outcome (.erase 6 14) { station with ts := oneTake }).te.fault = .takeProtected := by
  decide +kernel
theorem test_protect_inverts : ((outcome (.protect 7 14) { station with ts := oneTake }).ts.dir.map fun e => e.protect)
    = [false] := by decide +kernel
theorem test_live : ((outcome (.live 8) station).mo.get .A).mode = .live := by decide +kernel
theorem test_check_damaged :
    (let t := outcome .checkRunCompletion
       { inPhase .checking with ts := { oneTake with
           dir := [{ threeChannels with length := 1, crc := 1 }], check := some { take := 14, completes := 1000 } } }
     t.te.fault = .takeDamaged ∧ (t.ts.dir.map fun e => e.status) = [.damaged]) := by decide +kernel

/-- Select lines TS0 and TS1 read 1: take 3, published four frames ahead (R172, R174). -/
theorem test_button_record : (let t := outcome (.buttonPress .record) station
    t.dk.current.take = 3 ∧ t.dk.current.start = 104 ∧ t.dk.serial = 1) := by decide +kernel
theorem test_button_refused : (outcome (.buttonPress .cue) { station with dk := { station.dk with
    selects := List.replicate 9 ⟨false, 0⟩ } }).dk.refusalTimer = some 1001000 := by decide +kernel
theorem test_key_press : (outcome .releaseKeyPress station).dk.holdTimer = some 1001000 := by decide
/-- A key or a button PRESSED already gives no press (R170, R171). -/
theorem test_held_presses : (let s := outcome .releaseKeyPress { station with clock := 500 }
    outcome .releaseKeyPress { s with clock := 1000 } = { s with clock := 1000 })
  ∧ (let s := { station with dk := { station.dk with buttons := List.replicate 10 ⟨true, 0⟩ } }
     outcome (.buttonPress .record) s = s ∧ outcome .stopButtonPress s = s) := by decide +kernel
theorem test_key_letgo : (outcome .releaseKeyLetgo (outcome .releaseKeyPress station)).dk.holdTimer = none := by decide
theorem test_key_held : (outcome .releaseHoldExpiry
    { station with dk := { station.dk with holdTimer := some 1000 } }).dk.current.kind = 10 := by decide +kernel
theorem test_refusal_lamp : refusedLamp (outcome .refusalLampExpiry
    { station with dk := { station.dk with refusalTimer := some 1000 } }) = false := by decide
theorem test_panel_scan : (outcome .panelScan (inPhase .recording)).dk.lamps.recording = true := by decide +kernel

theorem test_power_reset : (outcome .powerReset { station with ts := oneTake }).ts.dir = [] := by decide +kernel
theorem test_warm_reset_interrupts : ((outcome .warmReset { station with ts := { oneTake with
    dir := [{ threeChannels with status := .recording }] } }).ts.dir.map fun e => e.status) = [.interrupted] := by decide +kernel
/-- The bus actions of R178; the supply's release leaves the RESET line as it stands. -/
theorem test_reset_release :
    (let t := outcome (.resetRelease 5) { State.reset with lines := { State.reset.lines with reset := false } }
     t.su.station = 5 ∧ t.su.bus = [.clockPulses 10, .stop, .read 83 0] ∧ t.lines.reset = false) := by decide +kernel
theorem test_warm_in_power_hold : (outcome .warmReset State.reset).su.heldByPower = true
    ∧ (outcome .warmReset station).su.heldByPower = false := by decide +kernel

/-- The station on a quiet line with no event of its own due but the panel scan. -/
def resting : State :=
  { station with fb := .all .initial, mo := .all .initial, tk := { station.tk with quietAt := some 996 } }
def stepped (s : State) : Word × List Instr :=
  match step s with
  | .next t => (t.clock, t.pending)
  | _ => (0, [])

/-- With nothing waiting and nothing due, a step lets one microsecond pass (R57); a due event is put in the queue, alone. -/
theorem test_idle_ticks : stepped { resting with dk := { resting.dk with nextScan := none } } = (1001, []) := by decide +kernel
theorem test_idle_takes_due_event : stepped resting = (1000, [.panelScan]) := by decide +kernel

/-! ## States that meet the hypotheses of the obligations

One theorem for each obligation with hypotheses (O2, O3 and O11 have none but the cases they name); boundary values where a clause has
a range. -/

/-- An image of 306 bytes for station 5, the desk, at code 2: A an ABSOLUTE axis with a RATE binding, B and C unused, and CREW zone 3. -/
def image : List Byte :=
  [1, 50, 1, 5, 5, 2, 0, 0, 0, 0, 0, 0, 0, 0, 0, 0, 0, 10, 0, 10, 0, 0, 1, 1, 1, 0, 0, 0, 0, 0, 0, 0, 1, 144, 0, 10, 0,
      20, 0, 3, 32, 0, 40, 0, 64, 2, 0, 3, 13, 64, 0, 1, 134, 160, 3, 232, 3, 0, 0, 0, 5, 0, 0, 0, 3, 232, 0, 0, 19, 136,
      255, 249, 229, 128, 0, 6, 26, 128, 0, 0, 40, 0, 0, 78, 32, 0, 0, 0, 200, 23, 112, 0, 10, 0, 0, 3, 232, 2, 2, 1, 0, 0,
      0, 8, 0, 0, 40, 0, 64]
    ++ List.replicate 175 0
    ++ [3, 1, 30, 0, 1, 1, 255, 255, 1, 1, 5, 1, 0, 0, 0, 100, 0, 0, 0, 200, 160, 141]

/-- The image with one byte replaced. -/
def spoilt (place : Nat) (value : Byte) : List Byte := image.set place value

/-- A start-up unit that has read. -/
def reading : State := { State.reset with su := { State.reset.su with phase := .reading, station := 5 } }

theorem test_witness_O1 : ({ station with pending := [.release, .zoneScan] } : State).pending = .release :: [.zoneScan] := by rfl
theorem test_witness_O4 : (Instr.powerReset = .powerReset ∨ Instr.powerReset = .warmReset)
    ∧ (Instr.warmReset = .powerReset ∨ Instr.warmReset = .warmReset) := by decide
theorem test_witness_O5 : State.reset.su.phase = .held := by decide
set_option maxRecDepth 4000 in
theorem test_witness_O6 : reading.su.phase = .reading ∧ imageOk reading.su.station.toNat (readBuffer none) = false
    ∧ imageOk reading.su.station.toNat (readBuffer (some image)) = true
    ∧ ((imageCfg image).chans.get .A).kind = .axis ∧ ((imageCfg image).chans.get .A).refKind = .absolute := by decide +kernel
set_option maxRecDepth 4000 in
/-- The image passes, with an axis that is ABSOLUTE and bound, an unused channel, and a zone with a term on a line of station 1. -/
theorem test_witness_O7 : imageOk 5 image = true ∧ ((imageCfg image).chans.get .A).kind = .axis
    ∧ ((imageCfg image).chans.get .A).refKind = .absolute ∧ ((imageCfg image).chans.get .A).bindKind = .rate
    ∧ ((imageCfg image).chans.get .B).kind = .unused ∧ (imageZones image).length = 1 := by decide +kernel

set_option maxRecDepth 4000 in
/-- Each clause of O8, at a boundary: 285 and 1,025 bytes, station 0 and 31, desk 31, code 8, the first value out of each range of the
header, and one byte wrong for each of the rest. -/
theorem test_witness_O8 : (List.replicate 285 (0 : Byte)).length < 286 ∧ 1024 < (List.replicate 1025 (0 : Byte)).length
    ∧ n16 (spoilt 1 51) 0 ≠ (spoilt 1 51).length ∧ structureCloses (spoilt 22 2) = false
    ∧ crc16 ((spoilt 305 0).take 304) ≠ word16At (spoilt 305 0) 304 ∧ natAt (spoilt 2 2) 2 ≠ 1 ∧ natAt image 3 ≠ 6
    ∧ 30 < natAt (spoilt 4 31) 4 ∧ 7 < natAt (spoilt 5 8) 5
    ∧ 16 < natAt (spoilt 22 17) 22 ∧ 16 < natAt (spoilt 109 17) (blockAt (spoilt 109 17) .A + 86)
    ∧ (∃ o ∈ zoneOffsets (spoilt 293 0), natAt (spoilt 293 0) (o + 9) = 0)
    ∧ (zoneWalk (spoilt 293 2) (natAt (spoilt 293 2) 22) (zonesAt (spoilt 293 2))).2 + 2 ≠ (spoilt 293 2).length
    ∧ n16 (spoilt 7 1) 6 < 1000 ∧ Config.nominalPeriod 2 < n16 (spoilt 6 141) 6 + 4000 ∧ natAt (spoilt 8 1) 8 = 1
    ∧ 8 < natAt (spoilt 8 9) 8 ∧ (word32At (spoilt 12 1) 9).getLsbD 0 = true ∧ (word32At (spoilt 9 128) 9).getLsbD 31 = true
    ∧ natAt (spoilt 13 9) 13 < 10 ∧ 100 < natAt (spoilt 13 101) 13 ∧ n16 (spoilt 15 99) 14 < 100 ∧ 5000 < n16 (spoilt 14 20) 14
    ∧ 500 < n16 (spoilt 16 2) 16 ∧ 500 < n16 (spoilt 18 2) 18 ∧ 8 < natAt (spoilt 20 9) 20
    ∧ blockOk (spoilt 23 3) (blockAt (spoilt 23 3) .A) = false
    ∧ (∃ o ∈ zoneOffsets (spoilt 284 17), zoneOk 5 (kindsOf (spoilt 284 17)) (spoilt 284 17) o = false)
    ∧ uniqueIds ((zoneOffsets ((spoilt 22 2).take 304 ++ image.drop 284)).map
        (natAt ((spoilt 22 2).take 304 ++ image.drop 284))) = false := by decide +kernel

/-- One count short of a bound and moving inward from each; at the bound on an axis as an onset and not, and at the bound on a wheel. -/
theorem test_witness_O9 :
    (∀ c ∈ [((2147483646 : Int), QuadLine.qa), (-2147483646, .qb), (2147483647, .qb), (-2147483647, .qa)],
      (let s := withFb fun f => { f with x := c.1 }
       readsEncoder s .A = true ∧ (s.fb.get .A).x.natAbs ≤ 2147483647 ∧ (s.fb.get .A).x ≠ Config.maxCount
         * stepOf (chanCfg s .A).reversed (s.fb.get .A).qa.level (s.fb.get .A).qb.level c.2))
    ∧ ∀ ch ∈ [Chan.A, .B], ∀ sat ∈ [false, true],
      (let s := modFb ch (fun f => { f with x := 2147483647, saturation := sat }) station
       readsEncoder s ch = true ∧ isAxis s ch = decide (ch = .A) ∧ isWheel s ch = decide (ch = .B) ∧ (s.fb.get ch).saturation = sat
         ∧ (s.fb.get ch).x = Config.maxCount
            * stepOf (chanCfg s ch).reversed (s.fb.get ch).qa.level (s.fb.get ch).qb.level .qa) := by decide +kernel
/-- The counter at 7, on an axis in RUN and on a wheel, and at 255; and a leak event from 8. -/
theorem test_witness_O10 :
    (∀ ch ∈ [Chan.A, .B], ∀ n ∈ [7, 255],
      (let s := modFb ch (fun f => { f with illegal := n }) station
       readsEncoder s ch = true ∧ (s.fb.get ch).illegal = n ∧ isAxis s ch = decide (ch = .A) ∧ isWheel s ch = decide (ch = .B)
         ∧ s.sc.state = .run))
    ∧ (let s := withFb fun f => { f with illegal := 8, frozen := some 3 }
       (s.fb.get .A).nextLeak = some 1000 ∧ (s.fb.get .A).illegal ≤ 8 ∧ (s.fb.get .A).rail = false
         ∧ (s.fb.get .A).saturation = false) := by decide
/-- Nothing waiting: an event found by sampling, one that is due, neither, a held reset, and a filter at the end of its hold. -/
theorem test_witness_O12 :
    (resting.pending = [] ∧ resting.sampled.flatten = [] ∧ dueEvents resting = [.panelScan])
    ∧ ({ resting with sampled := [[.frefArrival]] } : State).sampled.flatten ≠ []
    ∧ (let s := { resting with dk := { resting.dk with nextScan := none } }
       s.pending = [] ∧ s.sampled.flatten = [] ∧ dueEvents s = [] ∧ s.su.phase ≠ .held)
    ∧ (State.reset.pending = [] ∧ State.reset.su.phase = .held
       ∧ dueEvents { State.reset with lines := { State.reset.lines with supply := false } } = [])
    ∧ (let s := { resting with sc := { resting.sc with estop := ⟨true, 1000⟩ } }
       s.sc.estop.level ≠ false ∧ 1000 ≤ s.sc.estop.run) := by decide +kernel
/-- Each timer at its time and one microsecond before it; a send that has read a collision, driven its last bit, and neither; and a station
with a flight and a gathering one while nothing is due. -/
theorem test_witness_O12_due :
    (let at_ := fun (time : Word) =>
       { resting with
         fb := .all { Feedback.initial with nextLeak := some time, nextConversion := some time }
         mo := .all { Motion.initial with nextUpdate := some time }, bd := .all { Binding.initial with timer := some time }
         rf := .all { Reference.initial with timer := some time }, ft := { resting.ft with deadline := some time }
         tk := { resting.tk with wheelTimer := some time }
         zm := { resting.zm with zones := [{ zone true (.line 5 1) with timer := some time }], nextScan := some time }
         sc := { resting.sc with stopTimer := some time, brakeTimer := some time, releaseTimer := some time }
         ts := { resting.ts with check := some { take := 14, completes := time } }
         dk := { resting.dk with holdTimer := some time, refusalTimer := some time, nextScan := some time } }
     (dueEvents (at_ 1000)).length = 26 ∧ dueEvents (at_ 1001) = [])
    ∧ (let f : Flight := { cls := .stop, bits := [true, false], started := 1000, others := [], replaced := false, seq := 0, desk := .zero }
       let s := { resting with dk := { resting.dk with nextScan := none }, tk := { resting.tk with quietAt := none, flight := some f } }
       dueEvents s = [] ∧ s.sampled = [] ∧ s.tk.flight = some f
         ∧ dueEvents { s with tk := { s.tk with flight := some { f with others := [false] } } } = [.sendEnd [false]]
         ∧ dueEvents { s with tk := { s.tk with flight := some { f with others := [true, true] } } } = [.sendEnd [true, true]])
    ∧ (let s := { resting with
         dk := { resting.dk with nextScan := none }
         tk := { resting.tk with quietAt := none, rx := .gathering, lastTransition := 999 } }
       dueEvents s = [] ∧ s.sampled = [] ∧ s.tk.flight = none ∧ s.tk.rx = .gathering) := by decide +kernel
/-- ARMED in SEARCH_1 of an INDEX run; a sampled rise waiting; not armed; and a high level with none waiting. -/
theorem test_witness_O13 :
    (let s := modRf .A (fun r => { r with state := .search1 }) (withFb fun f => { f with capture := .armed .index })
     readsEncoder s .A = true ∧ (s.fb.get .A).qi.level = false ∧ (s.fb.get .A).capture = .armed .index
       ∧ (s.rf.get .A).state = .search1 ∧ (chanCfg s .A).refKind = .index)
    ∧ 0 < ((withFb fun f => { f with rises := 1 }).fb.get .A).rises
    ∧ (readsEncoder station .A = true ∧ (station.fb.get .A).capture ≠ .armed .index)
    ∧ (let s := withFb fun f => { f with qi := ⟨true, 0⟩ }
       (s.fb.get .A).rises = 0 ∧ (s.fb.get .A).qi.level = true) := by decide

/-- The station with B's conversions running. -/
def converting (group : List Nat) (railRun : Nat) (offset : Nat) : State :=
  modFb .B (fun f => { f with group := group, railRun := railRun, nextConversion := some 1000 })
    { station with cfg := { station.cfg with chans := station.cfg.chans.set .B { swing with analog := true, analogZero := offset } } }

theorem test_witness_O14 :
    (let s := converting [64, 65471, 64] 0 65535
     (s.fb.get .B).nextConversion = some 1000 ∧ (s.fb.get .B).group = [64, 65471, 64]
       ∧ (∀ r ∈ [64, 65471, 64, (65471 : BitVec 16).toNat], 64 ≤ r ∧ r ≤ 65471) ∧ (chanCfg s .B).analogZero ≤ 65535) := by decide
/-- The third and the fourth rail sample in a row on an axis and on a wheel; the third and the fourth good one with the condition set, on a
wheel that is frozen by it alone and by the counter too; and groups that end with a rail sample and hold one. -/
theorem test_witness_O15 : (∀ run ∈ [2, 3], ∀ k ∈ [ChanKind.axis, .wheel],
    (let s := converting [] run 0
     let s := { s with cfg := { s.cfg with chans := s.cfg.chans.set .B { chanCfg s .B with kind := k } } }
     (s.fb.get .B).nextConversion = some 1000 ∧ isAxis s .B = decide (k = .axis) ∧ isWheel s .B = decide (k = .wheel)
       ∧ (63 : BitVec 16).toNat ≤ 63 ∧ 65472 ≤ (65472 : BitVec 16).toNat ∧ (s.fb.get .B).rail = false ∧ (s.fb.get .B).railRun ≤ 3
       ∧ (s.fb.get .B).railRun = run))
    ∧ (∀ run ∈ [2, 3], ∀ n ∈ [7, 8],
        (let s := modFb .B (fun f => { f with rail := true, goodRun := run, illegal := n, frozen := some 9 }) (converting [] 0 0)
         (s.fb.get .B).nextConversion = some 1000 ∧ 64 ≤ (64 : BitVec 16).toNat ∧ (65471 : BitVec 16).toNat ≤ 65471
           ∧ (s.fb.get .B).rail = true ∧ (s.fb.get .B).goodRun = run ∧ (s.fb.get .B).saturation = false ∧ ((s.fb.get .B).illegal ≤ 7 ↔ n = 7)))
    ∧ (∀ c ∈ [([64, 64, 64], (63 : BitVec 16)), ([64, 65472, 64], 64)],
        ((converting c.1 0 0).fb.get .B).group = c.1 ∧ ∃ r ∈ c.1 ++ [c.2.toNat], r ≤ 63 ∨ 65472 ≤ r) := by decide
/-- Toward the switch in RUN, away from it, and a switch that is active; the home switch of a SWITCH run, its capture armed and not. -/
theorem test_witness_O16 :
    (let s := withMo fun m => { m with v := 1 }
     readsLimits s .A = true ∧ (s.fb.get .A).limPos.level = false ∧ (chanCfg s .A).refKind ≠ .switch ∧ 0 < (s.mo.get .A).v
       ∧ s.sc.state = .run)
    ∧ (readsLimits station .A = true ∧ (station.fb.get .A).limPos.level = false ∧ ¬0 < (station.mo.get .A).v
       ∧ armedFor (station.fb.get .A) .pos = false)
    ∧ (let s := modFb .A (fun f => { f with capture := .armed .switchPos, provisional := some 7 })
         (modMo .A (fun m => { m with v := 1 }) (withRf fun r => { r with state := .search1 }))
       let s := { s with cfg := { s.cfg with chans := s.cfg.chans.set .A { swing with refKind := .switch } } }
       readsLimits s .A = true ∧ (s.fb.get .A).limPos.level = false ∧ (chanCfg s .A).refKind = .switch ∧ inRun (s.rf.get .A) = true
         ∧ (Switch.pos = .neg ↔ (chanCfg s .A).refNegative = true) ∧ 0 < (s.mo.get .A).v ∧ armedFor (s.fb.get .A) .pos = true)
    ∧ (let s := withFb fun f => { f with limPos := ⟨true, 0⟩ }
       readsLimits s .A = true ∧ (s.fb.get .A).limPos.level = true) := by decide
/-- Away from an armed switch in no run; and the home switch of a SWITCH run in SEARCH_1 that moves toward it. -/
theorem test_witness_O17 :
    (let s := withFb fun f => { f with capture := .armed .switchNeg, provisional := some (-9) }
     readsLimits s .A = true ∧ armedFor (s.fb.get .A) .neg = true ∧ (s.fb.get .A).provisional = some (-9)
       ∧ limitState (s.fb.get .A) .neg = false ∧ movingToward (s.mo.get .A).v .neg = false ∧ (s.rf.get .A).state ≠ .search1)
    ∧ (let s := modFb .A (fun f => { f with capture := .armed .switchNeg, provisional := some (-9) })
         (modMo .A (fun m => { m with mode := .ref, v := -1280 }) (withRf fun r => { r with state := .search1 }))
       let s := { s with cfg := { s.cfg with chans := s.cfg.chans.set .A { swing with refKind := .switch, refNegative := true } } }
       readsLimits s .A = true ∧ armedFor (s.fb.get .A) .neg = true ∧ (s.fb.get .A).provisional = some (-9)
         ∧ limitState (s.fb.get .A) .neg = false ∧ homeSignal s .A .neg = true ∧ movingToward (s.mo.get .A).v .neg = true
         ∧ (s.rf.get .A).state = .search1 ∧ (chanCfg s .A).refKind = .switch) := by decide
/-- B as an axis on the swing parameters too, with a velocity. -/
def withAxisB (v : Int) (s : State) : State :=
  modMo .B (fun m => { m with mode := .hold, v := v }) { s with cfg := { s.cfg with chans := s.cfg.chans.set .B swing } }
/-- A in OFF in HALTED, and in STOPPING beside an axis that moves. -/
theorem test_witness_O18 : ∀ st ∈ [StopState.halted, .stopping],
    (let s := withAxisB 1 (modMo .A (fun m => { m with mode := .off }) (inStop st none none none))
     (s.mo.get .A).nextUpdate = some 1000 ∧ (s.mo.get .A).mode = .off ∧ s.sc.state = st ∧ s.te.phase = .idle
       ∧ (isAxis s .B = true ∧ (s.mo.get .B).mode ≠ .off ∧ (s.mo.get .B).v ≠ 0)
       ∧ (s.rf.get .A).offset = none ∧ inRun (s.rf.get .A) = false) := by decide

/-- The station at work: A in a mode, in a phase, with take 14 of one frame in the store, a FRESH source and a binding. -/
def atWork (mode : Mode) (phase : Phase) (bind : BindKind) (x : Int) : State :=
  let s := modFb .A (fun f => { f with x := x })
    (modMo .A (fun m => { m with mode := mode, hold := 10000, v := 40960, following := x = 0 }) (inPhase phase))
  { s with
    ts := { oneTake with dir := [{ threeChannels with length := 1, pages := [5], mask := ⟨true, false, false⟩ }] }
    cfg := { s.cfg with chans := s.cfg.chans.set .A { swing with bindKind := bind, points := zoomMap } }
    bd := s.bd.set .A { Binding.initial with held := some 2089, fresh := true } }

/-- A moving axis in each mode and, where it matters, phase, off its target or with the following condition present already; and in
place at rest, with the lock LOCKED and FREE. -/
theorem test_witness_O19 :
    (∀ c ∈ [(Mode.hold, Phase.idle, BindKind.rate, (165 : Int)), (.hold, .idle, .none, 0), (.live, .idle, .map, 0),
        (.live, .idle, .rate, 165), (.cue, .cueing, .none, 0), (.play, .playing, .none, 165)],
      (let s := atWork c.1 c.2.1 c.2.2.1 c.2.2.2
       let m := updateRecord (updateInput (refreshLocal .A s) .A) (chanCfg s .A) { s.mo.get .A with nextUpdate := some 2000 }
       (s.mo.get .A).nextUpdate = some 1000 ∧ (s.mo.get .A).mode = c.1 ∧ isAxis s .A = true ∧ s.sc.state = .run
         ∧ s.te.phase = c.2.1 ∧ (s.rf.get .A).offset = none ∧ (s.rf.get .A).realign = false ∧ inRun (s.rf.get .A) = false
         ∧ (m.following = true → (s.mo.get .A).following = true) ∧ (lookupTake s.ts.dir 14).isSome = true
         ∧ (s.bd.get .A).held = some 2089 ∧ (s.bd.get .A).fresh = true))
    ∧ ((chanCfg station .A).deadband : Int) < 2089 - (chanCfg station .A).center ∧ (-41 : Int) < -((chanCfg station .A).deadband : Int)
    ∧ (40 : Int).natAbs ≤ (chanCfg station .A).deadband
    ∧ (∀ lock ∈ [Lock.locked, .free],
        (let s := { modMo .A (fun m => { m with mode := .cue }) (inPhase .cueing) with ft := { station.ft with lock := lock } }
         let m := updateRecord (updateInput s .A) (chanCfg s .A) { s.mo.get .A with nextUpdate := some 2000 }
         m.ep.natAbs ≤ (chanCfg s .A).inPosition ∧ m.v = 0 ∧ s.ft.lock = lock
           ∧ ∀ k ∈ Chan.list, isAxis s k = true → (s.te.marks.set .A true).get k = true)) := by decide +kernel
/-- In place at rest by the record, but held off the cue point by a cap of 0, and beside it with a cap; B an axis in CUE whose mark stands,
with the lock lost; and a channel bound to the wheel B of its own station, and to a wheel of another. -/
theorem test_witness_O19_last_mark :
    (∀ cap ∈ [0, 100],
      (let s := { modMo .A (fun m => { m with mode := .cue, p := 256 * 50 }) (modFb .A (fun f => { f with x := 50 }) (inPhase .cueing)) with
         zm := { station.zm with caps := .all cap } }
       let m := updateRecord (updateInput s .A) (chanCfg s .A) { s.mo.get .A with nextUpdate := some 2000 }
       (s.mo.get .A).nextUpdate = some 1000 ∧ s.te.phase = .cueing ∧ (cap = 0 → m.ep.natAbs ≤ (chanCfg s .A).inPosition ∧ m.v = 0)
         ∧ m.cap = cap ∧ m.p ≠ m.target * 256))
    ∧ (let s := modMo .B (fun m => { m with mode := .cue }) (withAxisB 0 (modMo .A (fun m => { m with mode := .cue }) (inPhase .cueing)))
       isAxis s .B = true ∧ (s.mo.get .B).mode = .cue
         ∧ ∀ k ∈ Chan.list, isAxis s k = true → (({ a := false, b := true, c := false } : PerChan Bool).set .A true).get k = true)
    ∧ (let s := { station with cfg := { station.cfg with
         chans := station.cfg.chans.set .A { swing with bindKind := .rate, srcStation := 5, srcChannel := 2 } } }
       (chanCfg s .A).srcStation = s.su.station.toNat ∧ Chan.ofNumber? (chanCfg s .A).srcChannel = some .B ∧ isWheel s .B = true)
    ∧ (chanCfg station .A).srcStation ≠ station.su.station.toNat := by decide +kernel
/-- CUEING goes on while a cap of 0 holds the channel off its cue point, and ends in CUED when the same channel rests on it (R158). -/
theorem test_cap_of_zero_keeps_cueing :
    (let s := fun (p : Int) => { modMo .A (fun m => { m with mode := .cue, p := p * 256 })
       (modFb .A (fun f => { f with x := p }) (inPhase .cueing)) with zm := { station.zm with caps := .all 0 }, order := List.replicate 8 0 }
     (outcome (.servoUpdate .A) (s 50)).te.phase = .cueing ∧ (outcome (.servoUpdate .A) (s 0)).te.phase = .cued) := by decide +kernel
theorem test_witness_O20 : ({ swingInput with cap := 100 } : UpdateInput).base ≤ swing.vmax
    ∧ ({ swingInput with cap := 100 } : UpdateInput).cap ≤ 100 ∧ (-102400 : Int).natAbs ≤ swing.vmax
    ∧ ({ swingInput with limPos := true } : UpdateInput).limPos = true
    ∧ ({ swingInput with limNeg := true } : UpdateInput).limNeg = true ∧ swingInput.limPos = false ∧ swingInput.limNeg = false := by
  decide
/-- The ramp's last and other updates: in STOPPING with astop of velocity left and one more, another axis moving and at rest, a realignment
noted and not; the stops in which the record is written alone; and an onset of the following condition in every stop state. -/
theorem test_witness_O21 : (({ swingInput with stopping := true } : UpdateInput).stopping = true ∧ swingInput.limPos = false
      ∧ swingInput.limNeg = false)
    ∧ (∀ st ∈ [StopState.stopping, .braking, .releasing], ∀ v ∈ [(5120 : Int), 5121], ∀ again ∈ [false, true],
        (let s := withAxisB (if again then 1 else 0) (modMo .A (fun m => { m with v := v }) (inStop st (some 9000) none none))
         let s := modRf .A (fun r => { r with realign := again }) s
         let m := updateRecord (updateInput s .A) (chanCfg s .A) { s.mo.get .A with nextUpdate := some 2000 }
         (s.mo.get .A).nextUpdate = some 1000 ∧ (s.mo.get .A).mode = .hold ∧ isAxis s .A = true ∧ s.sc.state = st
           ∧ (s.rf.get .A).offset = none ∧ inRun (s.rf.get .A) = false ∧ s.te.phase = .idle ∧ m.following = false
           ∧ (st = .stopping → (m.v = 0 ↔ v = 5120)) ∧ ((s.mo.get .B).v = 0 ↔ again = false)))
    ∧ (∀ st ∈ [StopState.run, .stopping, .braking, .halted, .releasing],
        (let s := modFb .A (fun f => { f with x := -101 }) (inStop st none none none)
         let s₁ := noteMapClamped .A (beforeUpdate .A (refreshLocal .A s))
         (s.mo.get .A).nextUpdate = some 1000 ∧ isAxis s .A = true ∧ (s.mo.get .A).mode ≠ .off ∧ (s.mo.get .A).following = false
           ∧ s₁.sc = s.sc ∧ s.sc.state = st
           ∧ (updateRecord (updateInput s₁ .A) (chanCfg s .A) (s₁.mo.get .A)).following = true)) := by decide +kernel

/-- Crossing soft_hi and soft_lo from inside; one count beyond each, with the velocity outward and inward; and well inside. -/
theorem test_witness_O22 : swingInput.ref = true ∧ swingInput.softLo < swingInput.softHi ∧ -Config.maxCount ≤ swingInput.softLo
    ∧ swingInput.softHi ≤ Config.maxCount
    ∧ (∀ side ∈ [(1 : Int), -1],
      (let i := { swingInput with target := side * 500000, cap := 100 }
       let edge := side * 400000 * 256
       let v := fun p v => newVelocity i swing (clampTarget i) p v
       side * (edge + side * 256) ≤ Config.maxCount * 256 ∧ side * edge < side * (edge + v edge (side * 102400))
         ∧ 0 < side * v (edge + side * 256) (side * 102400) ∧ side * v (edge + side * 256) (-side * 102400) ≤ 0
         ∧ -(side * 400000 * 256) * side ≤ side * (edge + side * 256 + v (edge + side * 256) (-side * 102400))))
    ∧ (let m := { Motion.initial with v := 43520 }
       (limiter swingInput swing m).softLimit = false ∧ swingInput.softLo * 256 < (limiter swingInput swing m).p
         ∧ (limiter swingInput swing m).p < swingInput.softHi * 256) := by decide +kernel
theorem test_witness_O23 : 1 ≤ swing.astop ∧ 0 < stoppingDistance swing.astop 43520
    ∧ stoppingDistance swing.astop 43520 < 2147483647 ∧ stoppingDistance 1 2000000000 = 2147483647 := by decide +kernel
/-- A drive held at ref_drive by the error's own direction; one that the error has turned against; one not saturated; sums beyond ±Imax;
errors at and beyond the range; and the following condition. -/
theorem test_witness_O24 :
    (let i := { swingInput with endStops := true, x := -1000 }
     let c := { swing with refDrive := 6000 }
     let m := { Motion.initial with integ := 200000 }
     i.endStops = true ∧ c.refDrive ≤ 32767 ∧ 0 < c.pwmPeriod ∧ -(c.imax : Int) ≤ m.integ ∧ m.integ ≤ c.imax
       ∧ (servoLaw i c m).saturated = true ∧ 0 < c.ki * (servoLaw i c m).ep ∧ 0 < (servoLaw i c m).u)
    ∧ (let m := { Motion.initial with integ := 200000 }
       let m' := servoLaw { swingInput with x := 1 } { swing with sh := 0 } m
       m'.saturated = true ∧ swing.ki * m'.ep < 0 ∧ 0 < m'.u)
    ∧ (let m' := servoLaw { swingInput with x := -1 } { swing with imax := 1000 } { Motion.initial with integ := 961 }
       m'.saturated = false ∧ 1000 < 961 + swing.ki * m'.ep)
    ∧ (let m' := servoLaw { swingInput with x := 1 } { swing with imax := 1000 } { Motion.initial with integ := -961 }
       m'.saturated = false ∧ -961 + swing.ki * m'.ep < -1000)
    ∧ 2147483647 < floorDiv 256 256 - (-2147483647) ∧ floorDiv (-256) 256 - 2147483647 < -2147483647
    ∧ (servoLaw { swingInput with x := -1000 } swing Motion.initial).following = true := by decide +kernel
theorem test_witness_O25 : started station = true ∧ isAxis station .A = true ∧ isAxis station .B = false := by decide

/-- A NOT_REFERENCED channel in HOLD, a REFERENCED one, and a station that does not take the command. -/
theorem test_witness_O26 :
    (let s := withRf fun r => { r with state := .notReferenced }
     takesReference s = true ∧ wantsRun s .A = true ∧ (s.mo.get .A).mode = .hold ∧ (chanCfg s .A).refKind = .index
       ∧ (chanCfg s .A).analog = false)
    ∧ takesReference station = true ∧ referenced station .A = true ∧ takesReference (inPhase .cued) = false := by decide
/-- A run timer in a run and after it; runs begun from NOT_REFERENCED and from FAILED, met by a cause in RUN; and a wheel timer. -/
theorem test_witness_O27 :
    (let s := modMo .A (fun m => { m with mode := .ref }) (withRf fun r => { r with state := .parking, timer := some 1000 })
     (s.rf.get .A).timer = some 1000 ∧ inRun (s.rf.get .A) = true ∧ s.sc.state = .run ∧ (s.mo.get .A).mode = .ref)
    ∧ (let s := withRf fun r => { r with timer := some 1000 }
       (s.rf.get .A).timer = some 1000 ∧ inRun (s.rf.get .A) = false)
    ∧ (∀ origin ∈ [RefState.notReferenced, .failed .timeout],
        (let s := withRf fun r => { r with state := .search2, origin := origin }
         s.sc.state = .run ∧ inRun (s.rf.get .A) = true ∧ (s.rf.get .A).origin = origin ∧ s.su.phase ≠ .held
           ∧ s.sc.estop.level = true ∧ deskActive s = true ∧ pressed 9 s = false))
    ∧ ((modBd .A (fun b => { b with fresh := true, timer := some 1000 }) station).bd.get .A).timer = some 1000 := by decide

/-- A channel in a reference run, its configuration, its record and the setpoint error and position of the last update. -/
def running (kind : RefKind) (f : Reference → Reference) (x ep pos : Int) : State :=
  let s := modRf .A f (modMo .A (fun m => { m with mode := .ref, ep := ep, pos := pos }) (withFb fun g => { g with x := x }))
  { s with cfg := { s.cfg with chans := s.cfg.chans.set .A { swing with
      refKind := kind, refNegative := true, stallThreshold := 40, minSpan := 20000, endMargin := 200, refDrive := 6000 } } }
/-- The backed-off switch inactive again; an offset that fits and one that does not, with the saturation clear and set; a realignment;
parking under way and complete; and the 50th stalled update of each search, the span at and below min_span. -/
theorem test_witness_O28 :
    (let s := running .index (fun r => { r with state := .search1, goal := -2147483647 }) 0 0 0
     let m := updateRecord (updateInput s .A) (chanCfg s .A) (s.mo.get .A)
     (s.mo.get .A).nextUpdate = some 1000 ∧ (s.mo.get .A).mode = .ref ∧ s.sc.state = .run ∧ s.te.phase = .idle
       ∧ (beforeUpdate .A s).sc = s.sc ∧ m.following = false)
    ∧ (let s := running .switch (fun r => { r with state := .search1, backOff := true }) 0 0 0
       (s.rf.get .A).backOff = true ∧ limitState (s.fb.get .A) (homeSwitch (chanCfg s .A)) = false ∧ (s.rf.get .A).offset = none
         ∧ (s.rf.get .A).realign = false ∧ isAxis s .A = true ∧ (chanCfg s .A).analog = false)
    ∧ (∀ x ∈ [(2147482647 : Int), 2147482648], ∀ sat ∈ [false, true],
        (let s := modFb .A (fun f => { f with saturation := sat })
           (running .index (fun r => { r with state := .search1, offset := some 1000 }) x 0 0);
         (s.rf.get .A).offset = some 1000 ∧ ((s.fb.get .A).x + 1000).natAbs ≤ 2147483648 ∧ (s.fb.get .A).saturation = sat
           ∧ isAxis s .A = true ∧ s.sc.state = .run ∧ (x = 2147482648 ↔ 2147483647 < ((s.fb.get .A).x + 1000).natAbs)))
    ∧ (let s := running .endStops (fun r => { r with state := .search2, realign := true }) 9 0 0
       (s.rf.get .A).realign = true ∧ (s.mo.get .A).mode ≠ .off)
    ∧ (∀ goal ∈ [(0 : Int), 5],
        (let s := running .index (fun r => { r with state := .parking, goal := goal }) 0 0 0
         (s.rf.get .A).state = .parking ∧ (s.mo.get .A).v = 0 ∧ ((s.mo.get .A).p = (s.rf.get .A).goal * 256 ↔ goal = 0)))
    ∧ (∀ stall ∈ [48, 49],
        (let s := running .endStops (fun r => { r with state := .search1, stall := stall }) 0 (-40) 12
         (chanCfg s .A).refKind = .endStops ∧ (s.rf.get .A).state = .search1
           ∧ (s.mo.get .A).ep ≤ -((chanCfg s .A).stallThreshold : Int) ∧ (s.rf.get .A).stall = stall))
    ∧ (∀ pos ∈ [(20012 : Int), 20011],
        (let s := running .endStops (fun r => { r with state := .search2, stall := 49, endLo := some 12 }) 0 40 pos
         (s.rf.get .A).state = .search2 ∧ ((chanCfg s .A).stallThreshold : Int) ≤ (s.mo.get .A).ep ∧ (s.rf.get .A).endLo = some 12
           ∧ (((chanCfg s .A).minSpan : Int) ≤ (s.mo.get .A).pos - 12 ↔ pos = 20012)))
    ∧ ¬((39 : Int) ≥ (chanCfg (running .endStops id 0 39 0) .A).stallThreshold) := by decide +kernel
theorem test_witness_O29 : increasing zoomMap = true ∧ zoomMap.head? = some ⟨0, 0⟩ ∧ zoomMap.getLast? = some ⟨3000, 65535⟩
    ∧ (∀ p ∈ zoomMap, p.r ≤ 65535) ∧ (-1 : Int) < 0 ∧ (3000 : Int) < 3001
    ∧ zoomMap = [⟨0, 0⟩] ++ ⟨1000, 20000⟩ :: ⟨3000, 65535⟩ :: [] ∧ (1000 : Int) ≤ 1000 ∧ (2999 : Int) < 3000 := by decide

/-- The frame timer in a lock state with its last event at 500, the clock at an interval from it. -/
def timed (lock : Lock) (lockCount holdCount interval : Nat) (pulse : Bool) : State :=
  { station with
    clock := BitVec.ofNat 32 (500 + interval)
    ft := { station.ft with lock := lock, lockCount := lockCount, holdCount := holdCount, lastPulse := pulse } }

/-- A glitch one microsecond short of the half period; a pulse at it; and every clause of the lock table at the edge of the tolerance. -/
theorem test_witness_O30 :
    started station = true ∧ validImage station = true ∧ isGlitch (timed .locked 8 0 19999 true) = true
    ∧ isGlitch (timed .locked 8 0 20000 true) = false ∧ sinceEvent (timed .locked 8 0 20000 true) = some 20000
    ∧ goodInterval 2 20000 = false
    ∧ ((timed .locking 7 0 40200 true).ft.lock = .locking ∧ (timed .locking 7 0 40200 true).ft.lastPulse = true
        ∧ isGlitch (timed .locking 7 0 40200 true) = false ∧ sinceEvent (timed .locking 7 0 40200 true) = some 40200
        ∧ goodInterval 2 40200 = true)
    ∧ (sinceEvent (timed .locking 3 0 40201 true) = some 40201 ∧ goodInterval 2 40201 = false)
    ∧ (timed .locking 3 0 40000 false).ft.lastPulse = false ∧ (timed .holdover 8 1 39800 false).ft.lock = .holdover
    ∧ goodInterval 2 39800 = true ∧ (timed .free 0 0 20000 false).ft.lock = .free := by decide +kernel
/-- A fresh record of station 7 at an age. -/
def peerAt (age : Nat) : State :=
  modPeer 7 (fun r => { r with freshness := .fresh, age := age, seq := some 254, content := some [254] }) station
/-- A pulse with no release pending, none confirmed and no required peer; the diagnostic of a peer that ages and of the own number; a desk's
command; and ring values below, at and above the ends. -/
theorem test_witness_O30_body :
    (let s := timed .locked 8 0 40000 true
     isGlitch s = false ∧ s.pt.confirmed = none ∧ s.sc.pendingRelease = false ∧ s.te.phase = .idle
       ∧ (∀ n ∈ peerNumbers, requiredPeer s n = false) ∧ deskActive s = true)
    ∧ (∀ seq ∈ [6, 4], (BitVec.ofNat 8 seq).toNat % 30 + 1 = seq + 1) ∧ station.su.station.toNat = 4 + 1
    ∧ (peerRecord (agePeers (peerAt 3)) 7).age = 4
    ∧ (∀ p ∈ [(-400001 : Int), -400000, 400000, 400001],
        (let i := { swingInput with x := p }
         let m := { Motion.initial with mode := .off }
         i.ref = true ∧ (updateRecord i swing m).p = p * 256
           ∧ floorDiv ((p - i.softLo) * 65535) (i.softHi - i.softLo) = (if p < -400000 then -1 else if p = -400000 then 0
               else if p = 400000 then 65535 else 65535))) := by decide +kernel
theorem test_witness_O31 : (timed .locked 8 0 40200 true).ft.deadline = some 40700
    ∧ (timed .free 0 0 40000 false).ft.lock = .free ∧ (timed .locking 7 0 40200 true).ft.lock = .locking
    ∧ (timed .holdover 8 1 40200 false).ft.holdCount ≠ 2 ∧ (timed .holdover 8 2 40200 false).ft.holdCount = 2 := by decide

/-- Required peers 7 and 9 in RUN: 7 stays FRESH or goes STALE as it ages beyond peer_timeout, 9 was never heard; and a cued station that
loses its lock. -/
theorem test_witness_O31_silent : (∀ age ∈ [2, 3],
      (let s := { peerAt age with cfg := { station.cfg with required := 640#32 } }
       s.ft.deadline = some 40700 ∧ s.pt.confirmed = none ∧ s.sc.pendingRelease = false ∧ s.sc.state = .run ∧ s.sc.causes ≤ 255
         ∧ (∀ n ∈ peerNumbers, requiredPeer s n = decide (n = 7 ∨ n = 9))
         ∧ ((peerRecord (agePeers s) 7).freshness = .fresh ↔ age = 2) ∧ (peerRecord (agePeers s) 9).freshness ≠ .fresh))
    ∧ (timed .holdover 8 2 40200 false).ft.lock ≠ .free ∧ (expiryLock (timed .holdover 8 2 40200 false).ft).lock = .free
    ∧ (∀ n ∈ peerNumbers, requiredPeer station n = false) := by decide +kernel
/-- The desk's record at age 63 and 62; and a silent required peer met in RELEASING. -/
theorem test_witness_O31_desk :
    (∀ age ∈ [63, 62],
      (let s := { peerAt age with cfg := { station.cfg with desk := 7 } }
       s.ft.deadline = some 40700 ∧ s.cfg.desk ≠ 0 ∧ (peerRecord s s.cfg.desk).freshness ≠ .absent
         ∧ (peerRecord s s.cfg.desk).age = age))
    ∧ (let s := { inStop .releasing none none (some 9000) with cfg := { station.cfg with required := 128#32 } }
       s.sc.state = .releasing ∧ s.sc.causes ≤ 255 ∧ s.pt.confirmed = none ∧ s.sc.pendingRelease = false ∧ requiredPeer s 7 = true
         ∧ (peerRecord (agePeers s) 7).freshness ≠ .fresh) := by decide +kernel
theorem test_witness_O31_ages : (peerRecord (peerAt 63) 7).freshness ≠ .absent ∧ (peerRecord (peerAt 63) 7).age = 63
    ∧ (peerRecord (peerAt 3) 7).age ≠ 63 ∧ (peerRecord station 7).freshness = .absent ∧ 7 ∈ peerNumbers := by decide +kernel

/-- A body of this station waiting to be published. -/
def waitingState : State :=
  { station with tk := { station.tk with
      stateSlot := .waiting (buildBody (stopReport station) station) 3000, wheelTimer := some 2000, quietAt := some 900 } }
theorem test_witness_O32 : waitingState.tk.stateSlot = .waiting (buildBody (stopReport station) station) 3000
    ∧ waitingState.tk.wheelTimer = some 2000 ∧ waitingState.tk.quietAt.isSome = true ∧ waitingState.tk.heard = []
    ∧ ({ station.tk with rx := .gathering } : Trunk).rx = .gathering := by
  refine ⟨rfl, rfl, rfl, rfl, rfl⟩
/-- A body ready on a quiet line; a flight that reads back what it drives, and one that a dominant bit of another station changes. -/
theorem test_witness_O33 : stopHeld.tk.quietAt = some 996 ∧ (readyBody .stop stopHeld.tk).isSome = true ∧ stopHeld.tk.flight = none
    ∧ (let s := outcome (.sendStart .stop) stopHeld
     s.tk.flight.isSome = true
       ∧ (s.tk.flight.map fun f => (f.cls, f.replaced, decide (wired f.bits [] = f.bits),
           decide (wired f.bits [false, false, false] = f.bits))) = some (.stop, false, true, false)
       ∧ (s.tk.stopSlot.map fun x => x.repeats) = some 3) := by decide +kernel
/-- A STATE flight on the active desk with a command that pairs, with NONE and with neither, and on a station that is not the desk; and
confirmed commands at a frame event: CUE, and RELEASE in HALTED with no persisting cause and in the other stop states. -/
theorem test_witness_O33_notice :
    (let c : DeskContent := { DeskContent.zero with kind := 10, serial := 15 }
     let f : Flight := { cls := .state, bits := [true], started := 990, others := [], replaced := false, seq := 0, desk := c }
     let s := { station with tk := { station.tk with flight := some f }, pt := { station.pt with earlier := some (255, c) } }
     s.tk.flight = some f ∧ wired f.bits [] = f.bits ∧ deskActive s = true ∧ s.pt.earlier = some (f.seq - 1, f.desk)
       ∧ f.desk.serial ≠ s.pt.adopted ∧ s.pt.join ≠ some f.desk.serial ∧ station.pt.earlier ≠ some (f.seq - 1, f.desk)
       ∧ DeskContent.zero.kind = 0 ∧ DeskContent.zero.serial = 0
       ∧ deskActive { s with cfg := { s.cfg with desk := 7 } } = false)
    ∧ (∀ kind ∈ [(1 : Byte), 8, 10], ∀ st ∈ [StopState.halted, .run, .stopping, .braking, .releasing],
        (let c : DeskContent := { DeskContent.zero with kind := kind, serial := 15 }
         let s := { inStop st none none none with pt := { station.pt with confirmed := some c } }
         s.ft.deadline = some 40700 ∧ s.pt.confirmed = some c ∧ takeCapable s = true ∧ s.sc.state = st ∧ persistingCause s = none
           ∧ ∀ n ∈ peerNumbers, requiredPeer s n = false)) := by decide +kernel
theorem test_witness_O35 : 1 ≤ (30 : Byte).toNat ∧ (30 : Byte).toNat ≤ 30
    ∧ (List.replicate 9 (0 : Byte)).length = (match FrameClass.stop with | .state => 123 | .wheel => 13 | .stop => 9) := by decide
theorem test_witness_O35_body : ∀ ch ∈ Chan.list,
    (let r := (buildBody (stopReport station) station).chans.get ch
     r.position < 2 ^ 31 ∧ -2 ^ 31 ≤ r.position ∧ r.velocity < 2 ^ 31 ∧ -2 ^ 31 ≤ r.velocity ∧ r.sd < 2 ^ 32) := by decide +kernel

/-- A station gathering, and the line levels of frames: noise, its own number, and a STATE frame of station 7. -/
def gathering : State := { station with tk := { station.tk with rx := .gathering } }
def heardFrom (source seq : Byte) : List Bool := lineBits (envelope 1 source (seq :: List.replicate 122 0)) ++ List.replicate 16 true
set_option maxRecDepth 4000 in
/-- A WHEEL frame of station 2, bound by A, newer by 127 than sequence 130 and by 128 than 129, and with no record; and a STOP frame of
station 9 with release frames 99 and 100, known and not, by stations at rest and moving. -/
theorem test_witness_O34 :
    (let wheel := gather (lineBits (envelope 2 2 (wheelBytes 1 (.all 5))) ++ List.replicate 16 true)
     wheel.length < 145 ∧ failedCheck wheel = none ∧ byteAt wheel 2 = 2 ∧ byteAt wheel 4 ≠ stationByte gathering
       ∧ byteAt (frameBody wheel) 0 = 1 ∧ ((1 : Byte) - 130).toNat = 127 ∧ ((1 : Byte) - 129).toNat = 128
       ∧ (isAxis gathering .A = true ∧ (chanCfg gathering .A).bindKind ≠ .none ∧ (chanCfg gathering .A).srcStation = natAt wheel 4
          ∧ Chan.ofNumber? (chanCfg gathering .A).srcChannel = some .A) ∧ (gathering.bd.get .A).seq = none)
    ∧ (let stop := gather (lineBits (envelope 3 9 [9, 4, 0, 3, 0, 0, 0, 100, 6]) ++ List.replicate 16 true)
       let known := { gathering with sc := { gathering.sc with remembered := gathering.sc.remembered.set 8 (some 6) } }
       stop.length < 145 ∧ failedCheck stop = none ∧ byteAt stop 2 = 3 ∧ byteAt stop 4 ≠ stationByte gathering
         ∧ gathering.sc.remembered.getD (natAt stop 4 - 1) none ≠ some (byteAt (frameBody stop) 8)
         ∧ known.sc.remembered.getD (natAt stop 4 - 1) none = some (byteAt (frameBody stop) 8)
         ∧ (word32At (frameBody stop) 4).toNat = 100 ∧ ¬(word32At (frameBody stop) 4).toNat < (100 : Word).toNat
         ∧ (word32At (frameBody stop) 4).toNat < (101 : Word).toNat)
    ∧ gathering.sc.state = .run ∧ allAtRest gathering = true ∧ (gathering.mo.get .A).mode ≠ .off := by decide +kernel

set_option maxRecDepth 4000 in
theorem test_witness_O36 : started gathering = true ∧ gathering.tk.quietAt = none ∧ gathering.tk.flight = none
    ∧ gathering.tk.rx = .gathering ∧ station.tk.rx ≠ .gathering
    ∧ (gather [false, true, false]).length < 145 ∧ failedCheck (gather [false, true, false]) = some .framing
    ∧ (gather (heardFrom 5 0)).length < 145 ∧ failedCheck (gather (heardFrom 5 0)) = none
    ∧ byteAt (gather (heardFrom 5 0)) 4 = stationByte gathering
    ∧ reached gathering.clock (after gathering.tk.lastTransition 4) = true
    ∧ reached (1003 : Word) (after (1000 : Word) 4) = false := by decide +kernel
set_option maxRecDepth 4000 in
/-- Frames that fail each check of R83 and none before it: six bytes, a byte changed, a kind 9, a length 12 of a WHEEL body, source 31. -/
theorem test_witness_O36_checks :
    ([[53, 202, 1, 2, 3, 4], (envelope 2 2 (wheelBytes 1 (.all 5))).set 6 9, envelope 9 2 [1], envelope 2 2 (List.replicate 12 0),
      envelope 2 31 (wheelBytes 1 (.all 5))].map fun b =>
      (failedCheck (gather (lineBits b ++ List.replicate 16 true)), decide ((gather (lineBits b)).length < 145)))
      = [(some .framing, true), (some .crc, true), (some .kind, true), (some .length, true), (some .source, true)] := by
  decide +kernel
set_option maxRecDepth 8000 in
theorem test_witness_O36_oversize : 145 ≤ (gather (lineBits (List.replicate 145 85))).length
    ∧ (gather (lineBits (List.replicate 144 85))).length < 145 := by decide +kernel

set_option maxRecDepth 4000 in
/-- A first frame of station 7, one after 254 with 2 numbers missed, and a repeat. -/
theorem test_witness_O37 : ∀ seq ∈ [(254 : Byte), 1],
    (let b := gather (heardFrom 7 seq)
     b.length < 145 ∧ failedCheck b = none ∧ byteAt b 2 = 1 ∧ byteAt b 4 ≠ stationByte gathering ∧ 7 = natAt b 4)
    ∧ gathering.pt.peers.length = 30 ∧ (peerRecord gathering 7).seq = none ∧ (peerRecord (peerAt 1) 7).seq = some 254
    ∧ (byteAt (frameBody (gather (heardFrom 7 seq))) 0 - 254).toNat = (if seq = 1 then 3 else 0) := by decide +kernel
/-- RECORD with serial 15, heard at sequence numbers 255 and 0; the reading of NONE with serial 0; the join serial; a station whose desk
field is 0. -/
theorem test_witness_O38 :
    (let c : DeskContent := { DeskContent.zero with kind := 1, serial := 15, take := 14 }
     adopts 0 c { PeerTable.initial with earlier := some (255, c) } = true
       ∧ adopts 1 c { PeerTable.initial with earlier := some (255, c) } = false
       ∧ adopts 0 c { PeerTable.initial with earlier := some (255, c), adopted := 15 } = false
       ∧ adopts 0 c { PeerTable.initial with earlier := some (255, c), join := some 15 } = false
       ∧ 1 ≤ c.kind.toNat ∧ c.kind.toNat ≤ 10 ∧ 1 ≤ c.serial.toNat ∧ c.serial.toNat ≤ 15)
    ∧ adopts 0 DeskContent.zero PeerTable.initial = false ∧ 10 < (11 : Byte).toNat ∧ 15 < (16 : Byte).toNat
    ∧ executesDesk station = true ∧ executesDesk { station with cfg := { station.cfg with desk := 0 } } = false := by decide +kernel

/-- A STATE frame of station 7 with a sequence number, a count, a stop state, presence lines and a desk command. -/
def stateOf (seq count stop lines kind serial : Byte) : List Bool :=
  lineBits (envelope 1 7 ([seq, 0, 0, 0, count, 0, stop, 0, 4] ++ List.replicate 5 0 ++ [lines] ++ List.replicate 8 0
    ++ [kind, serial] ++ List.replicate 98 0)) ++ List.replicate 16 true
set_option maxRecDepth 8000 in
/-- Frames of station 7: its lines occupied, in RUN; and HALTED, its lines clear, with RELEASE in its desk command. -/
theorem test_witness_O39 :
    (let b := gather (stateOf 1 100 0 15 0 0)
     b.length < 145 ∧ failedCheck b = none ∧ byteAt b 2 = 1 ∧ byteAt b 4 ≠ stationByte gathering ∧ natAt b 4 = 7
       ∧ byteAt (frameBody b) 6 = 0 ∧ (byteAt (frameBody b) 14).getLsbD 0 = true) := by decide +kernel
set_option maxRecDepth 8000 in
theorem test_witness_O39_desk :
    (let b := gather (stateOf 2 101 3 0 10 3)
     b.length < 145 ∧ failedCheck b = none ∧ byteAt b 2 = 1 ∧ byteAt b 4 ≠ stationByte gathering ∧ natAt b 4 = 7
       ∧ byteAt (frameBody b) 6 = 3 ∧ (byteAt (frameBody b) 14).getLsbD 0 = false ∧ (word32At (frameBody b) 1).toNat = 101
       ∧ bodyDesk (frameBody b) = { DeskContent.zero with kind := 10, serial := 3 }) := by decide +kernel
/-- A zone of a line of station 7 and one of another source; a station that is not the desk and one that is, with its count, 1 ahead of it
as confirmed and not, and its command as the second of a pair; the phases that a lost lock ends and the others. -/
theorem test_witness_O39_states : started gathering = true ∧ gathering.tk.quietAt = none ∧ gathering.tk.flight = none
    ∧ gathering.tk.rx = .gathering
    ∧ (let s := modPeer 7 (fun r => { r with freshness := .fresh, seq := some 1, content := some [] }) gathering
       (peerRecord s 7).seq = some ((2 : Byte) - 1))
    ∧ (zone true (.line 7 1)).cfg.source = .line 7 1 ∧ (∀ line ∈ [1, 2, 3, 4], (zone true .always).cfg.source ≠ .line 7 line)
    ∧ fromDesk gathering 7 = false ∧ gathering.sc.releaseFrame.toNat ≤ 99
    ∧ (let s := { gathering with cfg := { gathering.cfg with desk := 7 }, ft := { gathering.ft with reading := some (1, 1) } }
       let c := { DeskContent.zero with kind := 10, serial := 3 }
       fromDesk s 7 = true ∧ (101 : Word) - s.ft.count = 1 ∧ s.ft.reading = some ((2 : Byte) - 1, (101 : Word) - s.ft.count)
         ∧ (100 : Word) - s.ft.count = 0 ∧ (99 : Word) - s.ft.count ≠ 0
         ∧ adopts 2 c { s.pt with join := none, earlier := some (1, c) } = true ∧ adopts 2 c s.pt = false)
    ∧ (∀ release ∈ [101, 102],
        (let s := { gathering with
           cfg := { gathering.cfg with desk := 7 }, sc := { gathering.sc with releaseFrame := BitVec.ofNat 32 release } }
         fromDesk s 7 = true ∧ s.sc.state = .run ∧ allAtRest s = true ∧ (s.sc.releaseFrame.toNat ≤ 101 ↔ release = 101)
           ∧ (101 : Word) - s.ft.count ≠ 0 ∧ s.ft.reading = none))
    ∧ (inPhase .recording).te.phase = .recording ∧ (inPhase .cued).sc.state = .run ∧ (inPhase .cueing).te.phase ≠ .cued := by
  decide +kernel
theorem test_witness_O40 : (100 : Int) ≤ 200 ∧ (0 : Int) ≤ 50 ∧ (50 : Int) < 100 ∧ (-5 : Int) ≤ 0 ∧ (200 : Int) < 250
    ∧ (0 : Int) ≤ 5 ∧ termInputs station { station := 7, channel := 1, lo := 0, hi := 1 } = none
    ∧ termInputs station { station := 5, channel := 1, lo := 0, hi := 1 } = some (0, 0, 0)
    ∧ (let z := { zone true .always with cfg := { (zone true .always).cfg with terms := [⟨7, 1, 0, 1⟩, ⟨8, 1, 0, 1⟩] } }
       z.arming ≠ .disarmed ∧ z.cfg.terms ≠ [] ∧ ∀ t ∈ z.cfg.terms, termStatus station t = .unknown) := by decide +kernel
theorem test_witness_O41 : station.su.phase ≠ .held ∧ station.zm.presence.length = 4
    ∧ (station.zm.presence.getD 3 ⟨true, 0⟩).level ≠ false
    ∧ holdTimer (withZones [{ zone true (.line 5 1) with arming := .holding, timer := some 1000 }] station) 3 = some 1000 := by
  decide

/-- A KEEP_OUT zone newly ENTERED, and one that the last scan found ENTERED already. -/
def breached (was : ZoneStatus) : State :=
  withZones [{ zone true .always with status := was }] (withMo fun m => { m with pos := 150 })
theorem test_witness_O42 : (breached .clear).zm.nextScan = some 1000
    ∧ (∃ z ∈ (breached .clear).zm.zones,
        z.cfg.keepOut = true ∧ zoneStatus (breached .clear) z = .entered ∧ z.status ≠ .entered)
    ∧ (∀ z ∈ (breached .entered).zm.zones,
        z.cfg.keepOut = true → zoneStatus (breached .entered) z = .entered → z.status = .entered)
    ∧ (7 ≠ station.su.station.toNat ∧ (peerRecord station 7).freshness ≠ .fresh
       ∧ (peerRecord (peerAt 1) 7).freshness = .fresh) := by
  decide +kernel
/-- Two KEEP_OUT zones newly ENTERED at one scan, the higher id first in the table, met in RUN, in RELEASING and in BRAKING. -/
theorem test_witness_O42_two : ∀ st ∈ [StopState.run, .releasing, .braking],
    (let z := zone true .always
     let s := withZones [z, { z with cfg := { z.cfg with id := 2 } }] (modMo .A (fun m => { m with pos := 150 }) (inStop st none none none))
     s.zm.nextScan = some 1000 ∧ s.sc.state = st ∧ s.sc.causes ≤ 255
       ∧ (s.zm.zones.filter fun z => z.cfg.keepOut && zoneStatus s z = .entered && z.status ≠ .entered).map (fun z => z.cfg.id)
           = [3, 2]) := by decide +kernel
theorem test_witness_O43 : (inStop .stopping (some 1000) none none).sc.stopTimer = some 1000
    ∧ (inStop .stopping (some 1000) none none).sc.state = .stopping
    ∧ (inStop .braking none (some 1000) none).sc.brakeTimer = some 1000 ∧ (inStop .braking none (some 1000) none).sc.state = .braking
    ∧ (inStop .releasing none none (some 1000)).sc.releaseTimer = some 1000
    ∧ (inStop .releasing none none (some 1000)).sc.state = .releasing := by decide
theorem test_witness_O44 : station.su.phase ≠ .held ∧ station.sc.estop.level = true ∧ station.sc.state = .run
    ∧ deskActive station = true ∧ isAxis station .A = true ∧ (station.mo.get .A).mode ≠ .off ∧ State.reset.sc.estop.level = false
    ∧ reading.su.phase ≠ .held ∧ reading.sc.estop.level = false ∧ pressed 9 station = false
    ∧ pressed 9 { station with dk := { station.dk with buttons := List.replicate 10 ⟨true, 0⟩ } } = true := by decide

/-- HALTED with nothing persisting and with each persisting cause alone, and the other stop states. -/
theorem test_witness_O45 :
    (let s := inStop .halted none none none
     let causes : List State := [{ s with su := { s.su with validity := .invalid } },
       { s with sc := { s.sc with estop := ⟨false, 0⟩ } }, modFb .A (fun f => { f with illegal := 8 }) s,
       { s with cfg := { s.cfg with required := 128#32 } }, { s with sc := { s.sc with dupWindow := 1 } },
       withZones [{ zone true .always with status := .entered }] s]
     s.sc.state = .halted ∧ executesDesk s = true ∧ persistingCause s = none
       ∧ causes.map persistingCause = [some .configInvalid, some .estopChain, some .feedback, some .peerSilent,
           some .duplicateStation, some .zoneBreach])
    ∧ (inStop .braking none (some 1000) none).sc.state = .braking ∧ station.sc.state = .run := by decide +kernel
/-- A pending release at an arrival of FREF and at the deadline, in every stop state, no command confirmed and no peer required; and RELEASE
on a station that executes no desk command. -/
theorem test_witness_O45_frame : (∀ st ∈ [StopState.halted, .run, .stopping, .braking, .releasing],
      (let s := { inStop st none none none with clock := 40500, sc := { (inStop st none none none).sc with pendingRelease := true } }
       started s = true ∧ validImage s = true ∧ isGlitch s = false ∧ s.ft.deadline.isSome = true ∧ s.sc.pendingRelease = true
         ∧ s.pt.confirmed = none ∧ s.te.phase = .idle ∧ s.sc.state = st ∧ (∀ n ∈ peerNumbers, requiredPeer s n = false)))
    ∧ executesDesk { station with cfg := { station.cfg with desk := 0 } } = false := by decide +kernel
/-- RELEASE is executed at the frame event that follows it (R131, R132). -/
theorem test_release_at_frame_event :
    (let s := { inStop .halted none none none with order := List.replicate 8 0 }
     (outcome .frameDeadlineExpiry (outcome .release s)).sc.state = .releasing) := by decide +kernel
/-- An accepted RECORD at the nearest start frame, one in another phase and one outside RUN. -/
theorem test_witness_O46 : executesDesk station = true ∧
    takeCapable station = true ∧ station.te.phase = .idle ∧ station.sc.state = .run
    ∧ station.ft.lock = .locked ∧ station.ft.aligned = true
    ∧ ((∀ ch ∈ Chan.list, isAxis station ch = true → referenced station ch = true)
      ∧ 1 ≤ (99 : Byte).toNat ∧ (99 : Byte).toNat ≤ 99 ∧ (∀ e ∈ station.ts.dir, e.take ≠ 99) ∧ station.ts.dir.length < 16)
    ∧ ((101 : Word) - station.ft.count).toNat = 1
    ∧ takeCapable (inPhase .cued) = true ∧ (inPhase .cued).te.phase ≠ .idle
    ∧ (takeCapable (inStop .halted none none none) = true ∧ (inStop .halted none none none).te.phase = .idle) := by decide +kernel
/-- RECORD with each condition of R152 failing and none before it. -/
theorem test_witness_O46_faults :
    (let e := { threeChannels with take := 7 }
     let full : Store := { Store.initial with dir := (List.range 16).map fun k => { e with take := 20 + k } }
     ([({ (inPhase .cued) with ft := { station.ft with lock := .free } }, 7, 101), (inStop .halted none none none, 7, 101),
       ({ station with ft := { station.ft with lock := .holdover, aligned := false } }, 7, 101),
       ({ station with ft := { station.ft with aligned := false } }, 7, 101),
       (withRf (fun r => { r with state := .parking }), 0, 101), (station, 0, 101), (station, 100, 101),
       ({ station with ts := { Store.initial with dir := [e] } }, 7, 101), ({ station with ts := full }, 7, 100), (station, 7, 100),
       (station, 99, 101)] : List (State × Nat × Nat)).map
       (fun c => recordFault c.2.1 (BitVec.ofNat 32 c.2.2) c.1)
       = [.busy, .notRunning, .notLocked, .alignLost, .notReferenced, .takeMissing, .takeMissing, .takeExists, .dirFull, .lateStart,
          .none]) := by decide +kernel
/-- Every phase, in RUN with a live order held and with a run in progress; and IDLE at the station time of a full store and one later. -/
theorem test_witness_O47 : (∀ p ∈ [Phase.idle, .armedRec, .recording, .checking, .cueing, .cued, .playing],
      (let s := modMo .A (fun m => { m with mode := .ref }) (modRf .A (fun r => { r with state := .search1 }) (inPhase p))
       executesDesk (inPhase p) = true ∧ takeCapable (inPhase p) = true ∧ (inPhase p).te.phase = p ∧ executesDesk s = true
         ∧ takeCapable s = true ∧ s.sc.state = .run ∧ inRun (s.rf.get .A) = true ∧ inRun ((inPhase p).rf.get .A) = false
         ∧ isAxis s .A = true ∧ ((inPhase p).mo.get .A).mode = .hold))
    ∧ (∀ now ∈ [1000, 1001],
        (let s := { station with
           clock := BitVec.ofNat 32 now, te := { station.te with filledAt := some 1000, result := .done, fault := .storeFull } }
         executesDesk s = true ∧ takeCapable s = true ∧ s.te.phase = .idle ∧ s.te.result = .done ∧ s.te.fault = .storeFull
           ∧ (s.te.filledAt = some s.clock ↔ now = 1000)))
    ∧ (chanCfg station .A).bindKind ≠ .none ∧ referenced station .A = true := by decide

/-- Take 14 of one channel and one frame, whose check word is that of its sample 0, and the same with another check word. -/
def onlyA (crc : Word) : Entry :=
  { threeChannels with length := 1, pages := [5], mask := { a := true, b := false, c := false }, crc := crc }
def checking (p : Phase) (crc : Word) : State :=
  { inPhase p with ts := { oneTake with
      dir := [onlyA crc], check := if p = .checking then some { take := 14, completes := 1000 } else none } }
theorem test_witness_O48 :
    (let s := checking .idle 0
     executesDesk s = true ∧ takeCapable s = true ∧ s.te.phase = .idle
       ∧ lookupTake s.ts.dir 14 = some (onlyA 0) ∧ (onlyA 0).status = .complete
       ∧ (onlyA 0).rate = s.cfg.frameRate ∧ (onlyA 0).mask = axisMask s ∧ (onlyA 0).normalized = axisKinds s)
    ∧ (takeCapable (inPhase .cued) = true ∧ (inPhase .cued).te.phase ≠ .idle)
    ∧ (let s := checking .checking 1
       s.te.phase = .checking ∧ s.ts.check = some { take := 14, completes := 1000 } ∧ lookupTake s.ts.dir 14 = some (onlyA 1)
         ∧ checkWordOf s.ts.slots (onlyA 1) ≠ ~~~(onlyA 1).crc)
    ∧ (let crc := crc32Sample crc32Start 0
       checkWordOf (checking .checking crc).ts.slots (onlyA crc) = ~~~(onlyA crc).crc)
    ∧ (station.mo.get .A).mode = .hold := by decide +kernel
/-- CUE with each condition of R156 failing and none before it; and an intact check in RUN whose channel B refuses, by its mode and by its
reference, with A put in CUE before it. -/
theorem test_witness_O48_refusals :
    (let e := onlyA 0
     let put := fun (e : Entry) (s : State) => { s with ts := { s.ts with dir := [e] } }
     ([put { e with take := 9 } station, put { e with status := .damaged, rate := 9 } station,
       put { e with rate := 9, mask := .all true } station, put { e with mask := .all true } (withRf fun r => { r with state := .parking }),
       put { e with normalized := .all true } station, put e (withRf fun r => { r with state := .parking })].map fun s =>
       (s.te.phase, cueFault 14 s)) = [(.idle, .takeMissing), (.idle, .takeDamaged), (.idle, .rateMismatch), (.idle, .channelMismatch),
         (.idle, .channelMismatch), (.idle, .notReferenced)])
    ∧ (∀ b ∈ [(Mode.ref, RefState.referenced), (.hold, .notReferenced)],
        (let crc := crc32Sample crc32Start 0
         let s := modRf .B (fun r => { r with state := b.2 }) (modMo .B (fun m => { m with mode := b.1 }) (withAxisB 0 (checking .checking crc)))
         s.te.phase = .checking ∧ s.sc.state = .run ∧ s.ts.check.isSome = true ∧ isAxis s .B = true ∧ (s.mo.get .A).mode = .hold
           ∧ referenced s .A = true ∧ ((s.rf.get .B).state ≠ .referenced ∨ (s.mo.get .B).mode = .ref))) := by decide +kernel
/-- Cued on the take and ahead, at both ends of the lengths and of the rates. -/
theorem test_witness_O49 : executesDesk (inPhase .cued) = true ∧ takeCapable (inPhase .cued) = true
    ∧ (inPhase .cued).te.phase = .cued ∧ (inPhase .cued).te.take = (14 : Byte).toNat
    ∧ (inPhase .cued).ft.aligned = true ∧ 2 ≤ (2 : BitVec 16).toNat ∧ (346 : BitVec 16).toNat ≤ (inPhase .cued).te.length
    ∧ (inPhase .cued).te.length < (347 : BitVec 16).toNat ∧ liesAfter 101 (inPhase .cued).ft.count = true
    ∧ liesAfter 100 (inPhase .cued).ft.count = false ∧ 64 ≤ (64 : BitVec 16).toNat ∧ (256 : BitVec 16).toNat ≤ 256
    ∧ (63 : BitVec 16).toNat < 64 ∧ 256 < (257 : BitVec 16).toNat
    ∧ station.te.phase ≠ .cued := by decide +kernel
/-- A station at its start frame in a phase, the store with or without a free page, recording with an entry of a length. -/
def atFrame (p : Phase) (free : List Nat) (length : Nat) : State :=
  { inPhase p with
    te := { (inPhase p).te with start := some 100, playLen := 2, rate := 255, tau := length }
    ts := { Store.initial with free := free, dir := if p = .recording then [{ onlyA 7 with status := .recording, length := length }] else [] } }
/-- ARMED_REC with a page and without; RECORDING inside a page, at a page's end with a page free and with none, and at frame 65,535; CUED
with the channel REFERENCED and not; PLAYING short of the last sample and on it; and a start frame not reached. -/
theorem test_witness_O50 :
    (∀ p ∈ [Phase.armedRec, .recording, .cued, .playing], ∀ free ∈ [[], [9, 3]], ∀ n ∈ [1, 512, 65535],
      (let s := atFrame p free n
       Memory.wf s.ts.slots = true ∧ (∀ q ∈ s.ts.free, q < 128) ∧ (∀ e ∈ s.ts.dir, ∀ q ∈ e.pages, q < 128) ∧ s.te.phase = p
         ∧ s.te.start = some s.ft.count ∧ s.ts.free = free
         ∧ (p = .recording → (recordingEntry s.ts.dir).map (fun e => (e.length, maskCount e.mask)) = some (n, 1))
         ∧ (p = .armedRec → recordings s.ts.dir = 0 ∧ lookupTake s.ts.dir s.te.take = none ∧ s.ts.dir.length < 16)
         ∧ (s.te.tau + s.te.rate * 256 < (s.te.playLen - 1) * 65536 ↔ n = 1)))
    ∧ (refusal .play .A (modMo .A (fun m => { m with mode := .cue }) (atFrame .cued [] 1)) = none)
    ∧ (isAxis station .A = true ∧ refusal .play .A (withRf fun r => { r with state := .notReferenced }) ≠ none)
    ∧ some (101 : Word) ≠ some station.ft.count ∧ 512 % (512 / 1) = 0 ∧ 1 % (512 / 1) ≠ 0
    ∧ (station.pt.confirmed = none ∧ station.sc.pendingRelease = false ∧ ∀ n ∈ peerNumbers, requiredPeer station n = false)
    ∧ (let s := timed .holdover 8 2 40200 false
       (expiryLock s.ft).lock = .free ∧ s.ft.lock ≠ .free ∧ some (101 : Word) = some ((expiryLock s.ft).count + 1)) := by
  decide +kernel

/-- END after the append that finds the store full, at its station time, leaves DONE with STORE_FULL; before it, DONE with NONE (R155); a
microsecond later it is refused. -/
theorem test_end_at_a_full_store :
    (let report := fun (s : State) => (s.te.phase, s.te.result, s.te.fault)
     let s := atFrame .recording [] 512
     let t := takeFrameEvent s
     report (endTake t) = (.idle, .done, .storeFull) ∧ report (takeFrameEvent (endTake s)) = (.idle, .done, .none)
       ∧ report (endTake { t with clock := t.clock + 1 }) = (.idle, .refused, .busy)) := by decide +kernel
theorem test_witness_O51 :
    (let s := { station with ts := oneTake }
     executesDesk s = true ∧ takeCapable s = true ∧ s.te.phase = .idle ∧ (lookupTake s.ts.dir 14).isSome = true
       ∧ lookupTake s.ts.dir 15 = none
       ∧ s.ts.check = none)
    ∧ (lookupTake oneTake.dir 14).map (fun e => (e.protect, e.status)) = some (true, .complete)
    ∧ (let s := checking .idle 0
       (lookupTake s.ts.dir 14).map (fun e => (e.protect, e.status)) = some (false, .complete) ∧ s.ts.check = none)
    ∧ (isAxis station .A = true ∧ (chanCfg station .A).bindKind ≠ .none ∧ referenced station .A = true
       ∧ (station.mo.get .A).mode = .hold) ∧ (inPhase .cued).te.phase ≠ .idle
    ∧ (∃ e ∈ oneTake.dir, e.take = (14 : Byte).toNat)
    ∧ (∀ e ∈ oneTake.dir, e.take ≠ (15 : Byte).toNat)
    ∧ (storeCreate 1 (onlyA 0).mask (.all false) 2 [7] Store.initial).1 = .none := by decide +kernel
/-- A check that passes for RECORD, END and RUN, the last with the station itself as the only participant; and one that fails. -/
theorem test_witness_O52 : deskActive station = true ∧ pressed (buttonPlace .record) station = false
    ∧ pressed (buttonPlace .reference) { station with dk := { station.dk with buttons := List.replicate 10 ⟨true, 0⟩ } } = true
    ∧ deskCheck .record station = true ∧ deskCheck .end_ station = true
    ∧ deskCheck .run (inPhase .cued) = true ∧ deskCheck .run station = false ∧ station.dk.serial < 15 := by decide +kernel
/-- A watched serial that the next publication takes again, and one that it does not; by a press and by the held key. -/
theorem test_witness_O52_watch : ∀ watched ∈ [1, 9],
    (let s := { station with dk := { station.dk with serial := 15, watched := some watched, done := true, holdTimer := some 1000 } }
     deskActive s = true ∧ s.dk.serial = 15 ∧ deskCheck .end_ s = true ∧ (s.dk.watched = some (nextSerial s.dk.serial) ↔ watched = 1)
       ∧ s.dk.holdTimer = some 1000) := by decide +kernel
theorem test_witness_O53 : deskActive station = true ∧ station.dk.key.level = false
    ∧ (outcome .releaseKeyPress station).dk.key.level = true
    ∧ ({ station.dk with holdTimer := some 2000, refusalTimer := some 3000 } : Desk).holdTimer = some 2000
    ∧ ({ station.dk with holdTimer := some 2000, refusalTimer := some 3000 } : Desk).refusalTimer = some 3000 := by decide

/-- A scan with nothing watched, and one where the watched serial is answered with REFUSED. -/
theorem test_witness_O54 : station.dk.nextScan = some 1000
    ∧ (let s := { station with
         te := { station.te with serial := 3, result := .refused, fault := .lateStart }
         dk := { station.dk with watched := some 3 } }
       s.dk.nextScan = some 1000 ∧ s.dk.watched = some 3 ∧ s.dk.done = false
         ∧ ∃ r ∈ participants s, r.serial.toNat = 3 ∧ (r.result = 4 ∨ r.fault = 5 ∨ r.fault = 16 ∨ r.fault = 17)) := by
  decide +kernel

/-- The station with a command at the front, whose step answers a next state: the states that O56 to O60 are about. -/
def working : State := { station with pending := [.estopFilteredChange false] }
theorem test_witness_step : ∃ t, step working = .next t := ⟨_, rfl⟩
theorem test_witness_O56 : StopInv working := by
  constructor <;> decide
theorem test_witness_O57 : ModeInv working ∧ TakeInv working := by
  refine ⟨fun ch => ?_, by unfold TakeInv; decide⟩
  cases ch <;> constructor <;> decide
theorem test_witness_O58 : ZoneInv working ∧ CapInv working := by
  refine ⟨by unfold ZoneInv; decide, fun ch => ?_⟩
  cases ch <;> decide
theorem test_witness_O59 : StoreInv working.ts ∧ RecordInv working := by
  refine ⟨⟨by decide, List.Perm.refl _, ?_, ?_, ?_, ?_, ?_⟩, ?_⟩
  all_goals first | decide | (constructor <;> decide)
theorem test_witness_O60 : LockInv working ∧ TablesInv working := by
  constructor <;> constructor <;> decide

end Sys2Proof.Tests
end

section
/-! PROOFS. What the two resets leave (R178). -/

namespace Sys2Proof.Machine

/-! ## The state after a reset -/

variable (byPower : Bool) (store : Store) (s : State)

@[simp] theorem resetTo_pending : (resetTo byPower store s).pending = s.pending := rfl
@[simp] theorem resetTo_clock : (resetTo byPower store s).clock = 0 := rfl
@[simp] theorem resetTo_su : (resetTo byPower store s).su = .held byPower := rfl
@[simp] theorem resetTo_cfg : (resetTo byPower store s).cfg = .unconfigured := rfl
@[simp] theorem resetTo_ft : (resetTo byPower store s).ft = .initial := rfl
@[simp] theorem resetTo_tk : (resetTo byPower store s).tk = .initial := rfl
@[simp] theorem resetTo_pt : (resetTo byPower store s).pt = .initial := rfl
@[simp] theorem resetTo_zm : (resetTo byPower store s).zm = .initial := rfl
@[simp] theorem resetTo_sc : (resetTo byPower store s).sc = .initial 0 := rfl
@[simp] theorem resetTo_te : (resetTo byPower store s).te = .initial := rfl
@[simp] theorem resetTo_dk : (resetTo byPower store s).dk = .initial := rfl
@[simp] theorem resetTo_fb (ch : Chan) : ((resetTo byPower store s).fb.get ch) = .initial := PerChan.get_all _ ch
@[simp] theorem resetTo_mo (ch : Chan) : ((resetTo byPower store s).mo.get ch) = .initial := PerChan.get_all _ ch
@[simp] theorem resetTo_rf (ch : Chan) : ((resetTo byPower store s).rf.get ch) = .initial := PerChan.get_all _ ch
@[simp] theorem resetTo_bd (ch : Chan) : ((resetTo byPower store s).bd.get ch) = .initial := PerChan.get_all _ ch

/-- After a reset no channel is an AXIS channel, so every output is deasserted (R1, R36 to R38). -/
@[simp] theorem resetTo_isAxis (ch : Chan) : isAxis (resetTo byPower store s) ch = false := by
  simp [isAxis, chanCfg, Cfg.unconfigured, ChanCfg.unused]

theorem resetTo_outputs (ch : Chan) :
    drvEn (resetTo byPower store s) ch = false ∧ brk (resetTo byPower store s) ch = false
      ∧ pwmLevel (resetTo byPower store s) ch = false ∧ dirLevel (resetTo byPower store s) ch = false := by
  simp [drvEn, brk, pwmLevel, dirLevel]

/-- No peer has been heard after a reset (R90). -/
theorem resetTo_peerRecord (n : Nat) : peerRecord (resetTo byPower store s) n = .initial := by
  show (List.replicate 30 PeerRecord.initial).getD (n - 1) .initial = .initial
  rw [List.getD_eq_getElem?_getD, List.getElem?_replicate]
  split <;> rfl

/-- Either reset is the same reset of every block, the store and the holder of the hold apart (R178). -/
theorem exec_reset {c : Instr} (h : c = .powerReset ∨ c = .warmReset) :
    ∃ store, exec c s = .next (resetTo (decide (c = .powerReset) || powerHeld s) store s) := by
  rcases h with rfl | rfl
  · exact ⟨_, rfl⟩
  · exact ⟨_, rfl⟩

/-- Settles O4: every block but the store is at its value of reset, whichever of the two resets it was. -/
theorem blocksAfterReset : Obligations.BlocksAfterReset := by
  intro s c hc
  obtain ⟨store, hexec⟩ := exec_reset s hc
  refine ⟨_, hexec, ?_⟩
  have hout := resetTo_outputs (decide (c = .powerReset) || powerHeld s) store s
  have hpeer := resetTo_peerRecord (decide (c = .powerReset) || powerHeld s) store s
  simp [hout, hpeer, StartUp.held, Motion.initial, Feedback.initial, Reference.initial, Binding.initial, StopCtl.initial,
    CauseRec.restart, FrameTimer.initial, Trunk.initial, PeerTable.initial, PeerRecord.initial, ZoneMonitor.initial,
    TakeEngine.initial, Desk.initial]

end Sys2Proof.Machine
end

section
/-! PROOFS. What a cause leaves of the feedback and reference records: only runs in progress are touched, by the notice that RUN is
left (R49, R119). -/

namespace Sys2Proof.Machine

/-- The records of a channel after a station has left the stop state `old`: a run that was in progress in RUN has failed. -/
def RunsStopped (old : StopState) (s t : State) : Prop :=
  ∀ ch,
    t.fb.get ch = (if old = .run ∧ inRun (s.rf.get ch) = true then disarm (s.fb.get ch) else s.fb.get ch)
      ∧ t.rf.get ch = (if old = .run then stoppedRun (chanCfg s ch) (s.rf.get ch) else s.rf.get ch)

theorem RunsStopped.of_same {old : StopState} {s t : State} (h : old ≠ .run) (hfb : t.fb = s.fb) (hrf : t.rf = s.rf) :
    RunsStopped old s t := fun ch => by simp [h, hfb, hrf]

/-- The records that decide the outcome may be read before operations that leave them alone. -/
theorem RunsStopped.congr {old : StopState} {s u t : State} (h : RunsStopped old u t) (hfb : u.fb = s.fb) (hrf : u.rf = s.rf)
    (hcfg : u.cfg = s.cfg) : RunsStopped old s t := fun ch => by
  simpa only [hfb, hrf, chanCfg, hcfg] using h ch

/-- A notice that a state other than RUN is entered ends the runs in progress when RUN is left. -/
theorem stopNotice_runs (old new : StopState) (s : State) (hnew : new ≠ .run) : RunsStopped old s (stopNotice old new s) := by
  intro ch
  obtain ⟨-, hlampRf, hlampFb, -⟩ := stoppedLamp_mo new (if old = .run then takeStopped (forChans failRunStopped Chan.list s) else s)
  have hn : stopNotice old new s =
      stoppedLamp new (if old = .run then takeStopped (forChans failRunStopped Chan.list s) else s) := by
    simp [stopNotice, hnew]
  rw [hn, hlampFb, hlampRf]
  by_cases hold : old = .run
  · obtain ⟨-, htakeRf, htakeFb⟩ := takeStopped_mo (forChans failRunStopped Chan.list s)
    obtain ⟨hrf, hfb⟩ := failRuns_get s ch
    simp [hold, htakeRf, htakeFb, hrf, hfb]
  · simp [hold]

theorem requestStoppings_reads (s : State) : SameReads s (forChans requestStopping (axisChans s) s) :=
  (stopAll (axisChans s) (axisChans_nodup s) s).1

theorem cuts_reads (s : State) : SameReads s (forChans cutChannel (axisChans s) s) :=
  (cutAll (axisChans s) (axisChans_nodup s) s).1

theorem enterBraking_runs (s : State) : RunsStopped s.sc.state s (enterBraking s) :=
  (stopNotice_runs _ _ _ (by decide)).congr rfl rfl rfl

theorem enterBrakingCut_runs (s : State) : RunsStopped s.sc.state s (enterBrakingCut s) :=
  have hcut := cuts_reads (setBrake false (setStop .braking none (some (after s.clock (s.cfg.brakeEngage * 1000))) none s))
  (stopNotice_runs _ _ _ (by decide)).congr hcut.fb hcut.rf hcut.cfg

theorem enterStopping_runs (s : State) : RunsStopped s.sc.state s (enterStopping s) := by
  let s₁ := setStop .stopping (some (after s.clock (s.cfg.stopTimeout * 1000))) none none s
  let s₂ := stopNotice s.sc.state .stopping (forChans requestStopping (axisChans s₁) s₁)
  have hstop := requestStoppings_reads s₁
  have hruns : RunsStopped s.sc.state s s₂ :=
    (stopNotice_runs _ _ _ (by decide)).congr hstop.fb hstop.rf hstop.cfg
  have hstate : s₂.sc.state = .stopping := by
    show (stopNotice _ _ _).sc.state = _
    rw [(stopNotice_sc _ _ _).1, hstop.sc]; rfl
  show RunsStopped s.sc.state s (if allAtRest s₂ then enterBraking s₂ else s₂)
  split
  · intro ch
    have hbrake := enterBraking_runs s₂ ch
    simp only [hstate, reduceCtorEq, false_and, if_false] at hbrake
    rw [hbrake.1, hbrake.2]
    exact hruns ch
  · exact hruns

theorem actOnCause_runs (cut : Bool) (s : State) : RunsStopped s.sc.state s (actOnCause cut s) := by
  obtain ⟨-, h⟩ | ⟨hst, h⟩ | ⟨hst, h⟩ | ⟨hst, h⟩ := actOnCause_cases cut s <;> rw [h]
  · split
    · exact enterBrakingCut_runs s
    · exact enterStopping_runs s
  · split
    · exact enterBrakingCut_runs s
    · exact .of_same (by simp [hst]) rfl rfl
  · split
    · exact .of_same (by simp [hst]) (cuts_reads s).fb (cuts_reads s).rf
    · exact .of_same (by simp [hst]) rfl rfl
  · exact .of_same (by simp [hst]) rfl rfl

/-- A cause met in RUN ends every run in progress; met in another state it leaves the feedback and reference records alone. -/
theorem raiseCause_runs (k : CauseKind) (o c z : Byte) (s : State) : RunsStopped s.sc.state s (raiseCause k o c z s) := by
  have key : ∀ s₂ : State, s₂.fb = s.fb → s₂.rf = s.rf → s₂.cfg = s.cfg → s₂.sc.state = s.sc.state →
      RunsStopped s.sc.state s (actOnCause (isCut k) s₂) := fun s₂ hfb hrf hcfg hstate =>
    hstate ▸ (actOnCause_runs (isCut k) s₂).congr hfb hrf hcfg
  unfold raiseCause
  apply key <;> split <;> rfl

/-- What of a feedback record a disarmed capture leaves alone, a cause leaves alone. -/
theorem raiseCause_fb_keeps {α : Type} (read : Feedback → α) (hread : ∀ f, read (disarm f) = read f) (k : CauseKind)
    (o c z : Byte) (s : State) (ch : Chan) : read ((raiseCause k o c z s).fb.get ch) = read (s.fb.get ch) := by
  rw [(raiseCause_runs k o c z s ch).1]
  split
  · exact hread _
  · rfl

/-- After a failure no run is in progress (R49). -/
theorem stoppedRun_not_inRun (c : ChanCfg) (r : Reference) : inRun (stoppedRun c r) = false := by
  unfold stoppedRun
  split
  · cases ho : r.origin <;> simp [inRun, dropEnds, clearRun, stoppedFrom, ho]
  · simp_all

end Sys2Proof.Machine
end

section
/-! PROOFS. Position feedback: counting, illegal transitions and the FEEDBACK conditions (chapter 1). -/

namespace Sys2Proof.Machine

/-! ## The onset of a FEEDBACK condition (R15, R16) -/

theorem feedbackOnset_axis {ch : Chan} {s : State} (h : isAxis s ch = true) :
    feedbackOnset ch s = raiseChannel .feedback ch s := by
  have hk : (chanCfg s ch).kind = .axis := by simpa [isAxis] using h
  simp [feedbackOnset, hk]

theorem feedbackOnset_wheel {ch : Chan} {s : State} (h : isWheel s ch = true) :
    feedbackOnset ch s = modFb ch (fun f => { f with frozen := some (publishedWheel f) }) s := by
  have hk : (chanCfg s ch).kind = .wheel := by simpa [isWheel] using h
  simp [feedbackOnset, hk, publishedWheel]

/-- A channel is of one kind. -/
theorem not_isAxis_of_isWheel {ch : Chan} {s : State} (h : isWheel s ch = true) : isAxis s ch = false := by
  simp_all [isAxis, isWheel]

/-- What of a feedback record neither a disarmed capture nor a frozen value changes, an onset leaves alone on every channel. -/
theorem feedbackOnset_fb_keeps {α : Type} (read : Feedback → α) (hdisarm : ∀ f, read (disarm f) = read f)
    (hfrozen : ∀ f v, read { f with frozen := v } = read f) (ch c : Chan) (s : State) :
    read ((feedbackOnset ch s).fb.get c) = read (s.fb.get c) := by
  unfold feedbackOnset
  split
  · exact raiseCause_fb_keeps read hdisarm _ _ _ _ s c
  · by_cases hc : c = ch
    · subst hc; simp [hfrozen]
    · rw [modFb_get_ne _ _ _ _ hc]
  · rfl

theorem feedbackOnset_x (ch c : Chan) (s : State) : ((feedbackOnset ch s).fb.get c).x = (s.fb.get c).x :=
  feedbackOnset_fb_keeps (·.x) (fun _ => rfl) (fun _ _ => rfl) ch c s

/-- The record of a cause that carries a channel: this station, the channel, the frame count and the stop state met (R120). -/
def channelCause (kind : CauseKind) (ch : Chan) (s : State) : CauseRec :=
  { kind := kind, origin := stationByte s, channel := BitVec.ofNat 8 ch.number, zone := 0, frame := s.ft.count, met := s.sc.state }

theorem raiseChannel_records (kind : CauseKind) (ch : Chan) (s : State) :
    (raiseChannel kind ch s).sc.last = some (channelCause kind ch s)
      ∧ (raiseChannel kind ch s).sc.first = (if underWay s.sc.state then some (channelCause kind ch s) else s.sc.first)
      ∧ (raiseChannel kind ch s).sc.causes = satIncr 255 s.sc.causes :=
  raiseCause_records kind (stationByte s) (BitVec.ofNat 8 ch.number) 0 s

/-- An onset on an AXIS channel is recorded as FEEDBACK (R15). -/
theorem feedbackOnset_axis_records {ch : Chan} {s : State} (h : isAxis s ch = true) :
    (feedbackOnset ch s).sc.last = some (channelCause .feedback ch s)
      ∧ (feedbackOnset ch s).sc.causes = satIncr 255 s.sc.causes := by
  rw [feedbackOnset_axis h]
  obtain ⟨hlast, -, hcauses⟩ := raiseChannel_records .feedback ch s
  exact ⟨hlast, hcauses⟩

/-- An onset on a WHEEL channel freezes the published value and changes nothing else (R16). -/
theorem feedbackOnset_wheel_frozen {ch : Chan} {s : State} (h : isWheel s ch = true) :
    feedbackOnset ch s = { s with fb := (feedbackOnset ch s).fb }
      ∧ ((feedbackOnset ch s).fb.get ch).frozen = some (publishedWheel (s.fb.get ch))
      ∧ publishedWheel ((feedbackOnset ch s).fb.get ch) = publishedWheel (s.fb.get ch) := by
  rw [feedbackOnset_wheel h]
  exact ⟨rfl, by simp, by simp [publishedWheel]⟩

/-- A CUT cause with a channel, met in RUN: BRAKING with the brakes applied and every AXIS channel cut as it stood (R121). -/
theorem raiseChannel_run (kind : CauseKind) (ch : Chan) (s : State) (hcut : isCut kind = true) (hrun : s.sc.state = .run) :
    (raiseChannel kind ch s).sc.state = .braking ∧ (raiseChannel kind ch s).sc.brakeReleased = false
      ∧ ∀ c, (raiseChannel kind ch s).mo.get c = if isAxis s c = true then (cutChannel c s).mo.get c else s.mo.get c := by
  obtain ⟨hstate, hbrake, -, -, -, hmo⟩ :=
    raiseCause_cut kind (stationByte s) (BitVec.ofNat 8 ch.number) 0 s hcut (.inl (by simp [underWay, hrun]))
  exact ⟨hstate, hbrake, hmo⟩

/-- A channel that was driven has no drive and its PWM output low once it is cut (R21, R36). -/
theorem cutChannel_quiet (c : Chan) (s : State) (h : (s.mo.get c).mode ≠ .off) :
    ((cutChannel c s).mo.get c).u = 0 ∧ ((cutChannel c s).mo.get c).pwmHigh = 0 := by
  simp [cutChannel, h, requestOff]

/-! ## Counting (R3, R5) -/

theorem stepOf_unit (reversed qa qb : Bool) (line : QuadLine) :
    stepOf reversed qa qb line = 1 ∨ stepOf reversed qa qb line = -1 := by
  unfold stepOf; split
  · exact .inl rfl
  · exact .inr rfl

/-- A step is positive exactly when the pair moves one place on in the sequence of R3. -/
theorem stepPositive_qa (qa qb : Bool) :
    stepPositive qa qb .qa = decide (quadPlace (!qa) qb = (quadPlace qa qb + 1) % 4) := by
  decide +revert

theorem stepPositive_qb (qa qb : Bool) :
    stepPositive qa qb .qb = decide (quadPlace qa (!qb) = (quadPlace qa qb + 1) % 4) := by
  decide +revert

/-- A step inside the range is counted and clears the saturation condition. -/
theorem countStep_inside {δ : Int} {f : Feedback} (h : (f.x + δ).natAbs ≤ 2147483647) :
    countStep δ f = ({ f with x := f.x + δ, saturation := false }, false) := by
  unfold countStep Config.maxCount
  rw [if_neg]
  simp; omega

/-- A step out of the range is refused and sets the condition; it is an onset when the condition was clear. -/
theorem countStep_refused {δ : Int} {f : Feedback} (h : 2147483647 < (f.x + δ).natAbs) :
    countStep δ f = ({ f with saturation := true }, !f.saturation) := by
  unfold countStep Config.maxCount
  rw [if_pos]
  simp; omega

/-- The step of a legal transition on a state. -/
def legalStep (ch : Chan) (line : QuadLine) (s : State) : Int :=
  stepOf (chanCfg s ch).reversed (s.fb.get ch).qa.level (s.fb.get ch).qb.level line

@[simp] theorem followQuad_fb (ch : Chan) (s : State) : (followQuad ch s).fb = s.fb := rfl
@[simp] theorem followQuad_sc (ch : Chan) (s : State) : (followQuad ch s).sc = s.sc := rfl
@[simp] theorem followQuad_mo (ch : Chan) (s : State) : (followQuad ch s).mo = s.mo := rfl
@[simp] theorem followQuad_isAxis (ch c : Chan) (s : State) : isAxis (followQuad ch s) c = isAxis s c := rfl
@[simp] theorem followQuad_isWheel (ch c : Chan) (s : State) : isWheel (followQuad ch s) c = isWheel s c := rfl
@[simp] theorem modFb_isAxis (ch c : Chan) (g : Feedback → Feedback) (s : State) : isAxis (modFb ch g s) c = isAxis s c := rfl
@[simp] theorem modFb_isWheel (ch c : Chan) (g : Feedback → Feedback) (s : State) : isWheel (modFb ch g s) c = isWheel s c := rfl

/-- A changed feedback record with the raw encoder lines following it: nothing else changes. -/
theorem followQuad_modFb_frame (ch : Chan) (g : Feedback → Feedback) (s : State) :
    let t := followQuad ch (modFb ch g s)
    t = { s with fb := t.fb, lines := { s.lines with chans := t.lines.chans } } := rfl

theorem followQuad_lines_ne {ch c : Chan} (s : State) (h : c ≠ ch) :
    (followQuad ch s).lines.chans.get c = s.lines.chans.get c := PerChan.get_set_ne _ _ _ _ h

@[simp] theorem toggleLine_x (line : QuadLine) (f : Feedback) : (toggleLine line f).x = f.x := by cases line <;> rfl
@[simp] theorem toggleLine_saturation (line : QuadLine) (f : Feedback) : (toggleLine line f).saturation = f.saturation := by
  cases line <;> rfl
@[simp] theorem thaw_x (f : Feedback) : (thaw f).x = f.x := by unfold thaw; split <;> rfl
@[simp] theorem thaw_saturation (f : Feedback) : (thaw f).saturation = f.saturation := by unfold thaw; split <;> rfl

theorem thaw_of_fault {f : Feedback} (h : fbFault f = true) : thaw f = f := by simp [thaw, h]

/-- While a condition stands nothing is thawed, else the published value is X again (R16). -/
theorem thaw_eq (f : Feedback) : thaw f = { f with frozen := if fbFault f then f.frozen else none } := by
  unfold thaw; split <;> rfl

/-- A transition inside the range: the counted record, with its line toggled. -/
theorem exec_legalTransition_inside {ch : Chan} {line : QuadLine} {s : State} (h : readsEncoder s ch = true)
    (hin : ((s.fb.get ch).x + legalStep ch line s).natAbs ≤ 2147483647) :
    exec (.legalTransition ch line) s =
      .next (followQuad ch (modFb ch
        (fun f => thaw (toggleLine line { f with x := f.x + legalStep ch line s, saturation := false })) s)) := by
  show execLegalTransition ch line s = _
  simp only [execLegalTransition, h, if_true]
  rw [show stepOf _ _ _ _ = legalStep ch line s from rfl, countStep_inside hin]
  rfl

/-- The station after a refused step, before its onset: the line toggled and the condition set (R5). -/
def refusedStep (ch : Chan) (line : QuadLine) (s : State) : State :=
  followQuad ch (modFb ch (fun f => toggleLine line { f with saturation := true }) s)

theorem refusedStep_get (ch : Chan) (line : QuadLine) (s : State) :
    (refusedStep ch line s).fb.get ch = toggleLine line { s.fb.get ch with saturation := true } := by
  rw [refusedStep, followQuad_fb, modFb_get]

theorem publishedWheel_refusedStep (ch : Chan) (line : QuadLine) (s : State) :
    publishedWheel ((refusedStep ch line s).fb.get ch) = publishedWheel (s.fb.get ch) := by
  rw [refusedStep_get]; cases line <;> rfl

/-- A transition refused at a bound: the condition set, with the onset where it was clear. -/
theorem exec_legalTransition_refused {ch : Chan} {line : QuadLine} {s : State} (h : readsEncoder s ch = true)
    (hout : 2147483647 < ((s.fb.get ch).x + legalStep ch line s).natAbs) :
    exec (.legalTransition ch line) s =
      .next (if (s.fb.get ch).saturation then refusedStep ch line s else feedbackOnset ch (refusedStep ch line s)) := by
  have hthaw : thaw (toggleLine line { s.fb.get ch with saturation := true })
      = toggleLine line { s.fb.get ch with saturation := true } := thaw_of_fault (by simp [fbFault])
  show execLegalTransition ch line s = _
  simp only [execLegalTransition, h, if_true]
  rw [show stepOf _ _ _ _ = legalStep ch line s from rfl, countStep_refused hout]
  cases (s.fb.get ch).saturation <;> simp [refusedStep, modFb, hthaw]

/-- The direction of a counted step, read off the places of the pair before and after (R3). -/
theorem legalStep_eq (ch : Chan) (line : QuadLine) (s : State) :
    let f := s.fb.get ch
    let g := toggleLine line f
    legalStep ch line s =
      if (decide (quadPlace g.qa.level g.qb.level = (quadPlace f.qa.level f.qb.level + 1) % 4)) ≠ (chanCfg s ch).reversed
      then 1 else -1 := by
  have hx : ∀ a b : Bool, (xor a b = true) = (a ≠ b) := by decide
  cases line
  · simp only [legalStep, stepOf, stepPositive_qa, hx]; rfl
  · simp only [legalStep, stepOf, stepPositive_qb, hx]; rfl

/-- Settles O9: the two cases of `countStep`, a step inside the range and one refused at a bound, with the onset of R15 and R16. -/
theorem legalTransitionCounts : Obligations.LegalTransitionCounts := by
  intro ch line s hreads
  have hunit : legalStep ch line s = 1 ∨ legalStep ch line s = -1 := stepOf_unit _ _ _ _
  refine ⟨fun hin => ?inside, fun hbound => ?refused⟩
  case inside =>
    obtain ⟨hne, hrange⟩ : (s.fb.get ch).x ≠ 2147483647 * legalStep ch line s ∧ _ := hin
    have hin' : ((s.fb.get ch).x + legalStep ch line s).natAbs ≤ 2147483647 := by
      rcases hunit with h | h <;> rw [h] at hne ⊢ <;> omega
    refine ⟨_, exec_legalTransition_inside hreads hin', ?_, fun c hc => ?_, followQuad_modFb_frame _ _ _⟩
    · have hstep := legalStep_eq ch line s
      simp only [followQuad_fb, modFb_get, thaw_eq]
      generalize s.fb.get ch = f at hstep ⊢
      cases line
      · simp [toggleLine, toggle, fbFault, illegalRate] at hstep ⊢
        exact hstep
      · simp [toggleLine, toggle, fbFault, illegalRate] at hstep ⊢
        exact hstep
    · exact ⟨by rw [followQuad_fb, modFb_get_ne _ _ _ _ hc], followQuad_lines_ne _ hc⟩
  case refused =>
    replace hbound : (s.fb.get ch).x = 2147483647 * legalStep ch line s := hbound
    have hout : 2147483647 < ((s.fb.get ch).x + legalStep ch line s).natAbs := by
      rcases hunit with h | h <;> rw [h] at hbound ⊢ <;> omega
    have hexec := exec_legalTransition_refused hreads hout
    have hpub := publishedWheel_refusedStep ch line s
    have hx : ((refusedStep ch line s).fb.get ch).x = (s.fb.get ch).x := by simp [refusedStep_get]
    have hset : ((refusedStep ch line s).fb.get ch).saturation = true := by simp [refusedStep_get]
    cases hsat : (s.fb.get ch).saturation with
    | true =>
      rw [hsat, if_pos rfl] at hexec
      exact ⟨_, hexec, hx, hset, fun _ h => absurd h (by simp), fun _ => ⟨rfl, rfl, hpub, fun h => absurd h (by simp)⟩,
        fun _ => rfl, fun _ => rfl⟩
    | false =>
      rw [hsat, if_neg (by simp)] at hexec
      have hset' := feedbackOnset_fb_keeps (·.saturation) (fun _ => rfl) (fun _ _ => rfl) ch ch (refusedStep ch line s)
      refine ⟨_, hexec, (feedbackOnset_x ch ch _).trans hx, hset'.trans hset,
        fun haxis _ => feedbackOnset_axis_records (s := refusedStep ch line s) haxis, fun hwheel => ?_,
        fun h => absurd h (by simp), fun h => ?_⟩
      · obtain ⟨honset, hfrozen, hsame⟩ := feedbackOnset_wheel_frozen (s := refusedStep ch line s) hwheel
        exact ⟨(congrArg State.sc honset :), (congrArg State.mo honset :), hsame.trans hpub, fun _ => hpub ▸ hfrozen⟩
      · obtain ⟨honset, -⟩ := feedbackOnset_wheel_frozen (s := refusedStep ch line s) (h.resolve_right (by simp))
        rw [honset]; rfl

end Sys2Proof.Machine
end

section
namespace Sys2Proof.Machine

/-! ## Illegal transitions and leaks (R4) -/

/-- The station after an illegal transition, before its onset: both levels changed, the counter risen, the count as it was. -/
def illegalStep (ch : Chan) (s : State) : State :=
  followQuad ch (modFb ch (fun f => { f with qa := toggle f.qa, qb := toggle f.qb, illegal := satIncr 255 f.illegal }) s)

theorem illegalStep_get (ch : Chan) (s : State) :
    (illegalStep ch s).fb.get ch =
      { s.fb.get ch with
        qa := toggle (s.fb.get ch).qa, qb := toggle (s.fb.get ch).qb, illegal := satIncr 255 (s.fb.get ch).illegal } := by
  rw [illegalStep, followQuad_fb, modFb_get]

theorem exec_illegalTransition {ch : Chan} {s : State} (h : readsEncoder s ch = true) :
    exec (.illegalTransition ch) s =
      .next (if (s.fb.get ch).illegal = 7 then feedbackOnset ch (illegalStep ch s) else illegalStep ch s) := by
  show execIllegalTransition ch s = _
  simp [execIllegalTransition, h, illegalStep]

/-- A CUT cause with a channel, met in RUN: BRAKING, the brakes applied, and every AXIS channel OFF with its PWM output low. -/
theorem raiseChannel_run_quiet (kind : CauseKind) (ch : Chan) (s : State) (hcut : isCut kind = true) (hrun : s.sc.state = .run) :
    let t := raiseChannel kind ch s
    t.sc.state = .braking ∧ t.sc.brakeReleased = false
      ∧ ∀ c, isAxis s c = true → (t.mo.get c).mode = .off
          ∧ ((s.mo.get c).mode ≠ .off → (t.mo.get c).u = 0 ∧ pwmLevel t c = false) := by
  obtain ⟨hstate, hbrake, hmo⟩ := raiseChannel_run kind ch s hcut hrun
  refine ⟨hstate, hbrake, fun c haxis => ?_⟩
  have hc := (hmo c).trans (if_pos haxis)
  refine ⟨hc ▸ cutChannel_mode c s, fun hon => ?_⟩
  obtain ⟨hu, hhigh⟩ := cutChannel_quiet c s hon
  exact ⟨hc ▸ hu, by simp [pwmLevel, hc, hhigh]⟩

theorem exec_leakEvent {ch : Chan} {s : State} {time : Word} (h : (s.fb.get ch).nextLeak = some time) :
    exec (.leakEvent ch) s =
      .next (modFb ch (fun f => thaw { f with illegal := f.illegal - 1, nextLeak := some (after time 100000) })
        (advanceTo time s)) := by
  show execLeakEvent ch s = _
  simp [execLeakEvent, h]

@[simp] theorem thaw_illegal (f : Feedback) : (thaw f).illegal = f.illegal := by unfold thaw; split <;> rfl
@[simp] theorem thaw_rail (f : Feedback) : (thaw f).rail = f.rail := by unfold thaw; split <;> rfl
@[simp] theorem thaw_nextLeak (f : Feedback) : (thaw f).nextLeak = f.nextLeak := by unfold thaw; split <;> rfl

/-- With the last condition gone the published value is X again (R16). -/
theorem publishedWheel_thaw {f : Feedback} (h : fbFault f = false) : publishedWheel (thaw f) = f.x := by
  simp [publishedWheel, thaw, h]

/-- Settles O10: the counter's arrival at 8 is the onset, and a leak thaws the published value with the last condition gone. -/
theorem illegalTransitionOnset : Obligations.IllegalTransitionOnset := by
  intro ch s
  refine ⟨fun hreads => ?transition, fun time hleak => ?leak⟩
  case transition =>
    have hexec := exec_illegalTransition hreads
    have hx : ((illegalStep ch s).fb.get ch).x = (s.fb.get ch).x := by rw [illegalStep_get]
    have hcount : ((illegalStep ch s).fb.get ch).illegal = satIncr 255 (s.fb.get ch).illegal := by rw [illegalStep_get]
    have hpub : publishedWheel ((illegalStep ch s).fb.get ch) = publishedWheel (s.fb.get ch) := by rw [illegalStep_get]; rfl
    by_cases h7 : (s.fb.get ch).illegal = 7
    · rw [if_pos h7] at hexec
      have hcount' := feedbackOnset_fb_keeps (·.illegal) (fun _ => rfl) (fun _ _ => rfl) ch ch (illegalStep ch s)
      refine ⟨_, hexec, (feedbackOnset_x ch ch _).trans hx, hcount'.trans hcount, fun h => absurd h7 h, fun _ haxis => ?_,
        fun hwheel => ?_⟩
      · obtain ⟨hlast, hfirst, hcauses⟩ := raiseChannel_records .feedback ch (illegalStep ch s)
        rw [feedbackOnset_axis (s := illegalStep ch s) haxis]
        refine ⟨by rw [hlast]; rfl, hcauses, fun hrun => ?_⟩
        obtain ⟨hstate, hbrake, hoff⟩ := raiseChannel_run_quiet .feedback ch (illegalStep ch s) rfl hrun
        refine ⟨hstate, hbrake, ?_, hoff⟩
        rw [hfirst, if_pos (by simp [underWay, illegalStep, hrun])]; rfl
      · obtain ⟨honset, hfrozen, hsame⟩ := feedbackOnset_wheel_frozen (s := illegalStep ch s) hwheel
        exact ⟨(congrArg State.sc honset :), (congrArg State.mo honset :), hsame.trans hpub, fun _ => hpub ▸ hfrozen⟩
    · rw [if_neg h7] at hexec
      exact ⟨_, hexec, hx, hcount, fun _ => ⟨rfl, rfl⟩, fun h => absurd h h7, fun _ => ⟨rfl, rfl, hpub, fun h => absurd h h7⟩⟩
  case leak =>
    refine ⟨_, exec_leakEvent hleak, ?_⟩
    have hother : ∀ c, c ≠ ch → ∀ g, (modFb ch g (advanceTo time s)).fb.get c = s.fb.get c := fun c hc g => by
      rw [modFb_get_ne _ _ _ _ hc, advanceTo_fb]
    simp only [modFb_get, advanceTo_fb, thaw_illegal, thaw_nextLeak, thaw_x, thaw_rail, thaw_saturation, modFb_mo, modFb_rf,
      modFb_sc, modFb_tk, modFb_te, advanceTo_mo, advanceTo_rf, advanceTo_sc, advanceTo_tk, advanceTo_te, true_and, and_true]
    refine ⟨fun hle hrail hsat => publishedWheel_thaw ?_, fun c hc => hother c hc _⟩
    simp [fbFault, illegalRate, hrail, hsat]
    omega

end Sys2Proof.Machine
end

section
namespace Sys2Proof.Machine

@[simp] theorem perChan_set_set {α : Type} (t : PerChan α) (ch : Chan) (x y : α) : (t.set ch x).set ch y = t.set ch y := by
  cases ch <;> rfl

theorem modFb_modFb (ch : Chan) (f g : Feedback → Feedback) (s : State) :
    modFb ch f (modFb ch g s) = modFb ch (fun b => f (g b)) s := by
  simp [modFb]

/-! ## Captures (R7, R8, R44) -/

/-- A run of the sequencer takes a capture event as its offset: SEARCH_1 of an INDEX or SWITCH run (R44). -/
def searching (ch : Chan) (s : State) : Prop :=
  (s.rf.get ch).state = .search1 ∧ ((chanCfg s ch).refKind = .index ∨ (chanCfg s ch).refKind = .switch)

/-- A capture changes the channel's feedback record and, while the run searches, its pending offset. -/
theorem capture_frame (n : Int) (ch : Chan) (s : State) :
    capture n ch s =
      { s with
        fb := s.fb.set ch { s.fb.get ch with capture := .captured n, provisional := none }, rf := (capture n ch s).rf } := by
  unfold capture captureEvent
  simp only []
  split <;> rfl

theorem capture_rf_searching {n : Int} {ch : Chan} {s : State} (h : searching ch s) :
    (capture n ch s).rf = s.rf.set ch { s.rf.get ch with offset := some ((chanCfg s ch).refPosition - n) } := by
  obtain ⟨hstate, hkind⟩ := h
  have hcond : ((s.rf.get ch).state = .search1 && ((chanCfg s ch).refKind = .index || (chanCfg s ch).refKind = .switch)) = true := by
    simp [hstate, hkind]
  simp only [capture, captureEvent]
  exact congrArg State.rf (if_pos hcond)

theorem capture_rf_idle {n : Int} {ch : Chan} {s : State} (h : ¬searching ch s) : (capture n ch s).rf = s.rf := by
  have hcond : ¬((s.rf.get ch).state = .search1
      && ((chanCfg s ch).refKind = .index || (chanCfg s ch).refKind = .switch)) = true := by
    simpa [searching] using h
  simp only [capture, captureEvent]
  exact (congrArg State.rf (if_neg hcond) :)

theorem capture_get (n : Int) (ch : Chan) (s : State) :
    (capture n ch s).fb.get ch = { s.fb.get ch with capture := .captured n, provisional := none } := by
  rw [capture_frame]; exact PerChan.get_set _ _ _

theorem capture_get_ne {ch c : Chan} (n : Int) (s : State) (h : c ≠ ch) :
    (capture n ch s).fb.get c = s.fb.get c ∧ (capture n ch s).rf.get c = s.rf.get c := by
  refine ⟨by rw [capture_frame]; exact PerChan.get_set_ne _ _ _ _ h, ?_⟩
  by_cases hs : searching ch s
  · rw [capture_rf_searching hs, PerChan.get_set_ne _ _ _ _ h]
  · rw [capture_rf_idle hs]

/-! ## Index rises (R2, R7) -/

theorem exec_indexRise {ch : Chan} {s : State} (h : readsEncoder s ch = true)
    (hrise : 0 < (s.fb.get ch).rises ∨ (s.fb.get ch).qi.level = false) :
    exec (.indexRise ch) s =
      .next (if (s.fb.get ch).capture = .armed .index then capture (s.fb.get ch).x ch (riseIndex ch s) else riseIndex ch s) := by
  show execIndexRise ch s = _
  simp [execIndexRise, h, hrise]

theorem riseIndex_get (ch : Chan) (s : State) :
    (riseIndex ch s).fb.get ch =
      if 0 < (s.fb.get ch).rises then { s.fb.get ch with rises := (s.fb.get ch).rises - 1 }
      else { s.fb.get ch with qi := ⟨true, 0⟩ } := by
  rw [riseIndex_eq]; exact (modFb_get s ch (fun f => if 0 < f.rises then _ else _) :)

theorem riseIndex_get_ne {ch c : Chan} (s : State) (h : c ≠ ch) : (riseIndex ch s).fb.get c = s.fb.get c := by
  rw [riseIndex_eq]; exact (modFb_get_ne s ch c (fun f => if 0 < f.rises then _ else _) h :)

/-- The fields that a rise sets, whether the samples have shown it or not. -/
theorem riseIndex_fields (ch : Chan) (s : State) :
    let f := s.fb.get ch
    let g := (riseIndex ch s).fb.get ch
    g.rises = f.rises - 1 ∧ g.qi = (if 0 < f.rises then f.qi else ⟨true, 0⟩) ∧ g.x = f.x ∧ g.capture = f.capture := by
  simp only [riseIndex_get]
  split
  · simp
  · next h => simp [Nat.eq_zero_of_not_pos h]

/-- A rise leaves what is not its channel's feedback record or a raw line. -/
theorem riseIndex_frame (ch : Chan) (s : State) :
    (riseIndex ch s).rf = s.rf ∧ (riseIndex ch s).mo = s.mo ∧ (riseIndex ch s).sc = s.sc ∧ (riseIndex ch s).te = s.te
      ∧ (riseIndex ch s).cfg = s.cfg := by
  rw [riseIndex_eq]; exact ⟨rfl, rfl, rfl, rfl, rfl⟩

/-- Settles O13: a rise captures the count when it is armed for, and otherwise changes the accepted level alone. -/
theorem indexRiseCaptures : Obligations.IndexRiseCaptures := by
  intro ch s hreads
  refine ⟨fun hrise => ?rises, fun hnone hhigh => ?high⟩
  case rises =>
    have hexec := exec_indexRise hreads hrise
    obtain ⟨hcount, hqi, hx, hcap⟩ := riseIndex_fields ch s
    obtain ⟨hrf, hmo, hsc, hte, hcfg⟩ := riseIndex_frame ch s
    by_cases harmed : (s.fb.get ch).capture = .armed .index
    · rw [if_pos harmed] at hexec
      refine ⟨_, hexec, ?_⟩
      have hframe := capture_frame (s.fb.get ch).x ch (riseIndex ch s)
      rw [capture_get]
      refine ⟨hx, hcount, hqi, fun _ => ⟨rfl, fun hsearch hindex => ?_⟩, fun h => absurd harmed h, fun c hc => ?_,
        (congrArg State.mo hframe).trans hmo, (congrArg State.sc hframe).trans hsc, (congrArg State.te hframe).trans hte⟩
      · rw [capture_rf_searching ⟨by rw [hrf]; exact hsearch, .inl (by rw [chanCfg, hcfg]; exact hindex)⟩, PerChan.get_set]
        simp only [chanCfg, hcfg]
      · obtain ⟨hfb, hrf'⟩ := capture_get_ne (s.fb.get ch).x (riseIndex ch s) hc
        exact ⟨hfb.trans (riseIndex_get_ne s hc), hrf'.trans (by rw [hrf])⟩
    · rw [if_neg harmed] at hexec
      exact ⟨_, hexec, hx, hcount, hqi, fun h => absurd h harmed, fun _ => ⟨hcap, hrf⟩,
        fun c hc => ⟨riseIndex_get_ne s hc, by rw [hrf]⟩, hmo, hsc, hte⟩
  case high =>
    show execIndexRise ch s = _
    simp [execIndexRise, hnone, hhigh]

/-! ## Analog conversions (R9 to R11) -/

theorem railSample_iff (r : Nat) : railSample r = true ↔ r ≤ 63 ∨ 65472 ≤ r := by simp [railSample]

theorem railSample_false {r : Nat} (h : 64 ≤ r ∧ r ≤ 65471) : railSample r = false := by simp [railSample]; omega

/-- The record after a conversion's runs have been counted: its reading joins the group, and the next conversion is timed. -/
def convert (c : ChanCfg) (time : Word) (reading : Nat) (f : Feedback) : Feedback :=
  thaw { groupTrack c reading f with nextConversion := some (after time 250) }

/-- The station after the runs of a conversion have been counted, at the conversion's time (R11). -/
def tracked (ch : Chan) (time : Word) (reading : Nat) (s : State) : State := modFb ch (railTrack reading) (advanceTo time s)

theorem tracked_get (ch : Chan) (time : Word) (reading : Nat) (s : State) :
    (tracked ch time reading s).fb.get ch = railTrack reading (s.fb.get ch) := by
  rw [tracked, modFb_get, advanceTo_fb]

theorem tracked_frame (ch : Chan) (time : Word) (reading : Nat) (s : State) :
    tracked ch time reading s =
      { s with clock := (tracked ch time reading s).clock, fb := s.fb.set ch (railTrack reading (s.fb.get ch)) } := by
  simp [tracked, advanceTo_eq, modFb]

/-- A conversion sets the rail condition or leaves it as it was or clear: the first of these is an onset. -/
def railOnset (reading : Nat) (f : Feedback) : Bool := (railTrack reading f).rail && !f.rail

theorem exec_analogConversion {ch : Chan} {reading : BitVec 16} {s : State} {time : Word}
    (h : (s.fb.get ch).nextConversion = some time) :
    exec (.analogConversion ch reading) s =
      .next (modFb ch (convert (chanCfg s ch) time reading.toNat)
        (if railOnset reading.toNat (s.fb.get ch) then feedbackOnset ch (tracked ch time reading.toNat s)
         else tracked ch time reading.toNat s)) := by
  have htracked : modFb ch (fun _ => railTrack reading.toNat (s.fb.get ch)) (advanceTo time s) = tracked ch time reading.toNat s := by
    simp [tracked, modFb]
  show execAnalogConversion ch reading s = _
  simp only [execAnalogConversion, h, htracked]
  rfl

@[simp] theorem groupTrack_rail (c : ChanCfg) (r : Nat) (f : Feedback) : (groupTrack c r f).rail = f.rail := by
  simp only [groupTrack]; split <;> rfl
@[simp] theorem groupTrack_illegal (c : ChanCfg) (r : Nat) (f : Feedback) : (groupTrack c r f).illegal = f.illegal := by
  simp only [groupTrack]; split <;> rfl
@[simp] theorem groupTrack_saturation (c : ChanCfg) (r : Nat) (f : Feedback) :
    (groupTrack c r f).saturation = f.saturation := by
  simp only [groupTrack]; split <;> rfl
@[simp] theorem groupTrack_railRun (c : ChanCfg) (r : Nat) (f : Feedback) : (groupTrack c r f).railRun = f.railRun := by
  simp only [groupTrack]; split <;> rfl
@[simp] theorem groupTrack_goodRun (c : ChanCfg) (r : Nat) (f : Feedback) : (groupTrack c r f).goodRun = f.goodRun := by
  simp only [groupTrack]; split <;> rfl
@[simp] theorem groupTrack_frozen (c : ChanCfg) (r : Nat) (f : Feedback) : (groupTrack c r f).frozen = f.frozen := by
  simp only [groupTrack]; split <;> rfl

/-- A group that holds a rail sample keeps X (R9); its last reading is one of the group. -/
theorem groupTrack_x_of_rail {c : ChanCfg} {r : Nat} {f : Feedback} (h : ∃ q ∈ f.group ++ [r], railSample q = true) :
    (groupTrack c r f).x = f.x := by
  have hany : (f.group ++ [r]).any railSample = true := List.any_eq_true.mpr h
  simp only [groupTrack, hany, if_true]
  split <;> rfl

/-- The fourth reading ends its group. -/
theorem groupTrack_fourth {c : ChanCfg} {r1 r2 r3 r : Nat} {f : Feedback} (h : f.group = [r1, r2, r3]) :
    groupTrack c r f =
      { f with
        group := []
        x := if [r1, r2, r3, r].any railSample then f.x else analogPosition c ((r1 + r2 + r3 + r) / 4) } := by
  simp [groupTrack, h]

@[simp] theorem railTrack_x (r : Nat) (f : Feedback) : (railTrack r f).x = f.x := rfl
@[simp] theorem railTrack_group (r : Nat) (f : Feedback) : (railTrack r f).group = f.group := rfl
@[simp] theorem railTrack_illegal (r : Nat) (f : Feedback) : (railTrack r f).illegal = f.illegal := rfl
@[simp] theorem railTrack_saturation (r : Nat) (f : Feedback) : (railTrack r f).saturation = f.saturation := rfl
@[simp] theorem railTrack_frozen (r : Nat) (f : Feedback) : (railTrack r f).frozen = f.frozen := rfl

/-- A rail sample ends the run of good ones, and sets the condition as the fourth of its own run (R11). -/
theorem railTrack_of_rail {r : Nat} {f : Feedback} (h : railSample r = true) (hrun : f.railRun ≤ 3) :
    railTrack r f = { f with railRun := f.railRun + 1, goodRun := 0, rail := decide (f.railRun = 3) || f.rail } := by
  have hlt : f.railRun < 4 := by omega
  by_cases h3 : f.railRun = 3 <;> simp [railTrack, h, satIncr, hlt, h3]

/-- A good sample ends the run of rail samples, and clears the condition as the fourth of its own run (R11). -/
theorem railTrack_of_good {r : Nat} {f : Feedback} (h : railSample r = false) :
    railTrack r f =
      { f with
        railRun := 0, goodRun := satIncr 4 f.goodRun
        rail := if satIncr 4 f.goodRun = 4 then false else f.rail } := by
  simp [railTrack, h]

/-- A good sample is never an onset. -/
theorem railOnset_of_good {r : Nat} {f : Feedback} (h : railSample r = false) : railOnset r f = false := by
  simp only [railOnset, railTrack_of_good h]
  split <;> simp

@[simp] theorem thaw_group (f : Feedback) : (thaw f).group = f.group := by unfold thaw; split <;> rfl
@[simp] theorem thaw_railRun (f : Feedback) : (thaw f).railRun = f.railRun := by unfold thaw; split <;> rfl
@[simp] theorem thaw_goodRun (f : Feedback) : (thaw f).goodRun = f.goodRun := by unfold thaw; split <;> rfl
@[simp] theorem thaw_nextConversion (f : Feedback) : (thaw f).nextConversion = f.nextConversion := by
  unfold thaw; split <;> rfl

/-- The position of a group of good readings lies between −65,535 and 65,535 (R10). -/
theorem analogPosition_bound {c : ChanCfg} {average : Nat} (hzero : c.analogZero ≤ 65535) (haverage : average ≤ 65535) :
    -65535 ≤ analogPosition c average ∧ analogPosition c average ≤ 65535 := by
  unfold analogPosition
  split <;> omega

/-- Settles O14: the fourth good reading of a group is no onset, and sets X from the average. -/
theorem analogGroupSetsX : Obligations.AnalogGroupSetsX := by
  intro ch time r1 r2 r3 reading s hnext hgroup hgood hzero
  have hlast : railSample reading.toNat = false := railSample_false (hgood _ (by simp))
  have hall : [r1, r2, r3, reading.toNat].any railSample = false := by
    exact List.any_eq_false.mpr fun r hr => by rw [railSample_false (hgood r hr)]; simp
  have hexec := exec_analogConversion (reading := reading) hnext
  rw [railOnset_of_good hlast, if_neg (by simp)] at hexec
  have hget : (modFb ch (convert (chanCfg s ch) time reading.toNat) (tracked ch time reading.toNat s)).fb.get ch =
      thaw { railTrack reading.toNat (s.fb.get ch) with
        group := [], x := analogPosition (chanCfg s ch) ((r1 + r2 + r3 + reading.toNat) / 4)
        nextConversion := some (after time 250) } := by
    rw [modFb_get, tracked_get, convert, groupTrack_fourth (by rw [railTrack_group, hgroup]), hall]; rfl
  have hframe := tracked_frame ch time reading.toNat s
  have hbound := analogPosition_bound (c := chanCfg s ch) hzero (average := (r1 + r2 + r3 + reading.toNat) / 4) (by
    have h1 := hgood r1 (by simp); have h2 := hgood r2 (by simp); have h3 := hgood r3 (by simp)
    have h4 := hgood reading.toNat (by simp); omega)
  refine ⟨_, hexec, ?_⟩
  rw [hget]
  refine ⟨by rw [thaw_x]; rfl, by rw [thaw_x]; exact hbound.1, by rw [thaw_x]; exact hbound.2, thaw_group _,
    thaw_nextConversion _, thaw_saturation _, fun c hc => ?_, ?_⟩
  · rw [modFb_get_ne _ _ _ _ hc, hframe]; exact PerChan.get_set_ne _ _ _ _ hc
  · rw [hframe]; exact ⟨rfl, rfl, rfl, rfl⟩

/-- The record at the onset of the rail condition: X as it was, the condition set. -/
theorem onset_tracked_fields {ch : Chan} {time : Word} {reading : Nat} {s : State} (hrail : railSample reading = true)
    (hrun : (s.fb.get ch).railRun = 3) :
    let g := (feedbackOnset ch (tracked ch time reading s)).fb.get ch
    g.x = (s.fb.get ch).x ∧ g.goodRun = 0 ∧ g.rail = true := by
  have htrack := railTrack_of_rail (f := s.fb.get ch) hrail (by omega)
  refine ⟨?_, ?_, ?_⟩
  · rw [feedbackOnset_x, tracked_get, railTrack_x]
  · rw [feedbackOnset_fb_keeps (·.goodRun) (fun _ => rfl) (fun _ _ => rfl), tracked_get, htrack]
  · rw [feedbackOnset_fb_keeps (·.rail) (fun _ => rfl) (fun _ _ => rfl), tracked_get, htrack]; simp [hrun]

/-- Settles O15: the runs of R11 decide the condition, its onset follows R15 and R16, and a group with a rail sample keeps X. -/
theorem railConditionOnset : Obligations.RailConditionOnset := by
  refine ⟨?rail, ?good, ?group⟩
  case rail =>
    intro ch time reading s hnext hrail hclear hrun
    have hsample := (railSample_iff _).mpr hrail
    have htrack := railTrack_of_rail (f := s.fb.get ch) hsample hrun
    have hexec := exec_analogConversion (reading := reading) hnext
    have hframe := tracked_frame ch time reading.toNat s
    have hx : ∀ f, (convert (chanCfg s ch) time reading.toNat f).x = f.x := fun f => by
      rw [convert, thaw_x]; exact groupTrack_x_of_rail ⟨_, List.mem_append_right _ (List.mem_singleton_self _), hsample⟩
    by_cases h3 : (s.fb.get ch).railRun = 3
    · have honset : railOnset reading.toNat (s.fb.get ch) = true := by simp [railOnset, htrack, h3, hclear]
      rw [honset, if_pos rfl] at hexec
      obtain ⟨hx', hgood, hset⟩ := onset_tracked_fields (ch := ch) (time := time) hsample h3
      refine ⟨_, hexec, ?_, ?_, fun _ => ⟨?_, fun haxis => ?_, fun hwheel => ?_⟩, fun h => absurd h3 (by omega)⟩
      · rw [modFb_get, hx, hx']
      · rw [modFb_get]; simp [convert, hgood]
      · rw [modFb_get]; simp [convert, hset]
      · have haxis' : isAxis (tracked ch time reading.toNat s) ch = true := by rw [hframe]; exact haxis
        obtain ⟨hlast, hcauses⟩ := feedbackOnset_axis_records haxis'
        rw [modFb_sc, hlast, hcauses, hframe]
        exact ⟨rfl, rfl⟩
      · have hwheel' : isWheel (tracked ch time reading.toNat s) ch = true := by rw [hframe]; exact hwheel
        obtain ⟨honset, hfrozen, -⟩ := feedbackOnset_wheel_frozen hwheel'
        refine ⟨?_, ?_, ?_⟩
        · rw [modFb_sc, honset, hframe]
        · rw [modFb_mo, honset, hframe]
        · rw [modFb_get, convert, thaw_of_fault (by simp [fbFault, hset]), groupTrack_frozen, hfrozen, tracked_get]; rfl
    · have honset : railOnset reading.toNat (s.fb.get ch) = false := by simp [railOnset, htrack, h3, hclear]
      rw [honset, if_neg (by simp)] at hexec
      refine ⟨_, hexec, ?_, ?_, fun h => absurd h h3, fun _ => ⟨?_, ?_⟩⟩
      · rw [modFb_get, hx, tracked_get, railTrack_x]
      · rw [modFb_get, tracked_get, htrack]; simp [convert]
      · rw [modFb_get, tracked_get, htrack]; simp [convert, h3, hclear]
      · rw [hframe]; exact ⟨rfl, rfl⟩
  case good =>
    intro ch time reading s hnext hlo hhi hset hrun
    have hsample := railSample_false ⟨hlo, hhi⟩
    have hexec := exec_analogConversion (reading := reading) hnext
    rw [railOnset_of_good hsample, if_neg (by simp)] at hexec
    have hframe := tracked_frame ch time reading.toNat s
    have hgood : satIncr 4 (s.fb.get ch).goodRun = (s.fb.get ch).goodRun + 1 := by simp [satIncr]; omega
    refine ⟨_, hexec, by rw [hframe]; rfl, fun c hc => ?_, ?_⟩
    · rw [modFb_get_ne _ _ _ _ hc, hframe]; exact PerChan.get_set_ne _ _ _ _ hc
    · simp only [modFb_get, tracked_get, railTrack_of_good hsample, hgood]
      generalize s.fb.get ch = f at *
      refine ⟨by simp [convert], by simp [convert], by simp [convert], fun h => ?_, fun h => ?_⟩
      · have h4 : f.goodRun ≠ 3 := by omega
        simp [convert, h4, hset, thaw_eq, fbFault]
      · refine ⟨by simp [convert, h], fun hill hsat => ?_, fun hcond => ?_⟩
        · rw [convert, thaw_x, publishedWheel_thaw]
          simp [fbFault, illegalRate, h, hsat]; omega
        · rw [convert, thaw_of_fault, groupTrack_frozen]
          rcases hcond with hill | hsat <;> simp [fbFault, illegalRate, *]
  case group =>
    intro ch time r1 r2 r3 reading s hnext hgroup hrail
    have hany : ∃ q ∈ [r1, r2, r3, reading.toNat], railSample q = true := by simpa only [railSample_iff] using hrail
    have hread : ∀ {α : Type} (read : Feedback → α), (∀ f, read (disarm f) = read f) →
        (∀ f v, read { f with frozen := v } = read f) → (∀ f, read (railTrack reading.toNat f) = read f) →
        read ((if railOnset reading.toNat (s.fb.get ch) then feedbackOnset ch (tracked ch time reading.toNat s)
          else tracked ch time reading.toNat s).fb.get ch) = read (s.fb.get ch) := by
      intro α read hdisarm hfrozen htrack
      split
      · rw [feedbackOnset_fb_keeps read hdisarm hfrozen, tracked_get, htrack]
      · rw [tracked_get, htrack]
    have hfull := (hread (·.group) (fun _ => rfl) (fun _ _ => rfl) (fun _ => rfl)).trans hgroup
    have hx := hread (·.x) (fun _ => rfl) (fun _ _ => rfl) (fun _ => rfl)
    refine ⟨_, exec_analogConversion hnext, ?_, ?_, ?_⟩
    · rw [modFb_get, convert, thaw_x]
      exact (groupTrack_x_of_rail (by rw [hfull]; exact hany)).trans hx
    · rw [modFb_get, convert, thaw_group, groupTrack_fourth hfull]
    · rw [modFb_get, convert, thaw_nextConversion]

end Sys2Proof.Machine
end

section
namespace Sys2Proof.Machine

/-! ## Limit switches (R8, R12, R13) -/

/-- The station after a filtered change, before what an active switch does: the filtered state and the raw line (R12, log 4). -/
def limitChanged (ch : Chan) (sw : Switch) (active : Bool) (s : State) : State :=
  modLines ch (setLimitLine (chanCfg s ch).activeLow sw active) (modFb ch (setLimit sw active) s)

theorem limitChanged_get (ch : Chan) (sw : Switch) (active : Bool) (s : State) :
    (limitChanged ch sw active s).fb.get ch = setLimit sw active (s.fb.get ch) := by
  rw [limitChanged, modLines_fb, modFb_get]

theorem limitChanged_get_ne {ch c : Chan} (sw : Switch) (active : Bool) (s : State) (h : c ≠ ch) :
    (limitChanged ch sw active s).fb.get c = s.fb.get c := by
  rw [limitChanged, modLines_fb, modFb_get_ne _ _ _ _ h]

theorem exec_limitFilteredChange {ch : Chan} {sw : Switch} {active : Bool} {s : State} (h : readsLimits s ch = true)
    (hne : limitState (s.fb.get ch) sw ≠ active) :
    exec (.limitFilteredChange ch sw active) s =
      .next (if active then switchActive ch sw (limitChanged ch sw active s) else limitChanged ch sw active s) := by
  show execLimitFilteredChange ch sw active s = _
  simp [execLimitFilteredChange, h, hne, limitChanged]

@[simp] theorem limitState_setLimit (sw : Switch) (active : Bool) (f : Feedback) : limitState (setLimit sw active f) sw = active := by
  cases sw <;> rfl
@[simp] theorem setLimit_x (sw : Switch) (active : Bool) (f : Feedback) : (setLimit sw active f).x = f.x := by cases sw <;> rfl
@[simp] theorem setLimit_provisional (sw : Switch) (active : Bool) (f : Feedback) :
    (setLimit sw active f).provisional = f.provisional := by cases sw <;> rfl
@[simp] theorem armedFor_setLimit (sw k : Switch) (active : Bool) (f : Feedback) :
    armedFor (setLimit sw active f) k = armedFor f k := by cases sw <;> cases k <;> rfl

/-- What an active switch does to a capture that waits for it: it captures the count noted, if one was (R8, log 45). -/
def captureNoted (ch : Chan) (sw : Switch) (s : State) : State :=
  if armedFor (s.fb.get ch) sw then
    match (s.fb.get ch).provisional with
    | some n => capture n ch s
    | none => s
  else s

/-- The cause is decided by the velocity and the run as they stood before the change (R13). -/
theorem switchActive_limitChanged (ch : Chan) (sw : Switch) (s : State) :
    switchActive ch sw (limitChanged ch sw true s) =
      if !homeSignal s ch sw && movingToward (s.mo.get ch).v sw then
        raiseChannel .hardLimit ch (captureNoted ch sw (limitChanged ch sw true s))
      else captureNoted ch sw (limitChanged ch sw true s) := rfl

theorem captureNoted_some {ch : Chan} {sw : Switch} {s : State} {n : Int} (harmed : armedFor (s.fb.get ch) sw = true)
    (hnoted : (s.fb.get ch).provisional = some n) : captureNoted ch sw s = capture n ch s := by
  simp [captureNoted, harmed, hnoted]

theorem captureNoted_none {ch : Chan} {sw : Switch} {s : State}
    (h : armedFor (s.fb.get ch) sw = false ∨ (s.fb.get ch).provisional = none) : captureNoted ch sw s = s := by
  unfold captureNoted
  rcases h with h | h
  · simp [h]
  · simp [h]

/-- A count is captured, or nothing happens. -/
theorem captureNoted_cases (ch : Chan) (sw : Switch) (s : State) :
    (∃ n, captureNoted ch sw s = capture n ch s) ∨ captureNoted ch sw s = s := by
  cases harmed : armedFor (s.fb.get ch) sw with
  | false => exact .inr (captureNoted_none (.inl harmed))
  | true =>
    cases hnoted : (s.fb.get ch).provisional with
    | none => exact .inr (captureNoted_none (.inr hnoted))
    | some n => exact .inl ⟨n, captureNoted_some harmed hnoted⟩

theorem captureNoted_frame (ch : Chan) (sw : Switch) (s : State) :
    captureNoted ch sw s = { s with fb := (captureNoted ch sw s).fb, rf := (captureNoted ch sw s).rf } := by
  obtain ⟨n, h⟩ | h := captureNoted_cases ch sw s <;> rw [h]
  exact (capture_frame n ch s).trans (by rw [capture_frame])

theorem captureNoted_get_ne {ch c : Chan} (sw : Switch) (s : State) (h : c ≠ ch) :
    (captureNoted ch sw s).fb.get c = s.fb.get c ∧ (captureNoted ch sw s).rf.get c = s.rf.get c := by
  obtain ⟨n, h'⟩ | h' := captureNoted_cases ch sw s <;> rw [h']
  · exact capture_get_ne n s h
  · exact ⟨rfl, rfl⟩

/-- The filtered state and the count are no part of a capture. -/
theorem captureNoted_keeps (ch : Chan) (sw k : Switch) (s : State) :
    limitState ((captureNoted ch sw s).fb.get ch) k = limitState (s.fb.get ch) k
      ∧ ((captureNoted ch sw s).fb.get ch).x = (s.fb.get ch).x := by
  obtain ⟨n, h⟩ | h := captureNoted_cases ch sw s <;> rw [h]
  · rw [capture_get]; exact ⟨by cases k <;> rfl, rfl⟩
  · exact ⟨rfl, rfl⟩

theorem homeSignal_iff (s : State) (ch : Chan) (sw : Switch) :
    homeSignal s ch sw = true ↔
      (chanCfg s ch).refKind = .switch ∧ inRun (s.rf.get ch) = true ∧ (sw = .neg ↔ (chanCfg s ch).refNegative = true) := by
  have hhome : homeSwitch (chanCfg s ch) = sw ↔ (sw = .neg ↔ (chanCfg s ch).refNegative = true) := by
    unfold homeSwitch; cases sw <;> cases (chanCfg s ch).refNegative <;> decide
  simp only [homeSignal, Bool.and_eq_true, decide_eq_true_eq, hhome, and_assoc]

theorem movingToward_iff (v : Int) (sw : Switch) :
    movingToward v sw = true ↔ (match sw with | .pos => 0 < v | .neg => v < 0) := by
  cases sw <;> simp [movingToward]

/-- Settles O16: an active switch raises HARD_LIMIT exactly toward it and away from home, after the capture it may make. -/
theorem limitSwitchChange : Obligations.LimitSwitchChange := by
  intro ch sw s hreads
  refine ⟨fun hlimit => ?active, fun hlimit => ?inactive⟩
  case inactive =>
    have hne : limitState (s.fb.get ch) sw ≠ false := by cases sw <;> simpa [limitState] using hlimit
    rw [exec_limitFilteredChange hreads hne]
    cases sw <;> rfl
  case active =>
    have hne : limitState (s.fb.get ch) sw ≠ true := by cases sw <;> simpa [limitState] using hlimit
    have hexec := exec_limitFilteredChange hreads hne
    rw [if_pos rfl, switchActive_limitChanged] at hexec
    obtain ⟨hstate, hx⟩ := captureNoted_keeps ch sw sw (limitChanged ch sw true s)
    rw [limitChanged_get, limitState_setLimit] at hstate
    rw [limitChanged_get, setLimit_x] at hx
    have hframe := captureNoted_frame ch sw (limitChanged ch sw true s)
    have hlines : (limitChanged ch sw true s).lines =
        { s.lines with chans := s.lines.chans.set ch (setLimitLine (chanCfg s ch).activeLow sw true (s.lines.chans.get ch)) } := rfl
    by_cases hraise : (!homeSignal s ch sw && movingToward (s.mo.get ch).v sw) = true
    · rw [if_pos hraise] at hexec
      simp only [Bool.and_eq_true, Bool.not_eq_true', ← Bool.not_eq_true, homeSignal_iff, movingToward_iff] at hraise
      obtain ⟨hlast, hfirst, hcauses⟩ := raiseChannel_records .hardLimit ch (captureNoted ch sw (limitChanged ch sw true s))
      refine ⟨_, hexec, ?_, ?_, ?_, fun _ _ => ⟨?_, ?_, fun hrun => ?_⟩, fun h => ?_⟩
      · rw [raiseChannel, raiseCause_fb_keeps (limitState · sw) (fun _ => by cases sw <;> rfl), hstate]
      · rw [raiseChannel, raiseCause_fb_keeps (·.x) (fun _ => rfl), hx]
      · rw [raiseChannel, (raiseCause_same _ _ _ _ _).lines, hframe, hlines]; cases sw <;> rfl
      · rw [hlast, hframe]; rfl
      · rw [hcauses, hframe]; rfl
      · have hrun' : (captureNoted ch sw (limitChanged ch sw true s)).sc.state = .run := by rw [hframe]; exact hrun
        obtain ⟨hbraking, hbrake, hoff⟩ := raiseChannel_run_quiet .hardLimit ch _ rfl hrun'
        refine ⟨hbraking, hbrake, by rw [hfirst, hlast, hrun']; rfl, fun c haxis => (hoff c ?_).1⟩
        rw [hframe]; exact haxis
      · exact h.elim (fun hhome => absurd hhome hraise.1) (fun htoward => absurd hraise.2 htoward)
    · rw [if_neg hraise] at hexec
      simp only [Bool.and_eq_true, Bool.not_eq_true', ← Bool.not_eq_true, homeSignal_iff, movingToward_iff] at hraise
      refine ⟨_, hexec, hstate, hx, ?_, fun hhome htoward => ?_, fun _ => ⟨?_, fun c hc => ?_, fun h => ?_⟩⟩
      · rw [hframe, hlines]; cases sw <;> rfl
      · exact absurd ⟨hhome, htoward⟩ hraise
      · rw [hframe]; cases sw <;> rfl
      · obtain ⟨hfb, hrf⟩ := captureNoted_get_ne sw (limitChanged ch sw true s) hc
        exact ⟨hfb.trans (limitChanged_get_ne sw true s hc), hrf⟩
      · rw [captureNoted_none]
        · exact ⟨(limitChanged_get ch sw true s).trans (by cases sw <;> rfl), rfl⟩
        · rwa [limitChanged_get, armedFor_setLimit, setLimit_provisional]

theorem exec_provisionalCountNoted {ch : Chan} {sw : Switch} {s : State} (active : Bool) (h : readsLimits s ch = true)
    (harmed : armedFor (s.fb.get ch) sw = true) :
    exec (.provisionalCountNoted ch sw active) s =
      .next (modFb ch (fun f => { f with provisional := if active then some f.x else none })
        (modLines ch (setLimitLine (chanCfg s ch).activeLow sw active) s)) := by
  show execProvisionalCountNoted ch sw active s = _
  simp [execProvisionalCountNoted, h, harmed]

/-- Settles O17: the count is noted at the raw turn and captured as noted when the filter confirms it. -/
theorem switchCapture : Obligations.SwitchCapture := by
  intro ch sw s hreads harmed
  refine ⟨⟨_, exec_provisionalCountNoted true hreads harmed, ?_⟩, ⟨_, exec_provisionalCountNoted false hreads harmed, ?_⟩,
    fun n hnoted hlimit hquiet => ?_⟩
  · rw [modFb_get]; exact ⟨rfl, rfl, rfl, rfl, rfl⟩
  · rw [modFb_get]; exact ⟨rfl, rfl, rfl, rfl, rfl⟩
  · have hexec := exec_limitFilteredChange hreads (active := true) (by rw [hlimit]; simp)
    have hnoraise : ¬(!homeSignal s ch sw && movingToward (s.mo.get ch).v sw) = true := by
      rcases hquiet with h | h <;> simp [h]
    rw [if_pos rfl, switchActive_limitChanged, if_neg hnoraise, captureNoted_some (n := n)] at hexec
    · refine ⟨_, hexec, ?_⟩
      have hframe := capture_frame n ch (limitChanged ch sw true s)
      rw [capture_get, limitChanged_get]
      refine ⟨rfl, rfl, setLimit_x sw true _, by rw [hframe]; rfl, by rw [hframe]; rfl, fun hsearch => ?_, fun hidle => ?_⟩
      · rw [capture_rf_searching (s := limitChanged ch sw true s) hsearch]; rfl
      · rw [capture_rf_idle (s := limitChanged ch sw true s) hidle]; rfl
    · rwa [limitChanged_get, armedFor_setLimit]
    · rwa [limitChanged_get, setLimit_provisional]

end Sys2Proof.Machine
end

section
/-! PROOFS. What the filters of the sampled lines pass on (R2, R12, R104, R125, R170). -/

namespace Sys2Proof.Machine

/-! ## A line that holds its new level, and one that returns -/

theorem rejectStep_same (q : Nat) (level : Bool) (n : Nat) : rejectStep q level ⟨level, n⟩ = ⟨level, 0⟩ := by
  simp [rejectStep]

theorem rejectStep_differs (q : Nat) (level : Bool) (n : Nat) :
    rejectStep q (!level) ⟨level, n⟩ = if q ≤ n then ⟨!level, 0⟩ else ⟨level, n + 1⟩ := by
  simp [rejectStep]

/-- A sample of the level a filter has leaves that level. -/
theorem rejectStep_level_same (q : Nat) (f : Filt) : (rejectStep q f.level f).level = f.level := by simp [rejectStep]

/-- A filter that passes its change on at once is the noise rejector with its hold for qfilt. -/
theorem silentStep_eq_rejectStep (hold : Nat) (sample : Bool) (f : Filt) :
    silentStep hold sample f = rejectStep hold sample f := by
  by_cases hs : sample = f.level
  · simp [silentStep, filterStep, rejectStep, hs]
  · by_cases hr : hold ≤ f.run <;> simp [silentStep, filterStep, rejectStep, hs, hr]

/-- The (q + 1)-th sample in a row of a new level is the one that changes the filter. -/
theorem rejectStep_replicate (q n : Nat) (level : Bool) :
    (List.replicate n (!level)).foldl (fun f b => rejectStep q b f) ⟨level, 0⟩
      = (if n ≤ q then ⟨level, n⟩ else ⟨!level, 0⟩) := by
  induction n with
  | zero => simp
  | succ n ih =>
    rw [List.replicate_succ', List.foldl_append, ih]
    by_cases hle : n ≤ q
    · rw [if_pos hle]
      simp only [List.foldl_cons, List.foldl_nil, rejectStep_differs]
      by_cases hq : q ≤ n
      · rw [if_pos hq, if_neg (by omega)]
      · rw [if_neg hq, if_pos (by omega)]
    · rw [if_neg hle, if_neg (by omega)]
      exact rejectStep_same q (!level) 0

/-- A pulse too short leaves no trace once the old level is back. -/
theorem rejectStep_pulse {q n : Nat} (level : Bool) (h : n ≤ q) :
    (List.replicate n (!level) ++ [level]).foldl (fun f b => rejectStep q b f) ⟨level, 0⟩ = ⟨level, 0⟩ := by
  rw [List.foldl_append, rejectStep_replicate, if_pos h]
  exact rejectStep_same q level n

/-! ## The samples of a microsecond (R2, R3, R7) -/

/-- One sample of the three lines: what it does, then the rest of the microsecond. -/
theorem quadSamples_succ (ch : Chan) (q : Nat) (w : Wave) (n i : Nat) (a b x : Filt) :
    quadSamples ch q w (n + 1) i (a, b, x) =
      let a' := rejectStep q (w.qa.getLsbD i) a
      let b' := rejectStep q (w.qb.getLsbD i) b
      let x' := rejectStep q (w.qi.getLsbD i) x
      let r := quadSamples ch q w n (i + 1) (a', b', x')
      (r.1, quadEvents ch a.level b.level x.level a'.level b'.level x'.level ++ r.2) := rfl

/-- Each line is rejected on its own. -/
theorem quadSamples_filters (ch : Chan) (q : Nat) (w : Wave) (n i : Nat) (a b x : Filt) :
    let line := fun (bits : BitVec 20) (f : Filt) => (List.range' i n).foldl (fun f j => rejectStep q (bits.getLsbD j) f) f
    (quadSamples ch q w n i (a, b, x)).1 = (line w.qa a, line w.qb b, line w.qi x) := by
  induction n generalizing i a b x with
  | zero => rfl
  | succ n ih => rw [quadSamples_succ]; exact ih (i + 1) _ _ _

/-- The events of a sample that change QA, and those that change QB: one when the level changes and none else. -/
theorem quadEvents_changes (ch : Chan) (qa qb qi qa' qb' qi' : Bool) :
    let e := quadEvents ch qa qb qi qa' qb' qi'
    e.count (.legalTransition ch .qa) + e.count (.illegalTransition ch) = (if qa = qa' then 0 else 1)
      ∧ e.count (.legalTransition ch .qb) + e.count (.illegalTransition ch) = (if qb = qb' then 0 else 1)
      ∧ e.count (.indexRise ch) = (if qi = false ∧ qi' = true then 1 else 0) := by
  cases qi <;> cases qi' <;> by_cases ha : qa = qa' <;> by_cases hb : qb = qb' <;>
    simp [quadEvents, when_, ha, hb]

theorem mem_quadEvents {ch : Chan} {qa qb qi qa' qb' qi' : Bool} {c : Instr}
    (h : c ∈ quadEvents ch qa qb qi qa' qb' qi') :
    c = .legalTransition ch .qa ∨ c = .legalTransition ch .qb ∨ c = .illegalTransition ch ∨ c = .indexRise ch := by
  rw [quadEvents, List.mem_append, mem_when] at h
  rcases h with h | ⟨-, rfl⟩
  · split at h
    · simp_all
    · split at h
      · simp_all
      · split at h <;> simp_all
  · simp

/-- A sample that changes no accepted level gives no event. -/
theorem quadEvents_same (ch : Chan) (qa qb qi : Bool) : quadEvents ch qa qb qi qa qb qi = [] := by
  cases qi <;> simp [quadEvents, when_]

/-- An accepted level ends as it began exactly when its changes are even in number. -/
theorem even_changes_step {l l' l'' : Bool} {m k : Nat} (hm : m = if l = l' then 0 else 1) (hk : l'' = l' ↔ k % 2 = 0) :
    l'' = l ↔ (m + k) % 2 = 0 := by
  subst hm
  cases l <;> cases l' <;> cases l'' <;> simp at hk ⊢ <;> omega

/-- The events found agree with the accepted levels at the end. -/
theorem quadSamples_counts (ch : Chan) (q : Nat) (w : Wave) (n i : Nat) (a b x : Filt) :
    let r := quadSamples ch q w n i (a, b, x)
    (r.1.1.level = a.level ↔ (r.2.count (.legalTransition ch .qa) + r.2.count (.illegalTransition ch)) % 2 = 0)
      ∧ (r.1.2.1.level = b.level ↔ (r.2.count (.legalTransition ch .qb) + r.2.count (.illegalTransition ch)) % 2 = 0)
      ∧ (x.level = false → r.1.2.2.level = true → 1 ≤ r.2.count (.indexRise ch)) := by
  induction n generalizing i a b x with
  | zero => simp [quadSamples]
  | succ n ih =>
    rw [quadSamples_succ]
    obtain ⟨ha, hb, hx⟩ := ih (i + 1) (rejectStep q (w.qa.getLsbD i) a) (rejectStep q (w.qb.getLsbD i) b)
      (rejectStep q (w.qi.getLsbD i) x)
    obtain ⟨hea, heb, hex⟩ := quadEvents_changes ch a.level b.level x.level (rejectStep q (w.qa.getLsbD i) a).level
      (rejectStep q (w.qb.getLsbD i) b).level (rejectStep q (w.qi.getLsbD i) x).level
    simp only [List.count_append]
    refine ⟨?_, ?_, fun hlow hhigh => ?_⟩
    · rw [Nat.add_add_add_comm]; exact even_changes_step hea ha
    · rw [Nat.add_add_add_comm]; exact even_changes_step heb hb
    · by_cases hnow : (rejectStep q (w.qi.getLsbD i) x).level = true
      · rw [hex, if_pos ⟨hlow, hnow⟩]; omega
      · exact Nat.le_add_left_of_le (hx (Bool.eq_false_iff.mpr hnow) hhigh)

theorem mem_quadSamples {ch : Chan} {q : Nat} {w : Wave} {n i : Nat} {a b x : Filt} {c : Instr}
    (h : c ∈ (quadSamples ch q w n i (a, b, x)).2) :
    c = .legalTransition ch .qa ∨ c = .legalTransition ch .qb ∨ c = .illegalTransition ch ∨ c = .indexRise ch := by
  induction n generalizing i a b x with
  | zero => cases h
  | succ n ih =>
    rw [quadSamples_succ] at h
    rcases List.mem_append.mp h with h | h
    · exact mem_quadEvents h
    · exact ih h

/-- Lines that stand at their accepted levels give no event. -/
theorem quadSamples_steady (ch : Chan) (q : Nat) (w : Wave) (n i : Nat) (a b x : Filt)
    (ha : ∀ j, i ≤ j → j < i + n → w.qa.getLsbD j = a.level) (hb : ∀ j, i ≤ j → j < i + n → w.qb.getLsbD j = b.level)
    (hx : ∀ j, i ≤ j → j < i + n → w.qi.getLsbD j = x.level) : (quadSamples ch q w n i (a, b, x)).2 = [] := by
  induction n generalizing i a b x with
  | zero => rfl
  | succ n ih =>
    have hi : i < i + (n + 1) := by omega
    have ha' : (rejectStep q (w.qa.getLsbD i) a).level = a.level := by rw [ha i le_rfl hi, rejectStep_level_same]
    have hb' : (rejectStep q (w.qb.getLsbD i) b).level = b.level := by rw [hb i le_rfl hi, rejectStep_level_same]
    have hx' : (rejectStep q (w.qi.getLsbD i) x).level = x.level := by rw [hx i le_rfl hi, rejectStep_level_same]
    rw [quadSamples_succ]
    simp only [ha', hb', hx', quadEvents_same, List.nil_append]
    exact ih (i + 1) _ _ _ (fun j h₁ h₂ => by rw [ha', ha j (by omega) (by omega)])
      (fun j h₁ h₂ => by rw [hb', hb j (by omega) (by omega)]) (fun j h₁ h₂ => by rw [hx', hx j (by omega) (by omega)])

/-- The samples of a line that stands at one level. -/
theorem steady_bits {bits : BitVec 20} {level : Bool} (h : bits = if level then BitVec.allOnes 20 else 0) :
    ∀ j, 0 ≤ j → j < 0 + 20 → bits.getLsbD j = level := by
  intro j _ hj
  rw [h]
  cases level
  · simp
  · rw [if_pos rfl, BitVec.getLsbD_allOnes]; simpa using hj

/-- Settles O11: inductions over the samples, for the rejector, for the silent filters and for the three encoder lines. -/
theorem filtersHold : Obligations.FiltersHold := by
  refine ⟨fun q n level => ⟨rejectStep_replicate q n level, rejectStep_pulse level⟩, fun hold n level => ⟨?_, ?_, ?_⟩,
    fun ch q w a b x => ?_⟩
  · simpa only [silentStep_eq_rejectStep] using rejectStep_replicate hold n level
  · rw [filterStep_differs _ _ _ (by simp)]
  · exact filterStep_same hold ⟨level, n⟩
  · obtain ⟨ha, hb, hx⟩ := quadSamples_counts ch q w 20 0 a b x
    have hfilters := quadSamples_filters ch q w 20 0 a b x
    simp only [← List.range_eq_range'] at hfilters
    exact ⟨hfilters, ha, hb, hx, fun hqa hqb hqi =>
      quadSamples_steady ch q w 20 0 a b x (steady_bits hqa) (steady_bits hqb) (steady_bits hqi), fun c => mem_quadSamples⟩

end Sys2Proof.Machine
end

section
/-! PROOFS. What the reference sequencer does at the start and at the end of a servo update (R18, R43 to R47). -/

namespace Sys2Proof.Machine

theorem modRf_modRf (ch : Chan) (f g : Reference → Reference) (s : State) :
    modRf ch f (modRf ch g s) = modRf ch (fun r => f (g r)) s := by
  simp [modRf]

/-! ## Before the limiter (R6, R43, R44, R46) -/

/-- A back-off ends when its home switch reads inactive: the search turns to ref_dir with its capture armed (R43). -/
theorem turnBackOff_arms {ch : Chan} {s : State} (hstate : (s.rf.get ch).state = .search1) (hback : (s.rf.get ch).backOff = true)
    (hlimit : limitState (s.fb.get ch) (homeSwitch (chanCfg s ch)) = false) (haxis : isAxis s ch = true)
    (hquad : (chanCfg s ch).analog = false) :
    turnBackOff ch s =
      modFb ch (fun f => { f with capture := .armed (homeSource (chanCfg s ch)), provisional := none })
        (modRf ch (fun r => { r with backOff := false, goal := farTravel (chanCfg s ch).refNegative }) s) := by
  have harm : (isAxis s ch && !(chanCfg s ch).analog) = true := by simp [haxis, hquad]
  simp only [turnBackOff, hstate, hback, hlimit, decide_true, Bool.not_false, Bool.and_self, if_true]
  exact if_pos harm

theorem applyOffset_none {ch : Chan} {s : State} (h : (s.rf.get ch).offset = none) : applyOffset ch s = s := by
  simp [applyOffset, h]

theorem realign_waits {ch : Chan} {s : State} (h : (s.rf.get ch).realign = false ∨ (s.mo.get ch).mode = .off) :
    realign ch s = s := by
  rcases h with h | h <;> simp [realign, h]

theorem realign_acts {ch : Chan} {s : State} (h : (s.rf.get ch).realign = true) (hmode : (s.mo.get ch).mode ≠ .off) :
    realign ch s = modRf ch (fun r => { r with realign := false })
      (modMo ch (fun m => { m with p := (s.fb.get ch).x * 256, v := 0, integ := 0 }) s) := by
  simp [realign, h, hmode]

/-- The count after a shift is the sum, clamped into the range (R6). -/
theorem shiftCount_x (δ : Int) (f : Feedback) :
    (shiftCount δ f).1.x = clampInt (-Config.maxCount) Config.maxCount (f.x + δ) := by
  simp only [shiftCount]
  split
  · rfl
  · next h =>
    have hin : clampInt (-Config.maxCount) Config.maxCount (f.x + δ) = f.x + δ := by
      simp only [Bool.or_eq_true, decide_eq_true_eq, not_or, Int.not_lt] at h
      simp only [clampInt]
      rw [if_neg (by omega), if_neg (by omega)]
    split <;> exact hin.symm

/-- A shift inside the range clears the saturation condition, but for one onto a bound (R6). -/
theorem shiftCount_inside {δ : Int} {f : Feedback} (h : (f.x + δ).natAbs ≤ 2147483647) :
    shiftCount δ f =
      ({ f with x := f.x + δ, saturation := if (f.x + δ).natAbs = 2147483647 then f.saturation else false }, false) := by
  have hin : ¬(decide (f.x + δ < -Config.maxCount) || decide (Config.maxCount < f.x + δ)) = true := by
    simp only [Bool.or_eq_true, decide_eq_true_eq]; unfold Config.maxCount; omega
  have hstrict : (decide (-Config.maxCount < f.x + δ) && decide (f.x + δ < Config.maxCount)) = true
      ↔ (f.x + δ).natAbs ≠ 2147483647 := by
    simp only [Bool.and_eq_true, decide_eq_true_eq]; unfold Config.maxCount; omega
  simp only [shiftCount]
  rw [if_neg hin]
  by_cases hb : (f.x + δ).natAbs = 2147483647
  · rw [if_neg (fun h' => hstrict.mp h' hb), if_pos hb]
  · rw [if_pos (hstrict.mpr hb), if_neg hb]

/-- A shift beyond the range sets the saturation condition; it is an onset when the condition was clear (R6). -/
theorem shiftCount_beyond {δ : Int} {f : Feedback} (h : 2147483647 < (f.x + δ).natAbs) :
    (shiftCount δ f).1.saturation = true ∧ (shiftCount δ f).2 = !f.saturation := by
  have hout : (decide (f.x + δ < -Config.maxCount) || decide (Config.maxCount < f.x + δ)) = true := by
    simp only [Bool.or_eq_true, decide_eq_true_eq]; unfold Config.maxCount; omega
  simp only [shiftCount]
  rw [if_pos hout]
  exact ⟨rfl, rfl⟩

/-- The station with an offset applied, before the onset its shift may be (R44). -/
def shifted (ch : Chan) (δ : Int) (s : State) : State :=
  modRf ch (enterParking (chanCfg s ch))
    (modMo ch (fun m => { m with p := m.p + δ * 256 }) (modFb ch (fun f => disarm (shiftCount δ f).1) s))

theorem applyOffset_some {ch : Chan} {s : State} {δ : Int} (h : (s.rf.get ch).offset = some δ) :
    applyOffset ch s =
      if (shiftCount δ (s.fb.get ch)).2 then feedbackOnset ch (shifted ch δ s) else shifted ch δ s := by
  simp only [applyOffset, h]
  rfl

theorem shifted_get (ch : Chan) (δ : Int) (s : State) :
    (shifted ch δ s).fb.get ch = disarm (shiftCount δ (s.fb.get ch)).1
      ∧ (shifted ch δ s).rf.get ch = enterParking (chanCfg s ch) (s.rf.get ch) := by
  simp [shifted]

/-- What neither a frozen value nor a disarmed capture changes, an offset's onset leaves as the shift left it. -/
theorem applyOffset_fb_keeps {α : Type} (read : Feedback → α) (hdisarm : ∀ f, read (disarm f) = read f)
    (hfrozen : ∀ f v, read { f with frozen := v } = read f) {ch : Chan} {s : State} {δ : Int}
    (h : (s.rf.get ch).offset = some δ) :
    read ((applyOffset ch s).fb.get ch) = read (shiftCount δ (s.fb.get ch)).1 := by
  rw [applyOffset_some h]
  split
  · rw [feedbackOnset_fb_keeps read hdisarm hfrozen, (shifted_get ch δ s).1, hdisarm]
  · rw [(shifted_get ch δ s).1, hdisarm]

/-- The onset of an offset's shift on an AXIS channel: recorded as FEEDBACK, and in RUN the run it parked has failed (log 40). -/
theorem feedbackOnset_shifted {ch : Chan} {δ : Int} {s : State} (haxis : isAxis s ch = true) :
    let t := feedbackOnset ch (shifted ch δ s)
    (t.sc.last.map fun q => (q.kind, q.channel)) = some (.feedback, BitVec.ofNat 8 ch.number)
      ∧ (s.sc.state = .run → t.sc.state = .braking ∧ inRun (t.rf.get ch) = false) := by
  obtain ⟨hlast, -, -⟩ := raiseChannel_records .feedback ch (shifted ch δ s)
  rw [feedbackOnset_axis (s := shifted ch δ s) haxis]
  refine ⟨by rw [hlast]; rfl, fun hrun => ?_⟩
  obtain ⟨hstate, -, -⟩ := raiseChannel_run .feedback ch (shifted ch δ s) rfl hrun
  refine ⟨hstate, ?_⟩
  have hrf := (raiseCause_runs .feedback (stationByte (shifted ch δ s)) (BitVec.ofNat 8 ch.number) 0 (shifted ch δ s) ch).2
  rw [if_pos (show (shifted ch δ s).sc.state = .run from hrun)] at hrf
  rw [raiseChannel, hrf]
  exact stoppedRun_not_inRun _ _

/-! ## After the record (R45 to R47) -/

/-- In RUN, HOLD asked for by the sequencer from REF is accepted (R22). -/
theorem ask_holdBySequencer {ch : Chan} {s : State} {h : Int} (hrun : s.sc.state = .run) (hmode : (s.mo.get ch).mode = .ref) :
    ask (.holdBySequencer h) ch s = modMo ch (fun m => { m with mode := .hold, hold := h }) s := by
  simp only [ask, request, refusal, hrun, hmode, acceptedFrom, needsReference, ne_eq, not_true, if_false, decide_true, Bool.true_or,
    Bool.not_true, Bool.false_and, Bool.false_eq_true, reduceCtorEq, decide_false]
  rfl

theorem afterUpdate_parking {ch : Chan} {s : State} (h : (s.rf.get ch).state = .parking) : afterUpdate ch s = parkCheck ch s := by
  simp [afterUpdate, h]

theorem afterUpdate_searching {ch : Chan} {s : State} (h : (s.rf.get ch).state ≠ .parking) : afterUpdate ch s = stallCheck ch s := by
  simp [afterUpdate, h]

theorem parkCheck_complete {ch : Chan} {s : State} (hrun : s.sc.state = .run) (hmode : (s.mo.get ch).mode = .ref)
    (hstate : (s.rf.get ch).state = .parking) (hp : (s.mo.get ch).p = (s.rf.get ch).goal * 256) (hv : (s.mo.get ch).v = 0) :
    parkCheck ch s = modMo ch (fun m => { m with mode := .hold, hold := (s.rf.get ch).goal })
      (modRf ch (fun r => { r with state := .referenced, timer := none }) s) := by
  simp only [parkCheck, hstate, hp, hv, decide_true, Bool.and_self, if_true]
  exact ask_holdBySequencer hrun hmode

theorem parkCheck_travels {ch : Chan} {s : State} (h : (s.mo.get ch).p ≠ (s.rf.get ch).goal * 256 ∨ (s.mo.get ch).v ≠ 0) :
    parkCheck ch s = s := by
  rcases h with h | h <;> simp [parkCheck, h]

/-- What counts toward a stall (R46). -/
theorem stalled_iff (s : State) (ch : Chan) :
    stalled s ch = true ↔
      ((s.rf.get ch).state = .search1 ∧ (s.mo.get ch).ep ≤ -((chanCfg s ch).stallThreshold : Int))
        ∨ ((s.rf.get ch).state = .search2 ∧ ((chanCfg s ch).stallThreshold : Int) ≤ (s.mo.get ch).ep) := by
  unfold stalled
  cases h : (s.rf.get ch).state <;> simp

/-- The stall count of an END_STOPS search, case by case (R46, R47). -/
theorem stallCheck_search {ch : Chan} {s : State} (hkind : (chanCfg s ch).refKind = .endStops)
    (hstate : (s.rf.get ch).state = .search1 ∨ (s.rf.get ch).state = .search2) :
    stallCheck ch s =
      if stalled s ch then
        if (s.rf.get ch).stall + 1 < 50 then modRf ch (fun r => { r with stall := r.stall + 1 }) s
        else if (s.rf.get ch).state = .search1 then modRf ch (firstStall (s.mo.get ch).pos) s
        else secondStall (s.mo.get ch).pos ch s
      else modRf ch (fun r => { r with stall := 0 }) s := by
  have hcond : (decide ((chanCfg s ch).refKind = .endStops)
      && (decide ((s.rf.get ch).state = .search1) || decide ((s.rf.get ch).state = .search2))) = true := by
    simpa [hkind] using hstate
  exact if_pos hcond

theorem stallCheck_other {ch : Chan} {s : State} (hkind : (chanCfg s ch).refKind ≠ .endStops) : stallCheck ch s = s := by
  simp [stallCheck, hkind]

/-- The span is long enough for its margins (R47). -/
def goodSpan (c : ChanCfg) (span : Int) : Prop := (c.minSpan : Int) ≤ span ∧ 2 * (c.endMargin : Int) < span

theorem secondStall_parks {ch : Chan} {s : State} {pos lo : Int} (hlo : (s.rf.get ch).endLo = some lo)
    (hgood : goodSpan (chanCfg s ch) (pos - lo)) :
    secondStall pos ch s = modRf ch (fun r => { r with
      state := .parking, stall := 0, endHi := some pos, realign := true
      softLo := lo + (chanCfg s ch).endMargin, softHi := pos - (chanCfg s ch).endMargin, goal := floorDiv (lo + pos) 2 }) s := by
  obtain ⟨hmin, hmargin⟩ := hgood
  simp only [secondStall, hlo, Option.getD_some]
  rw [if_neg (by simp; omega), modRf_modRf]

theorem secondStall_fails {ch : Chan} {s : State} {pos lo : Int} (hlo : (s.rf.get ch).endLo = some lo)
    (hgood : ¬goodSpan (chanCfg s ch) (pos - lo)) :
    secondStall pos ch s =
      failRun .spanShort ch (modRf ch (fun r => { r with stall := 0, endHi := some pos, realign := true }) s) := by
  have hshort : (decide (pos - lo < (chanCfg s ch).minSpan) || decide (pos - lo ≤ 2 * ((chanCfg s ch).endMargin : Int))) = true := by
    simp only [goodSpan, not_and_or, Int.not_le, Int.not_lt] at hgood
    simpa using hgood
  simp only [secondStall, hlo, Option.getD_some]
  rw [if_pos hshort]

/-- A run that fails in RUN from REF is held where its kind says (R47, R48). -/
theorem failRun_run {ch : Chan} {s : State} (reason : FailReason) (hrun : s.sc.state = .run) (hmode : (s.mo.get ch).mode = .ref) :
    failRun reason ch s =
      modMo ch (fun m => { m with mode := .hold, hold := endPoint ch s })
        (modFb ch disarm (modRf ch (clearRun (.failed reason) ((chanCfg s ch).refKind = .endStops)) s)) :=
  ask_holdBySequencer hrun hmode

/-! ## The update as an event (R18) -/

/-- What an update's preparation leaves alone when no cause is raised by it: the stop controller, the take engine, the configuration and
the channel's mode and following condition. -/
structure Prepared (ch : Chan) (s t : State) : Prop where
  sc : t.sc = s.sc
  te : t.te = s.te
  cfg : t.cfg = s.cfg
  mode : (t.mo.get ch).mode = (s.mo.get ch).mode
  following : (t.mo.get ch).following = (s.mo.get ch).following

theorem Prepared.refl (ch : Chan) (s : State) : Prepared ch s s := ⟨rfl, rfl, rfl, rfl, rfl⟩

theorem Prepared.trans {ch : Chan} {s t u : State} (h : Prepared ch s t) (g : Prepared ch t u) : Prepared ch s u :=
  ⟨g.sc.trans h.sc, g.te.trans h.te, g.cfg.trans h.cfg, g.mode.trans h.mode, g.following.trans h.following⟩

theorem advanceTo_prepared (ch : Chan) (time : Word) (s : State) : Prepared ch s (advanceTo time s) :=
  ⟨by simp, by simp, by simp, by simp, by simp⟩

/-- A change of the channel's motion record that keeps its mode and its following condition. -/
theorem modMo_prepared {ch : Chan} {f : Motion → Motion} (s : State)
    (h : ∀ m, (f m).mode = m.mode ∧ (f m).following = m.following) : Prepared ch s (modMo ch f s) :=
  ⟨rfl, rfl, rfl, by rw [modMo_get]; exact (h _).1, by rw [modMo_get]; exact (h _).2⟩

theorem modFb_prepared (ch : Chan) (f : Feedback → Feedback) (s : State) : Prepared ch s (modFb ch f s) := ⟨rfl, rfl, rfl, rfl, rfl⟩

theorem modRf_prepared (ch : Chan) (f : Reference → Reference) (s : State) : Prepared ch s (modRf ch f s) := ⟨rfl, rfl, rfl, rfl, rfl⟩

theorem noteMapClamped_prepared (ch : Chan) (s : State) : Prepared ch s (noteMapClamped ch s) := by
  unfold noteMapClamped; simp only []; split <;> exact ⟨rfl, rfl, rfl, rfl, rfl⟩

theorem refreshLocal_prepared (ch : Chan) (s : State) : Prepared ch s (refreshLocal ch s) := by
  unfold refreshLocal
  split
  · split
    · split <;> exact ⟨rfl, rfl, rfl, rfl, rfl⟩
    · exact .refl ch s
  · exact .refl ch s

theorem armCapture_prepared (source : CaptureSource) (ch : Chan) (s : State) : Prepared ch s (armCapture source ch s) := by
  unfold armCapture; split <;> exact ⟨rfl, rfl, rfl, rfl, rfl⟩

theorem turnBackOff_prepared (ch : Chan) (s : State) : Prepared ch s (turnBackOff ch s) := by
  simp only [turnBackOff]
  split
  · exact (modRf_prepared ch _ s).trans (armCapture_prepared _ ch _)
  · exact .refl ch s

theorem realign_prepared (ch : Chan) (s : State) : Prepared ch s (realign ch s) := by
  unfold realign
  split
  · refine Prepared.trans ?_ (modRf_prepared ch _ _)
    exact modMo_prepared s fun _ => ⟨rfl, rfl⟩
  · exact .refl ch s

theorem shifted_prepared (ch : Chan) (δ : Int) (s : State) : Prepared ch s (shifted ch δ s) := by
  have hp : Prepared ch (modFb ch (fun f => disarm (shiftCount δ f).1) s)
      (modMo ch (fun m => { m with p := m.p + δ * 256 }) (modFb ch (fun f => disarm (shiftCount δ f).1) s)) :=
    modMo_prepared _ fun _ => ⟨rfl, rfl⟩
  exact ((modFb_prepared ch _ s).trans hp).trans (modRf_prepared ch _ _)

/-- An onset that leaves the stop controller in RUN was none of an AXIS channel. -/
theorem feedbackOnset_prepared {ch : Chan} {s : State} (hrun : s.sc.state = .run) (hsc : (feedbackOnset ch s).sc = s.sc) :
    Prepared ch s (feedbackOnset ch s) := by
  cases haxis : isAxis s ch with
  | true =>
    obtain ⟨hstate, -, -⟩ := raiseChannel_run .feedback ch s rfl hrun
    rw [← feedbackOnset_axis haxis, hsc, hrun] at hstate
    cases hstate
  | false =>
    have hkind : (chanCfg s ch).kind ≠ .axis := by simpa [isAxis] using haxis
    unfold feedbackOnset
    split
    · next h => exact absurd h hkind
    · exact ⟨rfl, rfl, rfl, rfl, rfl⟩
    · exact .refl ch s

theorem applyOffset_prepared {ch : Chan} {s : State} (hrun : s.sc.state = .run) (hsc : (applyOffset ch s).sc = s.sc) :
    Prepared ch s (applyOffset ch s) := by
  cases hoff : (s.rf.get ch).offset with
  | none => rw [applyOffset_none hoff]; exact .refl ch s
  | some δ =>
    rw [applyOffset_some hoff] at hsc ⊢
    split at hsc
    · next honset =>
      rw [if_pos honset]
      exact (shifted_prepared ch δ s).trans (feedbackOnset_prepared (s := shifted ch δ s) hrun hsc)
    · next honset =>
      rw [if_neg honset]
      exact shifted_prepared ch δ s

/-- In RUN, an update's preparation that has raised no cause is one of the sequencer's own. -/
theorem beforeUpdate_prepared {ch : Chan} {s : State} (hrun : s.sc.state = .run) (hsc : (beforeUpdate ch s).sc = s.sc) :
    Prepared ch s (beforeUpdate ch s) := by
  have hturn := turnBackOff_prepared ch s
  have halign := realign_prepared ch (applyOffset ch (turnBackOff ch s))
  refine (hturn.trans (applyOffset_prepared ?_ ?_)).trans halign
  · rw [hturn.sc, hrun]
  · exact halign.sc.symm.trans (hsc.trans hturn.sc.symm)

/-- Of several events in a free order one alone acts: the outcome is that event's, whatever the order. -/
theorem inAnyOrder_of_one (P : State → Prop) (g : State → State) (pre post : List (State → State)) (s : State)
    (free : ∀ order draws t, P t → P { t with order := order, draws := draws })
    (others : ∀ f ∈ pre ++ post, ∀ t, P t → f t = t) (keep : ∀ t, P t → P (g t)) (h : P s) :
    ∃ order draws, inAnyOrder (pre ++ g :: post) s = g { s with order := order, draws := draws } := by
  obtain ⟨o, d, hs⟩ := shuffle_eq (pre ++ g :: post) s
  have hperm := shuffle_perm (pre ++ g :: post) s
  obtain ⟨l₁, l₂, hl⟩ := List.append_of_mem (hperm.mem_iff.mpr (List.mem_append_right pre List.mem_cons_self))
  have hrest : (l₁ ++ l₂).Perm (pre ++ post) := by
    rw [hl] at hperm
    exact (List.perm_cons g).mp (List.perm_middle.symm.trans (hperm.trans List.perm_middle))
  have idle : ∀ (l : List (State → State)) (t : State), (∀ f ∈ l, f ∈ l₁ ++ l₂) → P t → l.foldl (fun t f => f t) t = t := by
    intro l t hmem ht
    induction l with
    | nil => rfl
    | cons f l ih =>
      rw [List.foldl_cons, others f (hrest.mem_iff.mp (hmem f List.mem_cons_self)) t ht]
      exact ih fun x hx => hmem x (List.mem_cons_of_mem _ hx)
  refine ⟨o, d, ?_⟩
  have hfree := free o d s h
  simp only [inAnyOrder, hs, hl]
  rw [List.foldl_append, idle l₁ _ (fun f hf => List.mem_append_left _ hf) hfree, List.foldl_cons,
    idle l₂ _ (fun f hf => List.mem_append_right _ hf) (keep _ hfree)]

/-- The station with other choices of the outside before it (log 2). -/
def reordered (o : List Nat) (d : Nat) (s : State) : State := { s with order := o, draws := d }

section
variable (o : List Nat) (d : Nat) (ch : Chan) (s : State)

theorem reordered_rf : (reordered o d s).rf = s.rf := rfl
theorem reordered_mo : (reordered o d s).mo = s.mo := rfl
theorem reordered_chanCfg : chanCfg (reordered o d s) ch = chanCfg s ch := rfl
theorem reordered_stalled : stalled (reordered o d s) ch = stalled s ch := rfl
theorem modRf_reordered (f : Reference → Reference) : modRf ch f (reordered o d s) = reordered o d (modRf ch f s) := rfl

/-- A request reads nothing of the free order. -/
theorem ask_reordered (r : ModeRequest) : ask r ch (reordered o d s) = reordered o d (ask r ch s) := by
  have hrefusal : refusal r ch (reordered o d s) = refusal r ch s := rfl
  simp only [ask, request, hrefusal]
  cases refusal r ch s <;> rfl

theorem failRun_reordered (reason : FailReason) :
    failRun reason ch (reordered o d s) = reordered o d (failRun reason ch s) :=
  ask_reordered o d ch (modFb ch disarm (modRf ch (clearRun (.failed reason) ((chanCfg s ch).refKind = .endStops)) s))
    (.holdBySequencer (endPoint ch s))

theorem secondStall_reordered (pos : Int) : secondStall pos ch (reordered o d s) = reordered o d (secondStall pos ch s) := by
  simp only [secondStall, reordered_rf, reordered_chanCfg, modRf_reordered, failRun_reordered]
  exact (apply_ite (reordered o d) _ _ _).symm

/-- Nor does what the sequencer does with the record of an update. -/
theorem afterUpdate_reordered : afterUpdate ch (reordered o d s) = reordered o d (afterUpdate ch s) := by
  simp only [afterUpdate, parkCheck, stallCheck, reordered_rf, reordered_mo, reordered_chanCfg, reordered_stalled, modRf_reordered,
    ask_reordered, secondStall_reordered, ← apply_ite (reordered o d)]
  rfl

end

theorem ask_te (r : ModeRequest) (ch : Chan) (s : State) : (ask r ch s).te = s.te := by
  obtain ⟨h, -⟩ | ⟨h, -⟩ := ask_cases r ch s <;> rw [h]; rfl

/-- What the sequencer does with the record of an update reaches neither the stop controller nor the take engine. -/
theorem afterUpdate_keeps (ch : Chan) (s : State) : (afterUpdate ch s).sc = s.sc ∧ (afterUpdate ch s).te = s.te := by
  have hask : ∀ r t, (ask r ch t).sc = t.sc ∧ (ask r ch t).te = t.te := fun r t => ⟨(ask_sc r ch t).1, ask_te r ch t⟩
  unfold afterUpdate
  split
  · simp only [parkCheck]
    split
    · exact hask _ _
    · exact ⟨rfl, rfl⟩
  · simp only [stallCheck, secondStall]
    repeat' split
    all_goals first | exact ⟨rfl, rfl⟩ | exact hask _ _

theorem takeAfterUpdate_idle {ch : Chan} {s : State} (h : s.te.phase = .idle) : takeAfterUpdate ch s = s := by
  simp [takeAfterUpdate, h]

/-- In RUN with no take work and no onset of the following condition, an update's record is taken by the sequencer alone. -/
theorem servoUpdate_sequencer (ch : Chan) {s : State} (hrun : s.sc.state = .run) (hphase : s.te.phase = .idle) :
    ∃ order draws, velocityReport (inAnyOrder [followingOnset false ch, afterUpdate ch, takeAfterUpdate ch] s) =
      reordered order draws (afterUpdate ch s) := by
  obtain ⟨o, d, horder⟩ := inAnyOrder_of_one (fun t => t.te.phase = .idle) (afterUpdate ch) [followingOnset false ch]
    [takeAfterUpdate ch] s (fun _ _ _ h => h)
    (by
      intro f hf t ht
      simp only [List.cons_append, List.nil_append, List.mem_cons, List.not_mem_nil, or_false] at hf
      rcases hf with rfl | rfl
      · rfl
      · exact takeAfterUpdate_idle ht)
    (fun t ht => by rw [(afterUpdate_keeps ch t).2]; exact ht) hphase
  refine ⟨o, d, ?_⟩
  rw [show [followingOnset false ch, afterUpdate ch, takeAfterUpdate ch]
    = [followingOnset false ch] ++ afterUpdate ch :: [takeAfterUpdate ch] from rfl, horder]
  have hstate : (afterUpdate ch s).sc.state = .run := by rw [(afterUpdate_keeps ch s).1, hrun]
  refine (congrArg velocityReport (afterUpdate_reordered o d ch s)).trans ?_
  simp [velocityReport, reordered, hstate]

/-- Settles O28: the preparation of an update, its outcome in REF, and the sequencer's cases after the record. -/
theorem runUpdates : Obligations.RunUpdates := by
  refine ⟨?event, ?before, ?after⟩
  case event =>
    intro ch time s hnext hmode hrun hphase s₀ s₁ s₂ hsc hfollow
    have htimed : Prepared ch (advanceTo time s) s₀ := modMo_prepared _ fun _ => ⟨rfl, rfl⟩
    have hprep₀ : Prepared ch s (refreshLocal ch s₀) :=
      ((advanceTo_prepared ch time s).trans htimed).trans (refreshLocal_prepared ch s₀)
    have hnote := noteMapClamped_prepared ch (beforeUpdate ch (refreshLocal ch s₀))
    have hprep : Prepared ch s s₁ := (hprep₀.trans (beforeUpdate_prepared (by rw [hprep₀.sc, hrun])
      (hnote.sc.symm.trans (hsc.trans hprep₀.sc.symm)))).trans hnote
    have hmode₁ : (s₁.mo.get ch).mode = .ref := hprep.mode.trans hmode
    have hcfg : chanCfg s₁ ch = chanCfg s ch := by rw [chanCfg, hprep.cfg]; rfl
    have honset : ((s₂.mo.get ch).following && !(s₁.mo.get ch).following) = false := by
      rw [hprep.following]
      cases h : (s₂.mo.get ch).following
      · rfl
      · simp [hfollow h]
    obtain ⟨o, d, hupdate⟩ := servoUpdate_sequencer ch (s := s₂) (hprep.sc ▸ hrun) (hprep.te ▸ hphase)
    refine ⟨by simp only [updateInput, rawTarget, hmode₁], by simp only [updateInput, hmode₁, speedBase, hcfg],
      by simp only [updateInput, hmode₁, pointTarget], reordered o d (afterUpdate ch s₂), ?_, rfl⟩
    show execServoUpdate ch s = _
    rw [← hupdate, ← honset]
    simp only [execServoUpdate, hnext]
    rfl
  case before =>
    intro ch s
    refine ⟨fun hstate hback hlimit hoffset halign haxis hquad => ?_, fun δ hoffset => ⟨?_, fun hin => ?_, fun hout => ?_⟩,
      realign_acts, realign_waits⟩
    · rw [beforeUpdate, turnBackOff_arms hstate hback hlimit haxis hquad, applyOffset_none, realign_waits]
      · rfl
      · simp [halign]
      · simp [hoffset]
    · rw [applyOffset_fb_keeps (·.x) (fun _ => rfl) (fun _ _ => rfl) hoffset, shiftCount_x]
    · rw [applyOffset_some hoffset, shiftCount_inside hin, if_neg (by simp)]
      simp only [shifted, modFb, shiftCount_inside hin]
      rfl
    · obtain ⟨hset, honset⟩ := shiftCount_beyond hout
      refine ⟨?_, fun hsat => ?_, fun hsat haxis => ?_⟩
      · rw [applyOffset_fb_keeps (·.saturation) (fun _ => rfl) (fun _ _ => rfl) hoffset, hset]
      · rw [applyOffset_some hoffset, honset, hsat, if_neg (by simp)]; rfl
      · rw [applyOffset_some hoffset, honset, hsat, if_pos (by simp)]
        exact feedbackOnset_shifted haxis
  case after =>
    intro ch s hrun hmode
    refine ⟨fun hstate hp hv => ?_, fun hstate hmoves => ?_, fun hkind hstate => ?_, fun hkind hstate => ?_⟩
    · rw [afterUpdate_parking hstate, parkCheck_complete hrun hmode hstate hp hv]
    · rw [afterUpdate_parking hstate, parkCheck_travels hmoves]
    · have hafter : afterUpdate ch s = stallCheck ch s :=
        afterUpdate_searching (by rcases hstate with h | h <;> simp [h])
      rw [hafter, stallCheck_search hkind hstate]
      simp only [← stalled_iff]
      refine ⟨fun hno => by rw [if_neg hno], fun hyes hfew => by rw [if_pos hyes, if_pos hfew],
        fun hyes hmany hfirst => ?_, fun lo hyes hmany hsecond hlo => ?_⟩
      · rw [if_pos hyes, if_neg (by omega), if_pos hfirst]; rfl
      · rw [if_pos hyes, if_neg (by omega), if_neg (by simp [hsecond])]
        refine ⟨fun hgood => secondStall_parks hlo hgood, fun hbad => ?_⟩
        have hfail := failRun_run (ch := ch)
          (s := modRf ch (fun r => { r with stall := 0, endHi := some (s.mo.get ch).pos, realign := true }) s) .spanShort hrun hmode
        rw [secondStall_fails hlo hbad, hfail]
        have hpoint : ∀ f, endPoint ch (modRf ch f s) = (s.fb.get ch).x := fun f => if_pos hkind
        refine ⟨?_, ?_, ?_, ?_, ?_, rfl, fun k hk => ⟨modMo_get_ne _ _ _ _ hk, ?_⟩⟩
        · simp only [modMo_rf, modFb_rf, modRf_get, clearRun_state]
        · simp only [modMo_rf, modFb_rf, modRf_get, clearRun_timer]
        · simp only [modMo_rf, modFb_rf, modRf_get, clearRun_realign, Bool.true_or]
        · simp only [modMo_rf, modFb_rf, modRf_get]; rfl
        · simp only [modMo_get, modFb_mo, modRf_mo, hpoint]
        · simp only [modMo_rf, modFb_rf, modRf_get_ne _ _ _ _ hk]
    · rw [afterUpdate_searching hstate, stallCheck_other hkind]

end Sys2Proof.Machine
end

section
/-! PROOFS. Which events of the station's own are due: each from its time on, and not before (R12, R57, R72, R73, R178). -/

namespace Sys2Proof.Machine

/-! ## The events of one source each -/

theorem mem_ite_singleton {α : Type} (p : Prop) [Decidable p] (i c : α) : c ∈ (if p then [i] else []) ↔ c = i ∧ p := by
  split <;> simp_all

theorem mem_dueOfChannel (s : State) (ch : Chan) (c : Instr) :
    c ∈ dueOfChannel s ch ↔
      c ∈ dueAt s.clock (s.fb.get ch).nextLeak (.leakEvent ch)
        ∨ c ∈ dueAt s.clock (s.fb.get ch).nextConversion (.analogConversion ch (s.lines.chans.get ch).ain)
        ∨ c ∈ dueAt s.clock (s.mo.get ch).nextUpdate (.servoUpdate ch)
        ∨ c ∈ dueAt s.clock (s.bd.get ch).timer (.wheelStaleExpiry ch)
        ∨ c ∈ dueAt s.clock (s.rf.get ch).timer (.runTimerExpiry ch) := by
  simp only [dueOfChannel, List.mem_append, or_assoc]

theorem mem_dueSend (s : State) (cls : FrameClass) (c : Instr) :
    c ∈ dueSend s cls ↔ c = .sendStart cls ∧ s.tk.flight = none ∧ (readyBody cls s.tk).isSome = true
      ∧ ∃ quiet, s.tk.quietAt = some quiet ∧ elapsed s.clock quiet % 128 = accessGap cls s.su.station := by
  unfold dueSend
  cases s.tk.quietAt with
  | none => simp
  | some quiet =>
    rw [mem_ite_singleton]
    simp only [Bool.and_eq_true, Option.isNone_iff_eq_none, Option.some.injEq, exists_eq_left', and_assoc,
      decide_eq_true_eq]
    rfl

theorem mem_dueFrameStart (s : State) (c : Instr) :
    c ∈ dueFrameStart s ↔ c = .frameStart ∧ started s = true ∧ s.tk.quietAt.isSome = true ∧ s.tk.flight = none ∧ s.tk.heard = []
      ∧ (nextSample s).1.trunk.getLsbD 0 ≠ s.tk.level := by
  rw [dueFrameStart, mem_ite_singleton]
  simp only [Bool.and_eq_true, Option.isNone_iff_eq_none, decide_eq_true_eq, and_assoc]

/-- A collision is a bit at which the line shows dominant where the station drives recessive (R75). -/
theorem collisionAt_isSome (bits others : List Bool) :
    (collisionAt bits others).isSome = true ↔ ∃ k : Nat, bits[k]? = some true ∧ others[k]? = some false := by
  induction bits generalizing others with
  | nil => simp [collisionAt]
  | cons b bs ih =>
    cases others with
    | nil => simp [collisionAt]
    | cons o os =>
      by_cases hbo : (b && !o) = true
      · obtain ⟨hb, ho⟩ : b = true ∧ o = false := by simpa using hbo
        simp only [collisionAt, hbo, if_true, Option.isSome_some, true_iff]
        exact ⟨0, by simp [hb], by simp [ho]⟩
      · simp only [collisionAt, hbo, Bool.false_eq_true, if_false, Option.isSome_map, ih]
        constructor
        · rintro ⟨k, hk⟩
          exact ⟨k + 1, by simpa using hk⟩
        · rintro ⟨k, hb, ho⟩
          cases k with
          | zero => simp at hb ho; simp [hb, ho] at hbo
          | succ k => exact ⟨k, by simpa using hb, by simpa using ho⟩

theorem mem_dueEnd (s : State) (c : Instr) :
    c ∈ dueEnd s ↔ ∃ f, s.tk.flight = some f ∧ c = .sendEnd f.others
      ∧ ((∃ k : Nat, f.bits[k]? = some true ∧ f.others[k]? = some false)
          ∨ f.bits.length ≤ f.others.length ∨ f.bits.length ≤ 4 * elapsed s.clock f.started) := by
  unfold dueEnd
  cases s.tk.flight with
  | none => simp
  | some f =>
    rw [mem_ite_singleton]
    simp only [Option.some.injEq, exists_eq_left', ← collisionAt_isSome, ← le_max_iff, Bool.or_eq_true, decide_eq_true_eq]

theorem mem_dueQuiet (s : State) (c : Instr) :
    c ∈ dueQuiet s ↔ c = .lineQuiet s.tk.heard ∧ started s = true ∧ s.tk.quietAt = none ∧ s.tk.flight = none
      ∧ reached s.clock (after s.tk.lastTransition 4) = true := by
  rw [dueQuiet, mem_ite_singleton]
  simp only [Bool.and_eq_true, Option.isNone_iff_eq_none, and_assoc]

theorem mem_dueStartUp (s : State) (c : Instr) :
    c ∈ dueStartUp s ↔
      (c = .resetRelease s.lines.straps ∧ s.su.phase = .held
          ∧ (if s.su.heldByPower then s.lines.supply else s.lines.reset) = true)
        ∨ (c = .startUpFinish s.lines.memory ∧ s.su.phase = .reading
          ∧ reached s.clock (after 0 (readTime s.lines.memory)) = true)
        ∨ (c = .warmReset ∧ s.su.phase ≠ .held ∧ 10 ≤ s.su.resetRun) := by
  unfold dueStartUp
  cases s.su.phase <;>
    simp only [List.mem_append, mem_dueAt, mem_ite_singleton, Option.some.injEq, exists_eq_left', reduceCtorEq, false_and, and_false,
      true_and, false_or, or_false, ne_eq, not_true, not_false_eq_true]

/-- A zone's clear hold timer (R106). -/
theorem mem_dueZones (s : State) (c : Instr) :
    c ∈ s.zm.zones.flatMap (fun z => dueAt s.clock z.timer (.clearHoldExpiry z.cfg.id)) ↔
      ∃ z ∈ s.zm.zones, c = .clearHoldExpiry z.cfg.id ∧ ∃ w, z.timer = some w ∧ reached s.clock w = true := by
  simp only [List.mem_flatMap, mem_dueAt]

theorem publishTime_some (slot : StateSlot) (w : Word) :
    publishTime slot = some w ↔ ∃ body, slot = .waiting body w := by
  cases slot <;> simp [publishTime]

/-- Every source of a due event (R57). -/
theorem mem_dueEvents (s : State) (c : Instr) :
    c ∈ dueEvents s ↔
      c ∈ dueStartUp s ∨ (∃ ch, c ∈ dueOfChannel s ch) ∨ c ∈ dueAt s.clock s.ft.deadline .frameDeadlineExpiry
        ∨ c ∈ dueAt s.clock (publishTime s.tk.stateSlot) .publishTimeExpiry ∨ c ∈ dueAt s.clock s.tk.wheelTimer .wheelTimerExpiry
        ∨ (∃ cls, c ∈ dueSend s cls) ∨ c ∈ dueFrameStart s ∨ c ∈ dueEnd s ∨ c ∈ dueQuiet s
        ∨ c ∈ s.zm.zones.flatMap (fun z => dueAt s.clock z.timer (.clearHoldExpiry z.cfg.id))
        ∨ c ∈ dueAt s.clock s.zm.nextScan .zoneScan ∨ c ∈ dueAt s.clock s.sc.stopTimer .stopTimerExpiry
        ∨ c ∈ dueAt s.clock s.sc.brakeTimer .brakeTimerExpiry ∨ c ∈ dueAt s.clock s.sc.releaseTimer .releaseTimerExpiry
        ∨ c ∈ dueAt s.clock (s.ts.check.map fun r => r.completes) .checkRunCompletion
        ∨ c ∈ dueAt s.clock s.dk.holdTimer .releaseHoldExpiry ∨ c ∈ dueAt s.clock s.dk.refusalTimer .refusalLampExpiry
        ∨ c ∈ dueAt s.clock s.dk.nextScan .panelScan := by
  have hchan : (∃ ch, c ∈ dueOfChannel s ch) ↔ c ∈ Chan.list.flatMap (dueOfChannel s) := by
    rw [List.mem_flatMap]
    exact exists_congr fun ch => ⟨fun h => ⟨by cases ch <;> simp [Chan.list], h⟩, fun h => h.2⟩
  have hcls : (∃ cls, c ∈ dueSend s cls) ↔ c ∈ [FrameClass.stop, .wheel, .state].flatMap (dueSend s) := by
    rw [List.mem_flatMap]
    exact exists_congr fun cls => ⟨fun h => ⟨by cases cls <;> simp, h⟩, fun h => h.2⟩
  rw [hchan, hcls]
  simp only [dueEvents, List.mem_append, or_assoc]

/-- Each timed event is due exactly from its time on: what O12 says of timers. -/
theorem dueFromTheirTime_all (s : State) : dueFromTheirTime s := by
  have hmem := fun c => mem_dueEvents s c
  simp only [mem_dueStartUp, mem_dueOfChannel, mem_dueSend, mem_dueFrameStart, mem_dueEnd, mem_dueQuiet, mem_dueZones, mem_dueAt,
    publishTime_some] at hmem
  unfold dueFromTheirTime
  simp only [hmem, reduceCtorEq, false_and, and_false, exists_false, false_or, or_false, true_and, Instr.leakEvent.injEq,
    Instr.analogConversion.injEq, Instr.servoUpdate.injEq, Instr.wheelStaleExpiry.injEq, Instr.runTimerExpiry.injEq,
    Instr.sendStart.injEq, Instr.sendEnd.injEq, Instr.lineQuiet.injEq, Instr.clearHoldExpiry.injEq, Instr.resetRelease.injEq,
    Instr.startUpFinish.injEq, exists_eq_left', and_assoc, Option.map_eq_some_iff]
  refine ⟨fun _ => ⟨fun _ => trivial, trivial⟩, ?publish, fun zone => ?zone, ?check, fun _ => trivial, fun others => ?sent,
    fun _ => trivial, fun _ => trivial, fun _ => trivial⟩
  case publish =>
    exact ⟨fun ⟨w, ⟨body, hslot⟩, hw⟩ => ⟨body, w, hslot, hw⟩, fun ⟨body, w, hslot, hw⟩ => ⟨w, ⟨body, hslot⟩, hw⟩⟩
  case zone => simp only [eq_comm (a := zone)]
  case check => simp
  case sent =>
    refine exists_congr fun f => and_congr_right fun _ => and_congr_right ?_
    rintro rfl
    rfl

end Sys2Proof.Machine
end

section
/-! PROOFS. The step on an empty queue while an event is due or found by sampling: one of them goes into the queue (log 2, log 3). -/

namespace Sys2Proof.Machine

/-- Taking the k-th candidate takes the head of the k-th stream, or, past the streams, one of the rest. -/
theorem dropHead_takes (rest : List Instr) {c : Instr} (streams : List (List Instr)) (k : Nat) (hne : ∀ es ∈ streams, es ≠ [])
    (h : (streams.filterMap List.head? ++ rest)[k]? = some c) :
    streams.flatten.Perm (c :: (dropHead k streams).flatten) ∨ (c ∈ rest ∧ dropHead k streams = streams) := by
  induction streams generalizing k with
  | nil => exact .inr ⟨List.mem_of_getElem? h, by cases k <;> rfl⟩
  | cons es streams ih =>
    cases es with
    | nil => exact absurd rfl (hne [] List.mem_cons_self)
    | cons e es =>
      cases k with
      | zero =>
        obtain rfl : e = c := by simpa using h
        exact .inl (.refl _)
      | succ k =>
        rcases ih k (fun x hx => hne x (List.mem_cons_of_mem _ hx)) (by simpa using h) with hperm | ⟨hc, hsame⟩
        · exact .inl ((hperm.append_left (e :: es)).trans List.perm_middle)
        · exact .inr ⟨hc, by simp [dropHead, hsame]⟩

/-- An event is taken alone into the queue, by a choice that changes the free order alone. -/
theorem takeEvent_eq (streams : List (List Instr)) {candidates : List Instr} (s : State) (h : candidates ≠ []) :
    ∃ k c order draws, candidates[k]? = some c ∧ takeEvent streams candidates s =
      { s with
        pending := [c], sampled := (dropHead k streams).filter fun es => es ≠ [], order := order, draws := draws } := by
  have hpos : 0 < candidates.length := List.length_pos_iff.mpr h
  have hone : ∀ k (hk : k < candidates.length), (candidates.drop k).take 1 = [candidates[k]] := fun k hk => by
    rw [List.drop_eq_getElem_cons hk]; rfl
  by_cases hlen : candidates.length ≤ 1
  · exact ⟨0, candidates[0], s.order, s.draws, List.getElem?_eq_getElem hpos, by
      simp only [takeEvent, hlen, if_true, hone 0 hpos]⟩
  · have hk := draw_lt candidates.length s hpos
    exact ⟨(draw candidates.length s).1, candidates[(draw candidates.length s).1], s.order.tail, s.draws + 1,
      List.getElem?_eq_getElem hk, by simp only [takeEvent, hlen, if_false, hone _ hk, draw_eq]⟩

/-- With no event found or due the candidates are none. -/
theorem candidates_eq_nil (s : State) :
    (s.sampled.filter fun es => es ≠ []).filterMap List.head? ++ dueEvents s = [] ↔
      s.sampled.flatten = [] ∧ dueEvents s = [] := by
  rw [List.append_eq_nil_iff, List.filterMap_eq_nil_iff, List.flatten_eq_nil_iff]
  refine and_congr_left fun _ => forall_congr' fun es => ?_
  cases es <;> simp

theorem idle_takes {s : State} (h : s.sampled.flatten ++ dueEvents s ≠ []) :
    ∃ c ∈ s.sampled.flatten ++ dueEvents s, ∃ sampled order draws,
      idle s = { s with pending := [c], sampled := sampled, order := order, draws := draws }
        ∧ (s.sampled.flatten.Perm (c :: sampled.flatten) ∨ (c ∈ dueEvents s ∧ sampled.flatten = s.sampled.flatten)) := by
  have hcand : (s.sampled.filter fun es => es ≠ []).filterMap List.head? ++ dueEvents s ≠ [] := fun hnil =>
    h (by rw [List.append_eq_nil_iff]; exact (candidates_eq_nil s).mp hnil)
  obtain ⟨k, c, order, draws, hk, htake⟩ := takeEvent_eq (s.sampled.filter fun es => es ≠ []) s hcand
  have hidle : idle s = _ := (if_neg hcand).trans htake
  have hcase := dropHead_takes (dueEvents s) (s.sampled.filter fun es => es ≠ []) k
    (fun es hes => by simpa using (List.mem_filter.mp hes).2) hk
  rw [List.flatten_filter_ne_nil] at hcase
  refine ⟨c, ?_, _, order, draws, hidle, ?_⟩
  · rcases hcase with hperm | ⟨hc, -⟩
    · exact List.mem_append_left _ (hperm.mem_iff.mpr List.mem_cons_self)
    · exact List.mem_append_right _ hc
  · rcases hcase with hperm | ⟨hc, hsame⟩
    · exact .inl (by rwa [List.flatten_filter_ne_nil])
    · exact .inr ⟨hc, by rw [List.flatten_filter_ne_nil, hsame, List.flatten_filter_ne_nil]⟩

theorem idle_ticks {s : State} (hfound : s.sampled.flatten = []) (hdue : dueEvents s = []) : idle s = tick s :=
  if_pos ((candidates_eq_nil s).mpr ⟨hfound, hdue⟩)

end Sys2Proof.Machine
end

section
/-! PROOFS. The parts of a microsecond: for each what it leaves and which events it finds (R2, R12, R36, R59, R71, R104, R125, R170). -/

namespace Sys2Proof.Machine

/-! ## Banks of filters: the presence lines and the panel's buttons -/

/-- Filters of a bank that take their samples one after another: each its own, whatever came before, and so their events. -/
theorem foldl_bank {ι : Type} [DecidableEq ι] (op : State → ι → State) (bank : State → List Filt) (place : ι → Nat)
    (value : State → ι → Filt) (events : State → ι → List Instr)
    (hbank : ∀ s i, bank (op s i) = (bank s).set (place i) (value s i))
    (hvalue : ∀ s i j, i ≠ j → value (op s i) j = value s j) (hevents : ∀ s i j, i ≠ j → events (op s i) j = events s j)
    (hposted : ∀ s i, (op s i).sampled.flatten = s.sampled.flatten ++ events s i)
    (hplace : ∀ i j, place i = place j → i = j) (l : List ι) (hnodup : l.Nodup) (s : State) :
    (bank (l.foldl op s)).length = (bank s).length
      ∧ (∀ i ∈ l, place i < (bank s).length → (bank (l.foldl op s)).getD (place i) ⟨true, 0⟩ = value s i)
      ∧ (∀ i, i ∉ l → (bank (l.foldl op s)).getD (place i) ⟨true, 0⟩ = (bank s).getD (place i) ⟨true, 0⟩)
      ∧ (l.foldl op s).sampled.flatten = s.sampled.flatten ++ l.flatMap (events s) := by
  induction l generalizing s with
  | nil => simp
  | cons j l ih =>
    obtain ⟨hj, hl⟩ := List.nodup_cons.mp hnodup
    obtain ⟨hlength, hin, hout, hflat⟩ := ih hl (op s j)
    rw [hbank, List.length_set] at hlength
    simp only [List.foldl_cons]
    refine ⟨hlength, fun i hi hlt => ?_, fun i hi => ?_, ?_⟩
    · rcases List.mem_cons.mp hi with rfl | hi
      · rw [hout i hj, hbank, List.getD_eq_getElem?_getD, List.getElem?_set_self hlt]; rfl
      · have hne : j ≠ i := fun h => hj (h ▸ hi)
        rw [hin i hi (by rwa [hbank, List.length_set]), hvalue s j i hne]
    · have hne : j ≠ i := fun h => hi (h ▸ List.mem_cons_self)
      rw [hout i fun h => hi (List.mem_cons_of_mem _ h), hbank, List.getD_eq_getElem?_getD, List.getElem?_set_ne (fun h => hne (hplace _ _ h)),
        ← List.getD_eq_getElem?_getD]
    · have hsame : l.flatMap (events (op s j)) = l.flatMap (events s) :=
        List.flatMap_congr fun i hi => hevents s j i fun h => hj (h ▸ hi)
      rw [hflat, hposted, hsame, List.flatMap_cons, List.append_assoc]

/-! ## The chain and the presence lines (R104, R125) -/

/-- The event of the chain's sample. -/
def chainEvents (s : State) : List Instr :=
  when_ (filterStep chainHold s.lines.estop s.sc.estop).2 (.estopFilteredChange s.lines.estop)

theorem tickChain_flatten (s : State) : (tickChain s).sampled.flatten = s.sampled.flatten ++ chainEvents s :=
  post_flatten _ _

/-- The presence filter of a line after its sample. -/
def presenceAfter (s : State) (i : Fin 4) : Filt × Bool :=
  filterStep panelHold (readsOccupied s.cfg.polarity s.lines.presence i.val) (s.zm.presence.getD i.val ⟨true, 0⟩)

/-- The event of a presence line's sample. -/
def presenceEvents (s : State) (i : Fin 4) : List Instr :=
  when_ (presenceAfter s i).2 (.presenceFilteredChange i (readsOccupied s.cfg.polarity s.lines.presence i.val))

theorem tickPresence_flatten (i : Fin 4) (s : State) :
    (tickPresence i s).sampled.flatten = s.sampled.flatten ++ presenceEvents s i := post_flatten _ _

theorem presenceAfter_tickPresence {i j : Fin 4} (s : State) (h : i ≠ j) : presenceAfter (tickPresence i s) j = presenceAfter s j := by
  rw [tickPresence_frame]
  simp only [presenceAfter]
  rw [List.getD_eq_getElem?_getD, List.getElem?_set_ne (fun hij => h (Fin.ext hij)), ← List.getD_eq_getElem?_getD]

theorem presenceEvents_tickPresence {i j : Fin 4} (s : State) (h : i ≠ j) :
    presenceEvents (tickPresence i s) j = presenceEvents s j := by
  simp only [presenceEvents, presenceAfter_tickPresence s h]
  rw [tickPresence_frame]

/-- The four presence lines in turn. -/
def tickPresences (s : State) : State := [0, 1, 2, 3].foldl (fun t i => tickPresence i t) s

theorem tickPresences_frame (s : State) :
    tickPresences s =
      { s with
        sampled := (tickPresences s).sampled, zm := { s.zm with presence := (tickPresences s).zm.presence } } := by
  simp only [tickPresences, List.foldl_cons, List.foldl_nil]
  rw [tickPresence_frame 3, tickPresence_frame 2, tickPresence_frame 1, tickPresence_frame 0]

theorem tickPresences_spec (s : State) :
    (tickPresences s).zm.presence.length = s.zm.presence.length
      ∧ (∀ i : Fin 4, i.val < s.zm.presence.length →
          (tickPresences s).zm.presence.getD i.val ⟨true, 0⟩ = (presenceAfter s i).1)
      ∧ (tickPresences s).sampled.flatten = s.sampled.flatten ++ ([0, 1, 2, 3] : List (Fin 4)).flatMap (presenceEvents s) := by
  obtain ⟨hlength, hin, -, hflat⟩ := foldl_bank (fun t i => tickPresence i t) (fun t => t.zm.presence) (fun i : Fin 4 => i.val)
    (fun t i => (presenceAfter t i).1) presenceEvents (fun t i => by rw [tickPresence_frame]; rfl)
    (fun t i j h => by rw [presenceAfter_tickPresence t h]) (fun t i j h => presenceEvents_tickPresence t h)
    (fun t i => tickPresence_flatten i t) (fun _ _ h => Fin.ext h) [0, 1, 2, 3] (by decide) s
  exact ⟨hlength, fun i => hin i (by fin_cases i <;> simp), hflat⟩

/-! ## The encoder lines (R2, R3, R7) -/

/-- The samples of a channel's encoder lines. -/
def encoderRun (w : Wave) (ch : Chan) (s : State) : (Filt × Filt × Filt) × List Instr :=
  quadSamples ch (chanCfg s ch).qfilt w 20 0 ((s.fb.get ch).qa, (s.fb.get ch).qb, (s.fb.get ch).qi)

def encoderEvents (w : Wave) (ch : Chan) (s : State) : List Instr := if readsEncoder s ch then (encoderRun w ch s).2 else []

theorem tickEncoder_flatten (w : Wave) (ch : Chan) (s : State) :
    (tickEncoder w ch s).sampled.flatten = s.sampled.flatten ++ encoderEvents w ch s := by
  unfold tickEncoder encoderEvents
  split
  · exact post_flatten _ _
  · simp

theorem tickEncoder_own (w : Wave) (ch : Chan) (s : State) :
    (tickEncoder w ch s).fb.get ch =
      if readsEncoder s ch then
        { s.fb.get ch with
          qa := { (s.fb.get ch).qa with run := (encoderRun w ch s).1.1.run }
          qb := { (s.fb.get ch).qb with run := (encoderRun w ch s).1.2.1.run }, qi := (encoderRun w ch s).1.2.2
          rises := (s.fb.get ch).rises + (encoderRun w ch s).2.count (.indexRise ch) }
      else s.fb.get ch := by
  unfold tickEncoder
  split
  · simp only []
    rw [post_frame]
    exact PerChan.get_set _ _ _
  · rfl

theorem tickEncoder_other {ch c : Chan} (w : Wave) (s : State) (h : c ≠ ch) : (tickEncoder w ch s).fb.get c = s.fb.get c := by
  unfold tickEncoder
  split
  · simp only []
    rw [post_frame]
    exact PerChan.get_set_ne _ _ _ _ h
  · rfl

/-- The encoder lines leave the limit filters alone. -/
theorem tickEncoder_limits (w : Wave) (ch : Chan) (s : State) :
    ((tickEncoder w ch s).fb.get ch).limPos = (s.fb.get ch).limPos
      ∧ ((tickEncoder w ch s).fb.get ch).limNeg = (s.fb.get ch).limNeg := by
  rw [tickEncoder_own]
  split <;> exact ⟨rfl, rfl⟩

/-! ## The limit switches (R8, R12) -/

/-- The filter of a switch. -/
def limitFilt (f : Feedback) : Switch → Filt
  | .pos => f.limPos
  | .neg => f.limNeg

/-- The record with a switch's filter replaced. -/
def setLimitFilt (sw : Switch) (g : Filt) (f : Feedback) : Feedback :=
  match sw with
  | .pos => { f with limPos := g }
  | .neg => { f with limNeg := g }

/-- The events of one switch: a raw turn, then a filtered change. -/
def switchEvents (ch : Chan) (sw : Switch) (before now : Bool) (q : Filt) : List Instr :=
  when_ (before ≠ now) (.provisionalCountNoted ch sw now) ++ when_ (filterStep limitHold now q).2 (.limitFilteredChange ch sw now)

theorem tickSwitch_flatten (ch : Chan) (sw : Switch) (before now : Bool) (s : State) :
    (tickSwitch ch sw before now s).sampled.flatten =
      s.sampled.flatten ++ switchEvents ch sw before now (limitFilt (s.fb.get ch) sw) := by
  cases sw <;> simp only [tickSwitch, post_flatten, modFb_sampled, switchEvents, limitFilt, List.append_assoc]

theorem tickSwitch_fb (ch : Chan) (sw : Switch) (before now : Bool) (s : State) :
    (tickSwitch ch sw before now s).fb =
      s.fb.set ch (setLimitFilt sw (filterStep limitHold now (limitFilt (s.fb.get ch) sw)).1 (s.fb.get ch)) := by
  cases sw <;> simp only [tickSwitch] <;> rw [post_frame, post_frame] <;> rfl

/-- A switch reads as active, with lim_polarity (R12). -/
def switchActiveNow (c : ChanCfg) (l : ChanLines) : Switch → Bool
  | .pos => xor l.limp c.activeLow
  | .neg => xor l.limn c.activeLow

def limitEvents (old new : ChanLines) (ch : Chan) (s : State) : List Instr :=
  if readsLimits s ch then
    switchEvents ch .pos (switchActiveNow (chanCfg s ch) old .pos) (switchActiveNow (chanCfg s ch) new .pos) (s.fb.get ch).limPos
      ++ switchEvents ch .neg (switchActiveNow (chanCfg s ch) old .neg) (switchActiveNow (chanCfg s ch) new .neg)
          (s.fb.get ch).limNeg
  else []

theorem tickLimits_frame (old new : ChanLines) (ch : Chan) (s : State) :
    tickLimits old new ch s = { s with sampled := (tickLimits old new ch s).sampled, fb := (tickLimits old new ch s).fb } := by
  unfold tickLimits
  split
  · simp only []; rw [tickSwitch_frame, tickSwitch_frame]
  · rfl

theorem tickLimits_flatten (old new : ChanLines) (ch : Chan) (s : State) :
    (tickLimits old new ch s).sampled.flatten = s.sampled.flatten ++ limitEvents old new ch s := by
  unfold tickLimits limitEvents
  split
  · simp only [tickSwitch_flatten, tickSwitch_fb, PerChan.get_set, List.append_assoc]
    rfl
  · simp

theorem tickLimits_own (old new : ChanLines) (ch : Chan) (s : State) :
    (tickLimits old new ch s).fb.get ch =
      if readsLimits s ch then
        { s.fb.get ch with
          limPos := (filterStep limitHold (switchActiveNow (chanCfg s ch) new .pos) (s.fb.get ch).limPos).1
          limNeg := (filterStep limitHold (switchActiveNow (chanCfg s ch) new .neg) (s.fb.get ch).limNeg).1 }
      else s.fb.get ch := by
  unfold tickLimits
  split
  · simp only [tickSwitch_fb, PerChan.get_set]
    rfl
  · rfl

theorem tickLimits_other {ch c : Chan} (old new : ChanLines) (s : State) (h : c ≠ ch) :
    (tickLimits old new ch s).fb.get c = s.fb.get c := by
  unfold tickLimits
  split
  · simp only [tickSwitch_fb, PerChan.get_set_ne _ _ _ _ h]
  · rfl

/-! ## The PWM generator (R36) -/

def pwmEvents (ch : Chan) (s : State) : List Instr :=
  if started s && isAxis s ch then
    when_ ((chanCfg s ch).pwmPeriod ≤ (s.mo.get ch).pwmPhase + 20) (.pwmPeriodStart ch)
  else []

theorem tickPwm_flatten (ch : Chan) (s : State) : (tickPwm ch s).sampled.flatten = s.sampled.flatten ++ pwmEvents ch s := by
  unfold tickPwm pwmEvents
  split
  · exact post_flatten _ _
  · simp

theorem tickPwm_own (ch : Chan) (s : State) :
    (tickPwm ch s).mo.get ch =
      { s.mo.get ch with
        pwmPhase := if started s && isAxis s ch then (s.mo.get ch).pwmPhase + 20 else (s.mo.get ch).pwmPhase } := by
  unfold tickPwm
  split
  · rw [post_frame]; exact PerChan.get_set _ _ _
  · rfl

theorem tickPwm_other {ch c : Chan} (s : State) (h : c ≠ ch) : (tickPwm ch s).mo.get c = s.mo.get c := by
  unfold tickPwm
  split
  · rw [post_frame]; exact PerChan.get_set_ne _ _ _ _ h
  · rfl

end Sys2Proof.Machine
end

section
namespace Sys2Proof.Machine

/-! ## A channel over one microsecond -/

/-- The feedback record of a channel after its samples (R2, R12). -/
def sampledFb (x : LineSample) (ch : Chan) (s : State) : Feedback :=
  let f := s.fb.get ch
  let r := encoderRun (x.waves.get ch) ch s
  let now := switchActiveNow (chanCfg s ch) (x.lines.chans.get ch)
  { f with
    qa := if readsEncoder s ch then { f.qa with run := r.1.1.run } else f.qa
    qb := if readsEncoder s ch then { f.qb with run := r.1.2.1.run } else f.qb
    qi := if readsEncoder s ch then r.1.2.2 else f.qi
    rises := if readsEncoder s ch then f.rises + r.2.count (.indexRise ch) else f.rises
    limPos := if readsLimits s ch then (filterStep limitHold (now .pos) f.limPos).1 else f.limPos
    limNeg := if readsLimits s ch then (filterStep limitHold (now .neg) f.limNeg).1 else f.limNeg }

/-- The motion record of a channel after a microsecond: the PWM phase 20 units on (R36). -/
def sampledMo (ch : Chan) (s : State) : Motion :=
  { s.mo.get ch with
    pwmPhase := if started s && isAxis s ch then (s.mo.get ch).pwmPhase + 20 else (s.mo.get ch).pwmPhase }

def channelEvents (old : Lines) (x : LineSample) (s : State) (ch : Chan) : List Instr :=
  encoderEvents (x.waves.get ch) ch s ++ limitEvents (old.chans.get ch) (x.lines.chans.get ch) ch s ++ pwmEvents ch s

theorem tickChannel_frame (old : Lines) (x : LineSample) (ch : Chan) (s : State) :
    tickChannel old x ch s =
      { s with
        sampled := (tickChannel old x ch s).sampled, fb := (tickChannel old x ch s).fb, mo := (tickChannel old x ch s).mo } := by
  unfold tickChannel
  rw [tickPwm_frame, tickLimits_frame, tickEncoder_frame]

theorem tickChannel_own (old : Lines) (x : LineSample) (ch : Chan) (s : State) :
    (tickChannel old x ch s).fb.get ch = sampledFb x ch s ∧ (tickChannel old x ch s).mo.get ch = sampledMo ch s := by
  unfold tickChannel
  constructor
  · rw [tickPwm_frame]
    simp only [tickLimits_own, tickEncoder_own]
    rw [show readsLimits (tickEncoder (x.waves.get ch) ch s) ch = readsLimits s ch by rw [tickEncoder_frame]; rfl,
      show chanCfg (tickEncoder (x.waves.get ch) ch s) ch = chanCfg s ch by rw [tickEncoder_frame]; rfl]
    unfold sampledFb
    cases readsEncoder s ch <;> cases readsLimits s ch <;> rfl
  · rw [tickPwm_own, tickLimits_frame, tickEncoder_frame]
    rfl

theorem tickChannel_other {ch c : Chan} (old : Lines) (x : LineSample) (s : State) (h : c ≠ ch) :
    (tickChannel old x ch s).fb.get c = s.fb.get c ∧ (tickChannel old x ch s).mo.get c = s.mo.get c := by
  unfold tickChannel
  constructor
  · rw [tickPwm_frame]
    simp only [tickLimits_other _ _ _ h, tickEncoder_other _ _ h]
  · rw [tickPwm_other _ h, tickLimits_frame, tickEncoder_frame]

theorem tickChannel_flatten (old : Lines) (x : LineSample) (ch : Chan) (s : State) :
    (tickChannel old x ch s).sampled.flatten = s.sampled.flatten ++ channelEvents old x s ch := by
  have hlimits : limitEvents (old.chans.get ch) (x.lines.chans.get ch) ch (tickEncoder (x.waves.get ch) ch s)
      = limitEvents (old.chans.get ch) (x.lines.chans.get ch) ch s := by
    obtain ⟨hpos, hneg⟩ := tickEncoder_limits (x.waves.get ch) ch s
    simp only [limitEvents, hpos, hneg]
    rw [tickEncoder_frame]; rfl
  have hpwm : pwmEvents ch (tickLimits (old.chans.get ch) (x.lines.chans.get ch) ch (tickEncoder (x.waves.get ch) ch s))
      = pwmEvents ch s := by
    rw [tickLimits_frame, tickEncoder_frame]; rfl
  unfold tickChannel
  rw [tickPwm_flatten, hpwm, tickLimits_flatten, hlimits, tickEncoder_flatten]
  simp only [channelEvents, List.append_assoc]

/-- What a channel's samples read of the station, its lines apart. -/
structure SameChannel (c : Chan) (s t : State) : Prop where
  su : t.su = s.su
  cfg : t.cfg = s.cfg
  fb : t.fb.get c = s.fb.get c
  mo : t.mo.get c = s.mo.get c

theorem SameChannel.samples {c : Chan} {s t : State} (h : SameChannel c s t) (old : Lines) (x : LineSample) :
    sampledFb x c t = sampledFb x c s ∧ sampledMo c t = sampledMo c s ∧ channelEvents old x t c = channelEvents old x s c := by
  have hcfg : chanCfg t c = chanCfg s c := by unfold chanCfg; rw [h.cfg]
  have hstarted : started t = started s := by unfold started; rw [h.su]
  have haxis : isAxis t c = isAxis s c := by unfold isAxis; rw [hcfg]
  have hencoder : readsEncoder t c = readsEncoder s c := by unfold readsEncoder; rw [hstarted, hcfg]
  have hlimits : readsLimits t c = readsLimits s c := by unfold readsLimits; rw [hstarted, haxis, hcfg]
  simp only [sampledFb, sampledMo, channelEvents, encoderEvents, limitEvents, pwmEvents, encoderRun, hcfg, hstarted, haxis, hencoder,
    hlimits, h.fb, h.mo, and_self]

theorem tickChannel_same {ch c : Chan} (old : Lines) (x : LineSample) (s : State) (h : c ≠ ch) :
    SameChannel c s (tickChannel old x ch s) :=
  have hother := tickChannel_other old x s h
  ⟨by rw [tickChannel_frame], by rw [tickChannel_frame], hother.1, hother.2⟩

theorem forChans_cons (f : Chan → State → State) (ch : Chan) (rest : List Chan) (s : State) :
    forChans f (ch :: rest) s = forChans f rest (f ch s) := rfl

/-- Every channel takes its samples as they find it, whatever the channels before it did. -/
theorem tickChannels_spec (old : Lines) (x : LineSample) (chans : List Chan) (hnodup : chans.Nodup) (s : State) :
    let t := forChans (tickChannel old x) chans s
    t = { s with sampled := t.sampled, fb := t.fb, mo := t.mo }
      ∧ (∀ c, t.fb.get c = if c ∈ chans then sampledFb x c s else s.fb.get c)
      ∧ (∀ c, t.mo.get c = if c ∈ chans then sampledMo c s else s.mo.get c)
      ∧ t.sampled.flatten = s.sampled.flatten ++ chans.flatMap (channelEvents old x s) := by
  induction chans generalizing s with
  | nil => exact ⟨rfl, fun _ => rfl, fun _ => rfl, by simp [forChans]⟩
  | cons ch chans ih =>
    obtain ⟨hch, hchans⟩ := List.nodup_cons.mp hnodup
    obtain ⟨hframe, hfb, hmo, hflat⟩ := ih hchans (tickChannel old x ch s)
    obtain ⟨hownFb, hownMo⟩ := tickChannel_own old x ch s
    have hother : ∀ c, c ∈ chans → c ≠ ch := fun c hc h => hch (h ▸ hc)
    rw [forChans_cons]
    refine ⟨?_, fun c => ?_, fun c => ?_, ?_⟩
    · rw [hframe, tickChannel_frame]
    · rw [hfb]
      by_cases hc : c = ch
      · subst hc; rw [if_neg hch, if_pos List.mem_cons_self, hownFb]
      · have hsame := tickChannel_same old x s hc
        simp only [List.mem_cons, hc, false_or, (hsame.samples old x).1, hsame.fb]
    · rw [hmo]
      by_cases hc : c = ch
      · subst hc; rw [if_neg hch, if_pos List.mem_cons_self, hownMo]
      · have hsame := tickChannel_same old x s hc
        simp only [List.mem_cons, hc, false_or, (hsame.samples old x).2.1, hsame.mo]
    · have hrest : chans.flatMap (channelEvents old x (tickChannel old x ch s)) = chans.flatMap (channelEvents old x s) :=
        List.flatMap_congr fun c hc => ((tickChannel_same old x s (hother c hc)).samples old x).2.2
      rw [hflat, tickChannel_flatten, hrest, List.flatMap_cons, List.append_assoc]

/-! ## The trunk (R71, R72, R75, R82) -/

theorem tickBits_frame (before now : Word) (others : BitVec 4) (t : Trunk) :
    tickBits before now others t =
      { t with
        flight := t.flight.map fun f =>
          { f with others := f.others ++ [others.getLsbD 0, others.getLsbD 1, others.getLsbD 2, others.getLsbD 3] }
        level := (tickBits before now others t).level, lastTransition := (tickBits before now others t).lastTransition
        heard := (tickBits before now others t).heard } := by
  cases h : t.flight <;> simp [tickBits, tickBit, h]

/-- Without a flight of its own the station sees the levels of the others alone. -/
theorem tickBit_idle {at_ : Word} {others : Bool} {t : Trunk} (h : t.flight = none) :
    (tickBit at_ others t).flight = none ∧ (tickBit at_ others t).level = others
      ∧ (tickBit at_ others t).lastTransition = (if others ≠ t.level then at_ else t.lastTransition)
      ∧ (tickBit at_ others t).rx = t.rx ∧ (tickBit at_ others t).quietAt = t.quietAt
      ∧ (t.rx = .gathering → (tickBit at_ others t).heard = t.heard ++ [others])
      ∧ (t.rx ≠ .gathering → t.quietAt = none → (tickBit at_ others t).heard = t.heard) := by
  refine ⟨?_, ?_, ?_, rfl, rfl, fun hrx => ?_, fun hrx hq => ?_⟩
  · simp [tickBit, h]
  · simp [tickBit, h, ownLevel]
  · simp [tickBit, h, ownLevel]
  · simp [tickBit, h, ownLevel, keepsBit, hrx]
  · simp [tickBit, h, keepsBit, hrx, hq]

theorem tickBits_idle {before now : Word} {b : BitVec 4} {t : Trunk} (h : t.flight = none) :
    (tickBits before now b t).level = b.getLsbD 3
      ∧ (t.rx = .gathering → (tickBits before now b t).heard =
          t.heard ++ [b.getLsbD 0, b.getLsbD 1, b.getLsbD 2, b.getLsbD 3])
      ∧ (t.rx ≠ .gathering → t.quietAt = none → (tickBits before now b t).heard = t.heard)
      ∧ (tickBits before now b t).lastTransition =
          if b.getLsbD 0 ≠ b.getLsbD 1 ∨ b.getLsbD 1 ≠ b.getLsbD 2 ∨ b.getLsbD 2 ≠ b.getLsbD 3 then now
          else if b.getLsbD 0 ≠ t.level then before else t.lastTransition := by
  unfold tickBits
  generalize b.getLsbD 0 = b0, b.getLsbD 1 = b1, b.getLsbD 2 = b2, b.getLsbD 3 = b3
  obtain ⟨hf1, hl1, ht1, hr1, hq1, hg1, hn1⟩ := tickBit_idle (at_ := before) (others := b0) h
  obtain ⟨hf2, hl2, ht2, hr2, hq2, hg2, hn2⟩ := tickBit_idle (at_ := now) (others := b1) hf1
  obtain ⟨hf3, hl3, ht3, hr3, hq3, hg3, hn3⟩ := tickBit_idle (at_ := now) (others := b2) hf2
  obtain ⟨-, hl4, ht4, -, -, hg4, hn4⟩ := tickBit_idle (at_ := now) (others := b3) hf3
  rw [hr1] at hr2 hg2 hn2; rw [hr2] at hr3 hg3 hn3; rw [hr3] at hg4 hn4
  rw [hq1] at hq2 hn2; rw [hq2] at hq3 hn3; rw [hq3] at hn4
  refine ⟨hl4, fun hrx => ?_, fun hrx hq => ?_, ?_⟩
  · simp [hg4 hrx, hg3 hrx, hg2 hrx, hg1 hrx]
  · rw [hn4 hrx hq, hn3 hrx hq, hn2 hrx hq, hn1 hrx hq]
  · rw [ht4, ht3, ht2, ht1, hl3, hl2, hl1]
    cases b0 <;> cases b1 <;> cases b2 <;> cases b3 <;> simp

def trunkEvents (before : Word) (others : BitVec 4) (s : State) : List Instr :=
  if started s then
    let t := tickBits before s.clock others s.tk
    when_ (t.quietAt.isSome && t.heard ≠ []) .frameStart
      ++ when_ (t.rx = .gathering && decide (145 ≤ (gather t.heard).length)) .frameOversize
  else []

theorem tickTrunk_flatten (before : Word) (others : BitVec 4) (s : State) :
    (tickTrunk before others s).sampled.flatten = s.sampled.flatten ++ trunkEvents before others s := by
  unfold tickTrunk trunkEvents
  split
  · exact post_flatten _ _
  · simp

/-! ## FREF and the panel (R59, R170 to R172) -/

def frefEvents (s : State) : List Instr := if started s then when_ (s.lines.fref && s.ft.frefLow) .frefArrival else []

theorem tickFref_flatten (s : State) : (tickFref s).sampled.flatten = s.sampled.flatten ++ frefEvents s := by
  unfold tickFref frefEvents
  split
  · exact post_flatten _ _
  · simp

/-- A panel button's filter after its sample, with whether it has changed. -/
def buttonStep (s : State) (i : Nat) : Filt × Bool :=
  filterStep panelHold (!s.lines.buttons.getLsbD i) (s.dk.buttons.getD i ⟨true, 0⟩)

/-- A change to RELEASED is passed on at once, one to PRESSED is an event (R170). -/
def buttonAfter (s : State) (i : Nat) : Filt :=
  let pressed := !s.lines.buttons.getLsbD i
  if (buttonStep s i).2 && !pressed then { level := false, run := 0 } else (buttonStep s i).1

def buttonEvents (s : State) (i : Nat) : List Instr :=
  when_ ((buttonStep s i).2 && !s.lines.buttons.getLsbD i) (buttonEvent i)

theorem tickButton_frame (i : Nat) (s : State) :
    tickButton i s =
      { s with
        sampled := (tickButton i s).sampled, dk := { s.dk with buttons := s.dk.buttons.set i (buttonAfter s i) } } := by
  simp only [tickButton]
  rw [post_frame]
  rfl

theorem tickButton_flatten (i : Nat) (s : State) : (tickButton i s).sampled.flatten = s.sampled.flatten ++ buttonEvents s i :=
  post_flatten _ _

theorem buttonStep_tickButton {i j : Nat} (s : State) (h : i ≠ j) : buttonStep (tickButton i s) j = buttonStep s j := by
  rw [tickButton_frame]
  simp only [buttonStep]
  rw [List.getD_eq_getElem?_getD, List.getElem?_set_ne h, ← List.getD_eq_getElem?_getD]

/-- The ten buttons in turn. -/
def tickButtons (s : State) : State := (List.range 10).foldl (fun t i => tickButton i t) s

theorem tickButtons_frame (s : State) :
    tickButtons s =
      { s with sampled := (tickButtons s).sampled, dk := { s.dk with buttons := (tickButtons s).dk.buttons } } := by
  have key : ∀ (l : List Nat) (t : State), l.foldl (fun t i => tickButton i t) t =
      { t with
        sampled := (l.foldl (fun t i => tickButton i t) t).sampled
        dk := { t.dk with buttons := (l.foldl (fun t i => tickButton i t) t).dk.buttons } } := by
    intro l
    induction l with
    | nil => intro t; rfl
    | cons i l ih => intro t; rw [List.foldl_cons, ih, tickButton_frame]
  exact key _ s

theorem tickButtons_spec (s : State) :
    (∀ i, i < 10 → i < s.dk.buttons.length → (tickButtons s).dk.buttons.getD i ⟨true, 0⟩ = buttonAfter s i)
      ∧ (tickButtons s).sampled.flatten = s.sampled.flatten ++ (List.range 10).flatMap (buttonEvents s) := by
  have hlines : ∀ (t : State) (i : Nat), (tickButton i t).lines = t.lines := fun t i => by rw [tickButton_frame]
  obtain ⟨-, hin, -, hflat⟩ := foldl_bank (fun t i => tickButton i t) (fun t => t.dk.buttons) id buttonAfter buttonEvents
    (fun t i => by rw [tickButton_frame]; rfl)
    (fun t i j h => by simp only [buttonAfter, buttonStep_tickButton t h, hlines])
    (fun t i j h => by simp only [buttonEvents, buttonStep_tickButton t h, hlines])
    (fun t i => tickButton_flatten i t) (fun _ _ h => h) (List.range 10) List.nodup_range s
  exact ⟨fun i hi => hin i (List.mem_range.mpr hi), hflat⟩

def keyEvents (s : State) : List Instr :=
  when_ (filterStep panelHold (!s.lines.key) s.dk.key).2 (if !s.lines.key then .releaseKeyPress else .releaseKeyLetgo)

theorem tickKey_frame (s : State) :
    tickKey s =
      { s with
        sampled := (tickKey s).sampled, dk := { s.dk with key := (filterStep panelHold (!s.lines.key) s.dk.key).1 } } := by
  simp only [tickKey]; rw [post_frame]

theorem tickKey_flatten (s : State) : (tickKey s).sampled.flatten = s.sampled.flatten ++ keyEvents s := post_flatten _ _

def deskEvents (s : State) : List Instr :=
  if deskActive s then (List.range 10).flatMap (buttonEvents s) ++ keyEvents s else []

theorem tickDesk_idle {s : State} (h : deskActive s = false) : tickDesk s = s := by simp [tickDesk, h]

theorem tickDesk_active {s : State} (h : deskActive s = true) :
    tickDesk s =
      { s with
        sampled := (tickDesk s).sampled
        dk := { s.dk with
          buttons := (tickButtons s).dk.buttons, key := (filterStep panelHold (!s.lines.key) s.dk.key).1
          selects := s.dk.selects.mapIdx fun i f => silentStep panelHold (!s.lines.selects.getLsbD i) f } } := by
  have hdesk : tickDesk s = tickSelects (tickKey (tickButtons s)) := if_pos h
  rw [hdesk, tickSelects, tickKey_frame, tickButtons_frame]

theorem tickDesk_flatten (s : State) : (tickDesk s).sampled.flatten = s.sampled.flatten ++ deskEvents s := by
  cases h : deskActive s with
  | false => simp [tickDesk_idle h, deskEvents, h]
  | true =>
    have hdesk : tickDesk s = tickSelects (tickKey (tickButtons s)) := if_pos h
    have hkey : keyEvents (tickButtons s) = keyEvents s := by rw [tickButtons_frame]; rfl
    rw [hdesk, tickSelects, tickKey_flatten, hkey, (tickButtons_spec s).2]
    simp [deskEvents, h]

end Sys2Proof.Machine
end

section
namespace Sys2Proof.Machine

/-! ## The lines of every block sampled -/

/-- Every event that one microsecond of samples finds, block by block. -/
def sampledEvents (before : Word) (old : Lines) (x : LineSample) (s : State) : List Instr :=
  chainEvents s ++ ([0, 1, 2, 3] : List (Fin 4)).flatMap (presenceEvents s) ++ Chan.list.flatMap (channelEvents old x s)
    ++ trunkEvents before x.trunk s ++ frefEvents s ++ deskEvents s

/-- The chain and the presence lines sampled. -/
theorem tickBounds_spec (s : State) :
    let t := tickPresences (tickChain s)
    t = { s with
        sampled := t.sampled, sc := { s.sc with estop := (filterStep chainHold s.lines.estop s.sc.estop).1 }
        zm := { s.zm with presence := t.zm.presence } }
      ∧ t.zm.presence.length = s.zm.presence.length
      ∧ (∀ i : Fin 4, i.val < s.zm.presence.length → t.zm.presence.getD i.val ⟨true, 0⟩ = (presenceAfter s i).1)
      ∧ t.sampled.flatten =
          s.sampled.flatten ++ (chainEvents s ++ ([0, 1, 2, 3] : List (Fin 4)).flatMap (presenceEvents s)) := by
  obtain ⟨hlength, hpresence, hflat⟩ := tickPresences_spec (tickChain s)
  have hzm : (tickChain s).zm = s.zm := by rw [tickChain_frame]
  have hafter : presenceAfter (tickChain s) = presenceAfter s := by rw [tickChain_frame]; rfl
  have hevents : presenceEvents (tickChain s) = presenceEvents s := by rw [tickChain_frame]; rfl
  rw [hzm] at hlength hpresence
  rw [hevents, tickChain_flatten, List.append_assoc] at hflat
  rw [hafter] at hpresence
  refine ⟨?_, hlength, hpresence, hflat⟩
  rw [tickPresences_frame, tickChain_frame]

/-- The channels sampled after them, each as it stood before. -/
theorem tickBoundsChannels_spec (old : Lines) (x : LineSample) (s : State) :
    let t := forChans (tickChannel old x) Chan.list (tickPresences (tickChain s))
    t = { s with
        sampled := t.sampled, sc := { s.sc with estop := (filterStep chainHold s.lines.estop s.sc.estop).1 }
        zm := { s.zm with presence := t.zm.presence }, fb := t.fb, mo := t.mo }
      ∧ t.zm = (tickPresences (tickChain s)).zm
      ∧ (∀ ch, t.fb.get ch = sampledFb x ch s) ∧ (∀ ch, t.mo.get ch = sampledMo ch s)
      ∧ t.sampled.flatten = s.sampled.flatten
          ++ (chainEvents s ++ ([0, 1, 2, 3] : List (Fin 4)).flatMap (presenceEvents s)
            ++ Chan.list.flatMap (channelEvents old x s)) := by
  obtain ⟨hframe, -, -, hflat⟩ := tickBounds_spec s
  obtain ⟨hchannels, hfb, hmo, hevents⟩ := tickChannels_spec old x Chan.list (by decide) (tickPresences (tickChain s))
  have hsame : ∀ c, SameChannel c s (tickPresences (tickChain s)) := fun c =>
    ⟨by rw [hframe], by rw [hframe], by rw [hframe], by rw [hframe]⟩
  have hall : ∀ c, c ∈ Chan.list := fun c => by cases c <;> simp [Chan.list]
  have hsamples : channelEvents old x (tickPresences (tickChain s)) = channelEvents old x s :=
    funext fun c => ((hsame c).samples old x).2.2
  refine ⟨?_, by rw [hchannels], fun c => ?_, fun c => ?_, ?_⟩
  · rw [hchannels, hframe]
  · rw [hfb, if_pos (hall c), ((hsame c).samples old x).1]
  · rw [hmo, if_pos (hall c), ((hsame c).samples old x).2.1]
  · rw [hevents, hflat, hsamples, List.append_assoc]

theorem tickDesk_frame (s : State) : tickDesk s = { s with sampled := (tickDesk s).sampled, dk := (tickDesk s).dk } := by
  cases h : deskActive s with
  | false => rw [tickDesk_idle h]
  | true => rw [tickDesk_active h]

/-- What the panel reads of the station. -/
structure SamePanel (s t : State) : Prop where
  su : t.su = s.su
  cfg : t.cfg = s.cfg
  lines : t.lines = s.lines
  dk : t.dk = s.dk

theorem SamePanel.deskActive_eq {s t : State} (h : SamePanel s t) : deskActive t = deskActive s := by
  unfold deskActive started validImage; rw [h.su, h.cfg]

theorem SamePanel.buttonStep_eq {s t : State} (h : SamePanel s t) (i : Nat) : buttonStep t i = buttonStep s i := by
  unfold buttonStep; rw [h.lines, h.dk]

theorem SamePanel.buttonAfter_eq {s t : State} (h : SamePanel s t) (i : Nat) : buttonAfter t i = buttonAfter s i := by
  unfold buttonAfter; rw [h.buttonStep_eq, h.lines]

theorem SamePanel.deskEvents_eq {s t : State} (h : SamePanel s t) : deskEvents t = deskEvents s := by
  have hbuttons : buttonEvents t = buttonEvents s := funext fun i => by
    unfold buttonEvents; rw [h.buttonStep_eq, h.lines]
  unfold deskEvents keyEvents
  rw [h.deskActive_eq, hbuttons, h.lines, h.dk]

/-- What the panel's samples leave of the desk unit. -/
theorem tickDesk_dk (s : State) :
    (deskActive s = false → (tickDesk s).dk = s.dk)
      ∧ (deskActive s = true →
          (tickDesk s).dk = { s.dk with
            buttons := (tickDesk s).dk.buttons, key := (filterStep panelHold (!s.lines.key) s.dk.key).1
            selects := s.dk.selects.mapIdx fun i f => silentStep panelHold (!s.lines.selects.getLsbD i) f }
          ∧ ∀ i, i < 10 → i < s.dk.buttons.length → (tickDesk s).dk.buttons.getD i ⟨true, 0⟩ = buttonAfter s i) := by
  refine ⟨fun h => by rw [tickDesk_idle h], fun h => ?_⟩
  have hdesk := congrArg State.dk (tickDesk_active h)
  have hbuttons := congrArg Desk.buttons hdesk
  refine ⟨hdesk.trans ?_, fun i hi hlt => ?_⟩
  · rw [hbuttons]
  · rw [hbuttons]; exact (tickButtons_spec s).1 i hi hlt

/-- What one microsecond of samples leaves: each block's part as it finds the station before it. -/
theorem sampleLines_spec (before : Word) (old : Lines) (x : LineSample) (s : State) :
    let t := sampleLines before old x s
    t = { s with
        sampled := t.sampled, sc := { s.sc with estop := (filterStep chainHold s.lines.estop s.sc.estop).1 }
        zm := { s.zm with presence := t.zm.presence }, fb := t.fb, mo := t.mo
        tk := if started s then tickBits before s.clock x.trunk s.tk else s.tk
        ft := { s.ft with frefLow := if started s then !s.lines.fref else s.ft.frefLow }, dk := t.dk }
      ∧ t.zm.presence.length = s.zm.presence.length
      ∧ (∀ i : Fin 4, i.val < s.zm.presence.length → t.zm.presence.getD i.val ⟨true, 0⟩ = (presenceAfter s i).1)
      ∧ (∀ ch, t.fb.get ch = sampledFb x ch s) ∧ (∀ ch, t.mo.get ch = sampledMo ch s)
      ∧ (deskActive s = false → t.dk = s.dk)
      ∧ (deskActive s = true →
          t.dk = { s.dk with
            buttons := t.dk.buttons, key := (filterStep panelHold (!s.lines.key) s.dk.key).1
            selects := s.dk.selects.mapIdx fun i f => silentStep panelHold (!s.lines.selects.getLsbD i) f }
          ∧ ∀ i, i < 10 → i < s.dk.buttons.length → t.dk.buttons.getD i ⟨true, 0⟩ = buttonAfter s i)
      ∧ t.sampled.flatten = s.sampled.flatten ++ sampledEvents before old x s := by
  obtain ⟨-, hlength, hpresence, -⟩ := tickBounds_spec s
  obtain ⟨hframe, hzm, hfb, hmo, hflat⟩ := tickBoundsChannels_spec old x s
  rw [← hzm] at hlength hpresence
  intro t
  have ht : t = tickDesk (tickFref (tickTrunk before x.trunk
    (forChans (tickChannel old x) Chan.list (tickPresences (tickChain s))))) := rfl
  clear_value t
  generalize forChans (tickChannel old x) Chan.list (tickPresences (tickChain s)) = u at *
  subst ht
  have htrunk : trunkEvents before x.trunk u = trunkEvents before x.trunk s := by rw [hframe]; rfl
  have hfref : frefEvents (tickTrunk before x.trunk u) = frefEvents s := by rw [tickTrunk_frame, hframe]; rfl
  have hpanel : SamePanel s (tickFref (tickTrunk before x.trunk u)) := by
    rw [tickFref_frame, tickTrunk_frame, hframe]; exact ⟨rfl, rfl, rfl, rfl⟩
  obtain ⟨hidle, hactive⟩ := tickDesk_dk (tickFref (tickTrunk before x.trunk u))
  rw [hpanel.deskActive_eq, hpanel.dk] at hidle hactive
  rw [hpanel.lines] at hactive
  refine ⟨?_, ?_, ?_, ?_, ?_, hidle, fun h => ⟨(hactive h).1, fun i hi hlt => ?_⟩, ?_⟩
  · rw [tickDesk_frame, tickFref_frame, tickTrunk_frame, hframe]; rfl
  · rw [tickDesk_frame, tickFref_frame, tickTrunk_frame]; exact hlength
  · rw [tickDesk_frame, tickFref_frame, tickTrunk_frame]; exact hpresence
  · rw [tickDesk_frame, tickFref_frame, tickTrunk_frame]; exact hfb
  · rw [tickDesk_frame, tickFref_frame, tickTrunk_frame]; exact hmo
  · rw [(hactive h).2 i hi hlt, hpanel.buttonAfter_eq]
  · rw [tickDesk_flatten, hpanel.deskEvents_eq, tickFref_flatten, hfref, tickTrunk_flatten, htrunk, hflat]
    simp only [sampledEvents, List.append_assoc]

end Sys2Proof.Machine
end

section
/-! PROOFS. Which events a microsecond of samples finds, each exactly when its filter or its line says so (log 14). -/

namespace Sys2Proof.Machine

/-! ## The events of each part -/

/-- The channel that an event of the encoder lines is of. -/
def quadOf : Instr → Option Chan
  | .legalTransition ch _ => some ch
  | .illegalTransition ch => some ch
  | .indexRise ch => some ch
  | _ => none

theorem mem_chainEvents {c : Instr} {s : State} :
    c ∈ chainEvents s ↔ c = .estopFilteredChange s.lines.estop ∧ s.sc.estop.level ≠ s.lines.estop ∧ 1000 ≤ s.sc.estop.run := by
  rw [chainEvents, mem_when, filterStep_fires, and_comm]; rfl

theorem mem_presenceEvents {c : Instr} {s : State} {i : Fin 4} :
    c ∈ presenceEvents s i ↔
      c = .presenceFilteredChange i (readsOccupied s.cfg.polarity s.lines.presence i.val)
        ∧ (s.zm.presence.getD i.val ⟨true, 0⟩).level ≠ readsOccupied s.cfg.polarity s.lines.presence i.val
        ∧ 10000 ≤ (s.zm.presence.getD i.val ⟨true, 0⟩).run := by
  rw [presenceEvents, mem_when, presenceAfter, filterStep_fires, and_comm]; rfl

theorem quadOf_of_mem_encoderRun {c : Instr} {w : Wave} {ch : Chan} {s : State} (h : c ∈ (encoderRun w ch s).2) :
    quadOf c = some ch := by
  rcases mem_quadSamples h with rfl | rfl | rfl | rfl <;> rfl

theorem mem_encoderEvents {c : Instr} {w : Wave} {ch : Chan} {s : State} :
    c ∈ encoderEvents w ch s ↔ quadOf c = some ch ∧ readsEncoder s ch = true ∧ c ∈ (encoderRun w ch s).2 := by
  have hquad : c ∈ (encoderRun w ch s).2 → quadOf c = some ch := quadOf_of_mem_encoderRun
  unfold encoderEvents
  split
  · next h => simpa [h] using hquad
  · next h => simp [h]

theorem mem_switchEvents {c : Instr} {ch : Chan} {sw : Switch} {before now : Bool} {q : Filt} :
    c ∈ switchEvents ch sw before now q ↔
      (c = .provisionalCountNoted ch sw now ∧ before ≠ now)
        ∨ (c = .limitFilteredChange ch sw now ∧ q.level ≠ now ∧ 500 ≤ q.run) := by
  rw [switchEvents, List.mem_append, mem_when, mem_when, filterStep_fires, decide_eq_true_iff, and_comm, and_comm (b := c = _)]; rfl

theorem mem_limitEvents {c : Instr} {old new : ChanLines} {ch : Chan} {s : State} :
    c ∈ limitEvents old new ch s ↔
      readsLimits s ch = true ∧ ∃ sw,
        c ∈ switchEvents ch sw (switchActiveNow (chanCfg s ch) old sw) (switchActiveNow (chanCfg s ch) new sw)
          (limitFilt (s.fb.get ch) sw) := by
  unfold limitEvents
  split
  · next h =>
    rw [List.mem_append]
    refine ⟨fun hc => ⟨h, hc.elim (fun hpos => ⟨.pos, hpos⟩) fun hneg => ⟨.neg, hneg⟩⟩, ?_⟩
    rintro ⟨-, sw, hc⟩
    cases sw with
    | pos => exact .inl hc
    | neg => exact .inr hc
  · next h => simp [h]

theorem mem_pwmEvents {c : Instr} {ch : Chan} {s : State} :
    c ∈ pwmEvents ch s ↔
      c = .pwmPeriodStart ch ∧ started s = true ∧ isAxis s ch = true
        ∧ (chanCfg s ch).pwmPeriod ≤ (s.mo.get ch).pwmPhase + 20 := by
  unfold pwmEvents
  split
  · next h =>
    rw [Bool.and_eq_true] at h
    rw [mem_when, decide_eq_true_iff]
    tauto
  · next h =>
    rw [Bool.and_eq_true] at h
    simp only [List.not_mem_nil, false_iff]
    tauto

theorem mem_trunkEvents {c : Instr} {before : Word} {others : BitVec 4} {s : State} :
    c ∈ trunkEvents before others s ↔
      started s = true ∧
        ((c = .frameStart ∧ s.tk.quietAt.isSome = true ∧ (tickBits before s.clock others s.tk).heard ≠ [])
          ∨ (c = .frameOversize ∧ s.tk.rx = .gathering
              ∧ 145 ≤ (gather (tickBits before s.clock others s.tk).heard).length)) := by
  have hrx : (tickBits before s.clock others s.tk).rx = s.tk.rx := by rw [tickBits_frame]
  have hquiet : (tickBits before s.clock others s.tk).quietAt = s.tk.quietAt := by rw [tickBits_frame]
  unfold trunkEvents
  split
  · next h =>
    simp only [List.mem_append, mem_when, hrx, hquiet, h, Bool.and_eq_true, decide_eq_true_iff, and_comm, true_and]
  · next h => simp [h]

theorem mem_frefEvents {c : Instr} {s : State} :
    c ∈ frefEvents s ↔ c = .frefArrival ∧ started s = true ∧ s.lines.fref = true ∧ s.ft.frefLow = true := by
  unfold frefEvents
  split
  · next h => rw [mem_when, Bool.and_eq_true]; tauto
  · next h => simp [h]

/-! ## The panel -/

/-- A button's line has read PRESSED long enough while its filter is RELEASED (R170). -/
def pressHeld (s : State) (i : Nat) : Prop :=
  s.lines.buttons.getLsbD i = false ∧ pressed i s = false ∧ 10000 ≤ (s.dk.buttons.getD i ⟨true, 0⟩).run

theorem mem_buttonEvents {c : Instr} {s : State} {i : Nat} : c ∈ buttonEvents s i ↔ c = buttonEvent i ∧ pressHeld s i := by
  rw [buttonEvents, mem_when, buttonStep, Bool.and_eq_true, filterStep_fires, pressHeld, pressed, panelHold]
  cases s.lines.buttons.getLsbD i <;> simp [and_comm]

theorem buttonEvent_buttonPlace (b : Button) : buttonEvent (buttonPlace b) = .buttonPress b := by cases b <;> rfl

theorem buttonPlace_lt (b : Button) : buttonPlace b < 10 := by cases b <;> decide

/-- Each of the panel's ten places is a command button's or that of STOP. -/
theorem place_cases {i : Nat} (h : i < 10) : (∃ b, i = buttonPlace b) ∨ i = 9 := by
  interval_cases i
  · exact .inl ⟨.record, rfl⟩
  · exact .inl ⟨.end_, rfl⟩
  · exact .inl ⟨.cue, rfl⟩
  · exact .inl ⟨.run, rfl⟩
  · exact .inl ⟨.abort, rfl⟩
  · exact .inl ⟨.live, rfl⟩
  · exact .inl ⟨.erase, rfl⟩
  · exact .inl ⟨.protect, rfl⟩
  · exact .inl ⟨.reference, rfl⟩
  · exact .inr rfl

theorem mem_allButtonEvents {c : Instr} {s : State} :
    c ∈ (List.range 10).flatMap (buttonEvents s) ↔
      (∃ b, c = .buttonPress b ∧ pressHeld s (buttonPlace b)) ∨ (c = .stopButtonPress ∧ pressHeld s 9) := by
  simp only [List.mem_flatMap, List.mem_range, mem_buttonEvents]
  constructor
  · rintro ⟨i, hi, hc, hheld⟩
    rcases place_cases hi with ⟨b, rfl⟩ | rfl
    · exact .inl ⟨b, by rw [hc, buttonEvent_buttonPlace], hheld⟩
    · exact .inr ⟨hc, hheld⟩
  · rintro (⟨b, hc, hheld⟩ | ⟨hc, hheld⟩)
    · exact ⟨buttonPlace b, buttonPlace_lt b, by rw [hc, buttonEvent_buttonPlace], hheld⟩
    · exact ⟨9, by decide, hc, hheld⟩

theorem mem_keyEvents {c : Instr} {s : State} :
    c ∈ keyEvents s ↔
      (c = .releaseKeyPress ∧ s.lines.key = false ∧ s.dk.key.level = false ∧ 10000 ≤ s.dk.key.run)
        ∨ (c = .releaseKeyLetgo ∧ s.lines.key = true ∧ s.dk.key.level = true ∧ 10000 ≤ s.dk.key.run) := by
  rw [keyEvents, mem_when, filterStep_fires, panelHold]
  cases s.lines.key <;> simp [and_comm]

theorem mem_deskEvents {c : Instr} {s : State} :
    c ∈ deskEvents s ↔
      deskActive s = true ∧ (c ∈ (List.range 10).flatMap (buttonEvents s) ∨ c ∈ keyEvents s) := by
  unfold deskEvents
  split
  · next h => simp only [List.mem_append, h, true_and]
  · next h => simp [h]

/-! ## All of them -/

theorem mem_sampledEvents {c : Instr} {before : Word} {old : Lines} {x : LineSample} {s : State} :
    c ∈ sampledEvents before old x s ↔
      c ∈ chainEvents s ∨ (∃ i, c ∈ presenceEvents s i)
        ∨ (∃ ch, c ∈ encoderEvents (x.waves.get ch) ch s
            ∨ c ∈ limitEvents (old.chans.get ch) (x.lines.chans.get ch) ch s ∨ c ∈ pwmEvents ch s)
        ∨ c ∈ trunkEvents before x.trunk s ∨ c ∈ frefEvents s ∨ c ∈ deskEvents s := by
  have hchans : ∀ ch, ch ∈ Chan.list := fun ch => by cases ch <;> simp [Chan.list]
  have hlines : ∀ i : Fin 4, i ∈ ([0, 1, 2, 3] : List (Fin 4)) := by decide
  simp only [sampledEvents, channelEvents, List.mem_append, List.mem_flatMap, hchans, hlines, true_and, or_assoc]

/-- Which part of the samples finds an event, by its kind. -/
theorem mem_sampledEvents_iff {c : Instr} {before : Word} {old : Lines} {x : LineSample} {s : State} :
    c ∈ sampledEvents before old x s ↔
      match c with
      | .estopFilteredChange _ => c ∈ chainEvents s
      | .presenceFilteredChange i _ => c ∈ presenceEvents s i
      | .legalTransition ch _ | .illegalTransition ch | .indexRise ch => c ∈ encoderEvents (x.waves.get ch) ch s
      | .provisionalCountNoted ch _ _ | .limitFilteredChange ch _ _ =>
          c ∈ limitEvents (old.chans.get ch) (x.lines.chans.get ch) ch s
      | .pwmPeriodStart ch => c ∈ pwmEvents ch s
      | .frameStart | .frameOversize => c ∈ trunkEvents before x.trunk s
      | .frefArrival => c ∈ frefEvents s
      | .buttonPress _ | .stopButtonPress => deskActive s = true ∧ c ∈ (List.range 10).flatMap (buttonEvents s)
      | .releaseKeyPress | .releaseKeyLetgo => deskActive s = true ∧ c ∈ keyEvents s
      | _ => False := by
  rw [mem_sampledEvents]
  simp only [mem_chainEvents, mem_presenceEvents, mem_encoderEvents, mem_limitEvents, mem_switchEvents, mem_pwmEvents,
    mem_trunkEvents, mem_frefEvents, mem_deskEvents, mem_allButtonEvents, mem_keyEvents]
  cases c <;> simp [quadOf]

end Sys2Proof.Machine
end

section
/-! PROOFS. O12: a microsecond that passes, and the step on an empty queue as a whole. -/

namespace Sys2Proof.Machine

/-- The station as the samples of a microsecond find it: the clock on by one, the lines at their next levels. -/
def sampleBase (s : State) : State :=
  { s with
    inputs := (nextSample s).2, lines := (nextSample s).1.lines, clock := s.clock + 1, te := { s.te with filledAt := none }
    su := { s.su with resetRun := if (nextSample s).1.lines.reset then 0 else s.su.resetRun + 1 } }

theorem tick_held {s : State} (h : s.su.phase = .held) :
    tick s = { s with inputs := (nextSample s).2, lines := (nextSample s).1.lines } := if_pos h

theorem tick_runs {s : State} (h : s.su.phase ≠ .held) :
    tick s = sampleLines s.clock s.lines (nextSample s).1 (sampleBase s) := if_neg h

/-! ## The counts of the encoder's events -/

theorem count_channelEvents {c : Instr} {ch : Chan} (old : Lines) (x : LineSample) (s : State) (hc : quadOf c = some ch)
    (ch' : Chan) :
    (channelEvents old x s ch').count c = if ch' = ch then (encoderEvents (x.waves.get ch) ch s).count c else 0 := by
  have hlimits : c ∉ limitEvents (old.chans.get ch') (x.lines.chans.get ch') ch' s := by
    rw [mem_limitEvents]
    rintro ⟨-, sw, h⟩
    rcases mem_switchEvents.mp h with ⟨rfl, -⟩ | ⟨rfl, -⟩ <;> cases hc
  have hpwm : c ∉ pwmEvents ch' s := fun h => by
    obtain ⟨rfl, -⟩ := mem_pwmEvents.mp h
    cases hc
  rw [channelEvents, List.count_append, List.count_append, List.count_eq_zero_of_not_mem hlimits,
    List.count_eq_zero_of_not_mem hpwm]
  split
  · next h => rw [h]; rfl
  · next h =>
    refine List.count_eq_zero_of_not_mem fun hmem => h ?_
    exact Option.some.inj ((mem_encoderEvents.mp hmem).1.symm.trans hc)

/-- An encoder event occurs among the samples as often as in its own channel's run. -/
theorem count_sampledEvents {c : Instr} {ch : Chan} (before : Word) (old : Lines) (x : LineSample) (s : State)
    (hc : quadOf c = some ch) :
    (sampledEvents before old x s).count c =
      if readsEncoder s ch then (encoderRun (x.waves.get ch) ch s).2.count c else 0 := by
  have hchain : c ∉ chainEvents s := fun h => by obtain ⟨rfl, -⟩ := mem_chainEvents.mp h; cases hc
  have hpresence : c ∉ ([0, 1, 2, 3] : List (Fin 4)).flatMap (presenceEvents s) := fun h => by
    obtain ⟨i, -, hi⟩ := List.mem_flatMap.mp h
    obtain ⟨rfl, -⟩ := mem_presenceEvents.mp hi
    cases hc
  have htrunk : c ∉ trunkEvents before x.trunk s := fun h => by
    obtain ⟨-, ⟨rfl, -⟩ | ⟨rfl, -⟩⟩ := mem_trunkEvents.mp h <;> cases hc
  have hfref : c ∉ frefEvents s := fun h => by obtain ⟨rfl, -⟩ := mem_frefEvents.mp h; cases hc
  have hdesk : c ∉ deskEvents s := fun h => by
    obtain ⟨-, hb | hk⟩ := mem_deskEvents.mp h
    · obtain ⟨b, rfl, -⟩ | ⟨rfl, -⟩ := mem_allButtonEvents.mp hb <;> cases hc
    · obtain ⟨rfl, -⟩ | ⟨rfl, -⟩ := mem_keyEvents.mp hk <;> cases hc
  have hchans : (Chan.list.flatMap (channelEvents old x s)).count c = (encoderEvents (x.waves.get ch) ch s).count c := by
    simp only [Chan.list, List.flatMap_cons, List.flatMap_nil, List.append_nil, List.count_append,
      count_channelEvents old x s hc]
    cases ch <;> simp
  simp only [sampledEvents, List.count_append, List.count_eq_zero_of_not_mem hchain,
    List.count_eq_zero_of_not_mem hpresence, hchans, List.count_eq_zero_of_not_mem htrunk,
    List.count_eq_zero_of_not_mem hfref, List.count_eq_zero_of_not_mem hdesk, Nat.zero_add, Nat.add_zero, encoderEvents]
  split <;> rfl

/-! ## The events of a microsecond, each from the station as it was -/

/-- The events that the microsecond after a state finds. -/
def microEvents (s : State) : List Instr := sampledEvents s.clock s.lines (nextSample s).1 (sampleBase s)

section
variable (s : State) (c : Instr)

theorem microEvents_chain (l : Bool) :
    .estopFilteredChange l ∈ microEvents s ↔
      l = (nextSample s).1.lines.estop ∧ s.sc.estop.level ≠ l ∧ 1000 ≤ s.sc.estop.run := by
  simp only [microEvents, mem_sampledEvents_iff]
  rw [mem_chainEvents, Instr.estopFilteredChange.injEq]
  exact and_congr_right fun h => by rw [h]; rfl

theorem microEvents_presence (i : Fin 4) (o : Bool) :
    .presenceFilteredChange i o ∈ microEvents s ↔
      o = readsOccupied s.cfg.polarity (nextSample s).1.lines.presence i.val
        ∧ (s.zm.presence.getD i.val ⟨true, 0⟩).level ≠ o ∧ 10000 ≤ (s.zm.presence.getD i.val ⟨true, 0⟩).run := by
  simp only [microEvents, mem_sampledEvents_iff]
  rw [mem_presenceEvents, Instr.presenceFilteredChange.injEq]
  simp only [true_and]
  exact and_congr_right fun h => by rw [h]; rfl

theorem microEvents_limit (ch : Chan) (sw : Switch) (b : Bool) :
    .limitFilteredChange ch sw b ∈ microEvents s ↔
      readsLimits s ch = true ∧ (limitFilt (s.fb.get ch) sw).level ≠ b
        ∧ b = switchActiveNow (chanCfg s ch) ((nextSample s).1.lines.chans.get ch) sw
        ∧ 500 ≤ (limitFilt (s.fb.get ch) sw).run := by
  simp only [microEvents, mem_sampledEvents_iff]
  rw [mem_limitEvents]
  simp only [mem_switchEvents, reduceCtorEq, false_and, false_or, Instr.limitFilteredChange.injEq, true_and]
  refine and_congr Iff.rfl ⟨?_, ?_⟩
  · rintro ⟨sw', ⟨rfl, rfl⟩, hlevel, hrun⟩
    exact ⟨hlevel, rfl, hrun⟩
  · rintro ⟨hlevel, rfl, hrun⟩
    exact ⟨sw, ⟨rfl, rfl⟩, hlevel, hrun⟩

theorem microEvents_noted (ch : Chan) (sw : Switch) (b : Bool) :
    .provisionalCountNoted ch sw b ∈ microEvents s ↔
      readsLimits s ch = true ∧ b = switchActiveNow (chanCfg s ch) ((nextSample s).1.lines.chans.get ch) sw
        ∧ switchActiveNow (chanCfg s ch) (s.lines.chans.get ch) sw ≠ b := by
  simp only [microEvents, mem_sampledEvents_iff]
  rw [mem_limitEvents]
  simp only [mem_switchEvents, reduceCtorEq, false_and, or_false, Instr.provisionalCountNoted.injEq, true_and]
  refine and_congr Iff.rfl ⟨?_, ?_⟩
  · rintro ⟨sw', ⟨rfl, rfl⟩, hne⟩
    exact ⟨rfl, hne⟩
  · rintro ⟨rfl, hne⟩
    exact ⟨sw, ⟨rfl, rfl⟩, hne⟩

theorem microEvents_count (ch : Chan) (hc : quadOf c = some ch) :
    (microEvents s).count c =
      if readsEncoder s ch then (encoderRun ((nextSample s).1.waves.get ch) ch s).2.count c else 0 :=
  count_sampledEvents _ _ _ (sampleBase s) hc

theorem microEvents_fref :
    .frefArrival ∈ microEvents s ↔ started s = true ∧ (nextSample s).1.lines.fref = true ∧ s.ft.frefLow = true := by
  simp only [microEvents, mem_sampledEvents_iff]
  rw [mem_frefEvents, eq_self_iff_true, true_and]; rfl

theorem microEvents_button (b : Button) :
    .buttonPress b ∈ microEvents s ↔
      deskActive s = true ∧ (nextSample s).1.lines.buttons.getLsbD (buttonPlace b) = false
        ∧ pressed (buttonPlace b) s = false ∧ 10000 ≤ (s.dk.buttons.getD (buttonPlace b) ⟨true, 0⟩).run := by
  simp only [microEvents, mem_sampledEvents_iff]
  rw [mem_allButtonEvents]
  simp only [Instr.buttonPress.injEq, exists_eq_left', reduceCtorEq, false_and, or_false]; rfl

theorem microEvents_stopButton :
    .stopButtonPress ∈ microEvents s ↔
      deskActive s = true ∧ (nextSample s).1.lines.buttons.getLsbD 9 = false
        ∧ pressed 9 s = false ∧ 10000 ≤ (s.dk.buttons.getD 9 ⟨true, 0⟩).run := by
  simp only [microEvents, mem_sampledEvents_iff]
  rw [mem_allButtonEvents]
  simp only [reduceCtorEq, false_and, exists_false, false_or, true_and]; rfl

theorem microEvents_keyPress :
    .releaseKeyPress ∈ microEvents s ↔
      deskActive s = true ∧ (nextSample s).1.lines.key = false ∧ s.dk.key.level = false ∧ 10000 ≤ s.dk.key.run := by
  simp only [microEvents, mem_sampledEvents_iff]
  rw [mem_keyEvents]
  simp only [reduceCtorEq, false_and, or_false, true_and]; rfl

theorem microEvents_keyLetgo :
    .releaseKeyLetgo ∈ microEvents s ↔
      deskActive s = true ∧ (nextSample s).1.lines.key = true ∧ s.dk.key.level = true ∧ 10000 ≤ s.dk.key.run := by
  simp only [microEvents, mem_sampledEvents_iff]
  rw [mem_keyEvents]
  simp only [reduceCtorEq, false_and, false_or, true_and]; rfl

theorem microEvents_pwm (ch : Chan) :
    .pwmPeriodStart ch ∈ microEvents s ↔
      started s = true ∧ isAxis s ch = true ∧ (chanCfg s ch).pwmPeriod ≤ (s.mo.get ch).pwmPhase + 20 := by
  simp only [microEvents, mem_sampledEvents_iff]
  rw [mem_pwmEvents, eq_self_iff_true, true_and]; rfl

theorem microEvents_frameStart :
    .frameStart ∈ microEvents s ↔
      started s = true ∧ s.tk.quietAt.isSome = true
        ∧ (tickBits s.clock (s.clock + 1) (nextSample s).1.trunk s.tk).heard ≠ [] := by
  simp only [microEvents, mem_sampledEvents_iff]
  rw [mem_trunkEvents]
  simp only [reduceCtorEq, false_and, or_false, true_and]; rfl

theorem microEvents_frameOversize :
    .frameOversize ∈ microEvents s ↔
      started s = true ∧ s.tk.rx = .gathering
        ∧ 145 ≤ (gather (tickBits s.clock (s.clock + 1) (nextSample s).1.trunk s.tk).heard).length := by
  simp only [microEvents, mem_sampledEvents_iff]
  rw [mem_trunkEvents]
  simp only [reduceCtorEq, false_and, false_or, true_and]; rfl

end

end Sys2Proof.Machine
end

section
/-! PROOFS. O12: the microsecond block by block, and the step on an empty queue. -/

namespace Sys2Proof.Machine

/-- The trunk after the bits of a microsecond. -/
def trunkAfter (s : State) : Trunk :=
  if started s then tickBits s.clock (s.clock + 1) (nextSample s).1.trunk s.tk else s.tk

/-- What a microsecond leaves of the station. -/
theorem tick_spec {s : State} (h : s.su.phase ≠ .held) (hfound : s.sampled.flatten = []) :
    tick s = { sampleBase s with
        sampled := (tick s).sampled
        sc := { s.sc with estop := (filterStep 1000 (nextSample s).1.lines.estop s.sc.estop).1 }
        zm := { s.zm with presence := (tick s).zm.presence }, fb := (tick s).fb, mo := (tick s).mo, tk := trunkAfter s
        ft := { s.ft with frefLow := if started s then !(nextSample s).1.lines.fref else s.ft.frefLow }, dk := (tick s).dk }
      ∧ (tick s).zm.presence.length = s.zm.presence.length
      ∧ (∀ i : Fin 4, i.val < s.zm.presence.length →
          (tick s).zm.presence.getD i.val ⟨true, 0⟩ = (presenceAfter (sampleBase s) i).1)
      ∧ (∀ ch, (tick s).fb.get ch = sampledFb (nextSample s).1 ch (sampleBase s))
      ∧ (∀ ch, (tick s).mo.get ch = sampledMo ch (sampleBase s))
      ∧ (deskActive s = false → (tick s).dk = s.dk)
      ∧ (deskActive s = true →
          (tick s).dk = { s.dk with
            buttons := (tick s).dk.buttons, key := (filterStep 10000 (!(nextSample s).1.lines.key) s.dk.key).1
            selects := s.dk.selects.mapIdx fun i f => silentStep 10000 (!(nextSample s).1.lines.selects.getLsbD i) f }
          ∧ ∀ i, i < 10 → i < s.dk.buttons.length → (tick s).dk.buttons.getD i ⟨true, 0⟩ = buttonAfter (sampleBase s) i)
      ∧ (tick s).sampled.flatten = microEvents s := by
  rw [tick_runs h]
  obtain ⟨hframe, hlength, hpresence, hfb, hmo, hidle, hactive, hflat⟩ :=
    sampleLines_spec s.clock s.lines (nextSample s).1 (sampleBase s)
  have hempty : (sampleBase s).sampled.flatten = [] := hfound
  rw [hempty, List.nil_append] at hflat
  exact ⟨hframe, hlength, hpresence, hfb, hmo, hidle, hactive, hflat⟩

/-- The trunk's line over a microsecond (R71, R72, R82). -/
theorem trunkAfter_spec {s : State} {b : BitVec 4} (hb : (nextSample s).1.trunk = b) (h : started s = true) :
    trunkAfter s = { s.tk with
        flight := s.tk.flight.map fun f =>
          { f with others := f.others ++ [b.getLsbD 0, b.getLsbD 1, b.getLsbD 2, b.getLsbD 3] }
        level := (trunkAfter s).level, lastTransition := (trunkAfter s).lastTransition, heard := (trunkAfter s).heard }
      ∧ (s.tk.flight = none → (trunkAfter s).level = b.getLsbD 3
        ∧ (s.tk.rx = .gathering → (trunkAfter s).heard =
            s.tk.heard ++ [b.getLsbD 0, b.getLsbD 1, b.getLsbD 2, b.getLsbD 3])
        ∧ (s.tk.rx ≠ .gathering → s.tk.quietAt = none → (trunkAfter s).heard = s.tk.heard)
        ∧ (trunkAfter s).lastTransition =
            if b.getLsbD 0 ≠ b.getLsbD 1 ∨ b.getLsbD 1 ≠ b.getLsbD 2 ∨ b.getLsbD 2 ≠ b.getLsbD 3 then s.clock + 1
            else if b.getLsbD 0 ≠ s.tk.level then s.clock else s.tk.lastTransition) := by
  have hafter : trunkAfter s = tickBits s.clock (s.clock + 1) b s.tk := by rw [trunkAfter, if_pos h, hb]
  rw [hafter]
  exact ⟨tickBits_frame _ _ _ _, fun hflight => tickBits_idle hflight⟩

/-- A button's filter is passed on at once exactly when it reads PRESSED over a line that has read RELEASED long enough (R170). -/
theorem filterStep_releases (hold : Nat) (sample : Bool) (f : Filt) :
    ((filterStep hold sample f).2 && !sample) = (f.level && !sample && decide (hold ≤ f.run)) := by
  unfold filterStep
  cases f.level <;> cases sample <;> simp

theorem buttonAfter_sampleBase (s : State) (i : Nat) :
    buttonAfter (sampleBase s) i =
      if (s.dk.buttons.getD i ⟨true, 0⟩).level && !(!(nextSample s).1.lines.buttons.getLsbD i)
          && 10000 ≤ (s.dk.buttons.getD i ⟨true, 0⟩).run then ⟨false, 0⟩
      else (filterStep 10000 (!(nextSample s).1.lines.buttons.getLsbD i) (s.dk.buttons.getD i ⟨true, 0⟩)).1 := by
  rw [← filterStep_releases]; rfl

theorem microsecondPasses_tick {s : State} (h : s.su.phase ≠ .held) (hfound : s.sampled.flatten = []) :
    microsecondPasses s (tick s) := by
  obtain ⟨hframe, hlength, hpresence, hfb, hmo, hidle, hactive, hflat⟩ := tick_spec h hfound
  have htk : (tick s).tk = trunkAfter s := (congrArg State.tk hframe :)
  have hheard : started s = true →
      (tick s).tk.heard = (tickBits s.clock (s.clock + 1) (nextSample s).1.trunk s.tk).heard := fun hs => by
    rw [htk, trunkAfter, if_pos hs]
  unfold microsecondPasses
  simp only [hflat, hfb, hmo]
  refine ⟨(congrArg State.clock hframe :), (congrArg State.su hframe :), (congrArg State.cfg hframe :),
    (congrArg State.rf hframe :), (congrArg State.bd hframe :), (congrArg State.pt hframe :), (congrArg State.ts hframe :),
    (congrArg State.te hframe :), (congrArg State.order hframe :), (congrArg State.draws hframe :),
    (congrArg State.ft hframe :), (congrArg State.sc hframe :), (congrArg State.zm hframe :), hlength, hpresence,
    fun _ => rfl, fun _ => rfl, hidle,
    fun hs => ⟨(hactive hs).1, fun i hi hlt => ((hactive hs).2 i hi hlt).trans (buttonAfter_sampleBase s i)⟩, fun hs => ?_, fun hs => ?_, microEvents_chain s, microEvents_presence s,
    fun ch sw b => ?_, fun ch sw b => ?_, fun ch c hc => ?_, microEvents_fref s, microEvents_button s,
    microEvents_stopButton s, microEvents_keyPress s, microEvents_keyLetgo s, microEvents_pwm s,
    (microEvents_frameStart s).trans ?_, (microEvents_frameOversize s).trans ?_⟩
  · rw [htk, trunkAfter, if_neg (by simp [hs])]
  · rw [htk]; exact trunkAfter_spec rfl hs
  · rw [microEvents_limit]
    cases sw <;> rfl
  · rw [microEvents_noted]
    cases sw <;> rfl
  · refine microEvents_count s c ch ?_
    simp only [List.mem_cons, List.not_mem_nil, or_false] at hc
    rcases hc with rfl | rfl | rfl | rfl <;> rfl
  · exact and_congr_right fun hs => by rw [hheard hs]
  · exact and_congr_right fun hs => by rw [hheard hs]

/-- Settles O12: a candidate goes into the queue, or nothing is found or due and the samples of a microsecond are taken. -/
theorem emptyQueueStep : Obligations.EmptyQueueStep := by
  intro s hpending
  have hstep : step s = .next (idle s) := by rw [step, hpending]
  refine ⟨idle s, hstep, ⟨fun hne => ?_, fun hfound hdue => ?_⟩, dueFromTheirTime_all s⟩
  · obtain ⟨c, hc, sampled, order, draws, hidle, hcase⟩ := idle_takes hne
    rw [hidle]
    exact ⟨c, hc, rfl, hcase⟩
  · rw [idle_ticks hfound hdue]
    by_cases hheld : s.su.phase = .held
    · rw [tick_held hheld]
      exact ⟨hpending, rfl, rfl, fun _ => rfl, fun h => absurd hheld h⟩
    · have hframe := (tick_spec hheld hfound).1
      exact ⟨(congrArg State.pending hframe).trans hpending, (congrArg State.lines hframe :), (congrArg State.inputs hframe :),
        fun h => absurd h hheld, fun _ => microsecondPasses_tick hheld hfound⟩

end Sys2Proof.Machine
end

section
/-! PROOFS. O57, the layer below it: what the invariant of modes, runs and take work reads, and what mode requests, run records and take
phases make of it (R22, R49, R167). -/

namespace Sys2Proof.Machine

/-! ## The invariant and what it reads -/

/-- Channel modes, reference runs and take work agree with the stop state (R22, R49, R118, R124, R167). -/
structure WorkInv (s : State) : Prop where
  modes : ModeInv s
  take : TakeInv s

/-- An operation of the station that keeps `WorkInv`. -/
def KeepsWork (f : State → State) : Prop := ∀ s, WorkInv s → WorkInv (f s)

/-- The parts of a motion record that are 0 in OFF (R24). -/
def AtZero (m : Motion) : Prop := m.v = 0 ∧ m.integ = 0 ∧ m.u = 0

/-- What a channel's part of the invariant reads is the same: its mode, its reference record, the configuration and the stop state; and
what is 0 in OFF stays 0 there. -/
structure SameDuty (ch : Chan) (s t : State) : Prop where
  mode : (t.mo.get ch).mode = (s.mo.get ch).mode
  zero : (s.mo.get ch).mode = .off → AtZero (s.mo.get ch) → AtZero (t.mo.get ch)
  rf : t.rf.get ch = s.rf.get ch
  cfg : t.cfg = s.cfg
  state : t.sc.state = s.sc.state

/-- What the invariant reads of every channel is the same. -/
structure SameChannels (s t : State) : Prop where
  mo : t.mo = s.mo
  rf : t.rf = s.rf
  cfg : t.cfg = s.cfg
  state : t.sc.state = s.sc.state

/-- Everything the invariant reads is the same. -/
structure SameWork (s t : State) : Prop extends SameChannels s t where
  phase : t.te.phase = s.te.phase

variable {s t u : State} {ch : Chan}

theorem ChannelInv.congr (h : ChannelInv s ch) (g : SameDuty ch s t) : ChannelInv t ch := by
  obtain ⟨hmode, hzero, hrf, hcfg, hstate⟩ := g
  have haxis : isAxis t ch = isAxis s ch := by unfold isAxis chanCfg; rw [hcfg]
  have href : referenced t ch = referenced s ch := by unfold referenced; rw [hrf]
  obtain ⟨hoff, hdriven, hworking, hreference, hoffset, hrun⟩ := h
  constructor
  · rw [hmode]; exact fun hm => hzero hm (hoff hm)
  · rw [hmode, haxis, hstate]; exact hdriven
  · rw [hmode, hstate]; exact hworking
  · rw [hmode, href]; exact hreference
  · rw [hrf]; exact hoffset
  · rw [hrf, hstate]; exact hrun

theorem SameDuty.of_mo (hmo : t.mo.get ch = s.mo.get ch) (hrf : t.rf.get ch = s.rf.get ch) (hcfg : t.cfg = s.cfg)
    (hstate : t.sc.state = s.sc.state) : SameDuty ch s t :=
  ⟨by rw [hmo], fun _ hz => hmo ▸ hz, hrf, hcfg, hstate⟩

theorem SameChannels.duty (h : SameChannels s t) (ch : Chan) : SameDuty ch s t :=
  .of_mo (by rw [h.mo]) (by rw [h.rf]) h.cfg h.state

theorem SameWork.refl (s : State) : SameWork s s := ⟨⟨rfl, rfl, rfl, rfl⟩, rfl⟩

theorem SameWork.trans (h : SameWork s t) (g : SameWork t u) : SameWork s u :=
  ⟨⟨g.mo.trans h.mo, g.rf.trans h.rf, g.cfg.trans h.cfg, g.state.trans h.state⟩, g.phase.trans h.phase⟩

/-- A change of the take engine keeps the invariant when a working phase after it stands in RUN. -/
theorem WorkInv.of_phase (h : WorkInv s) (g : SameChannels s t) (hphase : workingPhase t.te.phase = true → s.sc.state = .run) :
    WorkInv t :=
  ⟨fun ch => (h.modes ch).congr (g.duty ch), fun hw => g.state.trans (hphase hw)⟩

theorem WorkInv.congr (h : WorkInv s) (g : SameWork s t) : WorkInv t :=
  h.of_phase g.toSameChannels fun hw => h.take (g.phase ▸ hw)

theorem KeepsWork.comp {f g : State → State} (hf : KeepsWork f) (hg : KeepsWork g) : KeepsWork (fun s => f (g s)) :=
  fun s h => hf _ (hg s h)

theorem KeepsWork.of_same {f : State → State} (h : ∀ s, SameWork s (f s)) : KeepsWork f := fun s hs => hs.congr (h s)

theorem KeepsWork.chans {f : Chan → State → State} (h : ∀ ch, KeepsWork (f ch)) (chans : List Chan) :
    KeepsWork (forChans f chans) := fun s hs => forChans_induct WorkInv f chans s h hs

theorem KeepsWork.anyOrder {events : List (State → State)} (h : ∀ f ∈ events, KeepsWork f) : KeepsWork (inAnyOrder events) :=
  fun s hs => inAnyOrder_induct WorkInv events s (fun _ _ _ ht => ht.congr ⟨⟨rfl, rfl, rfl, rfl⟩, rfl⟩) h hs

theorem KeepsWork.desk {f : State → State} (h : KeepsWork f) : KeepsWork (deskCommand f) :=
  fun s hs => deskCommand_induct WorkInv f s hs (h s hs)

theorem advanceTo_sameWork (time : Word) (s : State) : SameWork s (advanceTo time s) := by
  rw [advanceTo_eq]; exact ⟨⟨rfl, rfl, rfl, rfl⟩, rfl⟩

theorem modFb_sameWork (ch : Chan) (f : Feedback → Feedback) (s : State) : SameWork s (modFb ch f s) := ⟨⟨rfl, rfl, rfl, rfl⟩, rfl⟩

theorem modBd_sameWork (ch : Chan) (f : Binding → Binding) (s : State) : SameWork s (modBd ch f s) := ⟨⟨rfl, rfl, rfl, rfl⟩, rfl⟩

/-- A channel with a run in progress is not REFERENCED. -/
theorem not_referenced_of_inRun (h : inRun (s.rf.get ch) = true) : (s.rf.get ch).state ≠ .referenced := by
  intro href; simp [inRun, href] at h

/-! ## One channel's records -/

/-- A motion record changed with its mode kept, and with it what is 0 in OFF. -/
theorem WorkInv.of_modMo {f : Motion → Motion} (h : WorkInv s) (hmode : (f (s.mo.get ch)).mode = (s.mo.get ch).mode)
    (hzero : (s.mo.get ch).mode = .off → AtZero (s.mo.get ch) → AtZero (f (s.mo.get ch))) : WorkInv (modMo ch f s) := by
  refine ⟨fun c => (h.modes c).congr ?_, h.take⟩
  by_cases hc : c = ch
  · subst hc
    exact ⟨by rwa [modMo_get], by rwa [modMo_get], rfl, rfl, rfl⟩
  · exact .of_mo (modMo_get_ne _ _ _ _ hc) rfl rfl rfl

/-- A reference record changed: REFERENCED is not lost, a pending offset belongs to a run, and a run stands in RUN. -/
theorem WorkInv.of_modRf {f : Reference → Reference} (h : WorkInv s)
    (href : (s.rf.get ch).state = .referenced → (f (s.rf.get ch)).state = .referenced)
    (hoffset : (f (s.rf.get ch)).offset.isSome → inRun (f (s.rf.get ch)) = true)
    (hrun : inRun (f (s.rf.get ch)) = true → s.sc.state = .run) : WorkInv (modRf ch f s) := by
  refine ⟨fun c => ?_, h.take⟩
  by_cases hc : c = ch
  · subst hc
    obtain ⟨hoff, hdriven, hworking, hreference, -, -⟩ := h.modes c
    refine ⟨hoff, hdriven, hworking, fun hm => ?_, ?_, ?_⟩
    · have := hreference hm
      simp only [referenced, decide_eq_true_eq, modRf_get] at this ⊢
      exact href this
    · rw [modRf_get]; exact hoffset
    · rw [modRf_get]; exact hrun
  · exact (h.modes c).congr (.of_mo rfl (modRf_get_ne _ _ _ _ hc) rfl rfl)

/-- A reference record changed with its state and its offset kept. -/
theorem WorkInv.of_modRf_keeps {f : Reference → Reference} (h : WorkInv s)
    (hf : ∀ r, (f r).state = r.state ∧ (f r).offset = r.offset) : WorkInv (modRf ch f s) := by
  have hin : ∀ r, inRun (f r) = inRun r := fun r => by unfold inRun; rw [(hf r).1]
  refine h.of_modRf (fun hr => (hf _).1.trans hr) ?_ ?_
  · rw [(hf _).2, hin]; exact (h.modes ch).offset
  · rw [hin]; exact (h.modes ch).run

/-! ## Mode requests (R22) -/

theorem acceptMode_off (r : ModeRequest) (m : Motion) : (acceptMode r m).mode ≠ .off := by cases r <;> simp [acceptMode]

theorem acceptMode_needs {r : ModeRequest} {m : Motion} (h : needsReferenced (acceptMode r m).mode = true) :
    needsReference r = true := by
  cases r <;> simp_all [acceptMode, needsReferenced, needsReference]

theorem acceptedFrom_ne_off {r : ModeRequest} {m : Mode} (h : acceptedFrom r m = true) : m ≠ .off := by
  rintro rfl; cases r <;> simp [acceptedFrom] at h

/-- A request is accepted in RUN alone, of a driven channel, and of a REFERENCED one where the mode needs it. -/
theorem ask_work (r : ModeRequest) (ch : Chan) : KeepsWork (ask r ch) := by
  intro s h
  obtain ⟨hask, -⟩ | ⟨hask, hnone⟩ := ask_cases r ch s <;> rw [hask]
  · exact h
  · obtain ⟨hrun, hfrom, hneeds⟩ := refusal_none r ch s hnone
    refine ⟨fun c => ?_, h.take⟩
    by_cases hc : c = ch
    · subst hc
      obtain ⟨-, hdriven, -, -, hoffset, hinRun⟩ := h.modes c
      refine ⟨?_, fun _ => hdriven (acceptedFrom_ne_off hfrom), fun _ _ => hrun, ?_, hoffset, hinRun⟩
      · rw [modMo_get]; exact fun hoff => absurd hoff (acceptMode_off r _)
      · rw [modMo_get]; exact fun hm => hneeds (acceptMode_needs hm)
    · exact (h.modes c).congr (.of_mo (modMo_get_ne _ _ _ _ hc) rfl rfl rfl)

theorem requestAll_work {r : ModeRequest} {chans : List Chan} {answer : Option Refused} (h : WorkInv s)
    (heq : requestAll r chans s = (answer, t)) : WorkInv t := by
  suffices hall : WorkInv (requestAll r chans s).2 by rwa [heq] at hall
  clear heq
  induction chans generalizing s with
  | nil => exact h
  | cons ch rest ih => exact ih (ask_work r ch s h)

theorem holdAtSetpoint_work (chans : List Chan) : KeepsWork (holdAtSetpoint chans) :=
  .chans (fun ch s h => ask_work _ ch s h) chans

theorem liveRequests_work : KeepsWork liveRequests := by
  intro s h
  refine KeepsWork.chans (fun ch t ht => ?_) _ s h
  split
  · exact ht
  · exact ask_work _ ch t ht

theorem holdAtLast_work : KeepsWork holdAtLast :=
  fun s h => KeepsWork.chans (fun ch t ht => ask_work _ ch t ht) _ s h

/-! ## Take phases (R150, R164, R167 to R169) -/

theorem endPhase_work (result : TakeResult) (fault : TakeFault) : KeepsWork (endPhase result fault) :=
  fun _ h => h.of_phase ⟨rfl, rfl, rfl, rfl⟩ (by simp [workingPhase])

theorem finishTake_work (outcome : TakeStatus) : KeepsWork (finishTake outcome) := .of_same fun _ => ⟨⟨rfl, rfl, rfl, rfl⟩, rfl⟩

theorem refuseTake_work (fault : TakeFault) : KeepsWork (refuseTake fault) := .of_same fun _ => ⟨⟨rfl, rfl, rfl, rfl⟩, rfl⟩

theorem endDone_work (fault : TakeFault) : KeepsWork (endDone fault) := by
  intro s h
  unfold endDone
  simp only []
  split
  · exact liveRequests_work _ (endPhase_work _ _ s h)
  · exact endPhase_work _ _ s h

theorem loseTake_work (fault : TakeFault) : KeepsWork (loseTake fault) := by
  intro s h
  unfold loseTake
  split
  · exact endPhase_work _ _ s h
  · exact endPhase_work _ _ _ (finishTake_work _ s h)
  · exact endPhase_work _ _ _ (holdAtSetpoint_work _ s h)
  · exact endPhase_work _ _ _ (holdAtSetpoint_work _ s h)
  all_goals exact h

theorem lockNotice_work (new : Lock) : KeepsWork (lockNotice new) := by
  intro s h
  obtain ⟨hn, -⟩ | hn | ⟨hn, -⟩ := lockNotice_cases new s <;> rw [hn]
  · exact loseTake_work _ s h
  · exact h
  · exact h.congr ⟨⟨rfl, rfl, rfl, rfl⟩, rfl⟩

end Sys2Proof.Machine
end

section
/-! PROOFS. O57: the entries into stop states and the causes keep modes, runs and take work within the stop state (R118, R121 to R124,
R133, R167). -/

namespace Sys2Proof.Machine

variable {s t u : State} {ch : Chan}

/-! ## A station that has left RUN, or was not in it -/

/-- A channel as every stop state but HALTED allows it: in OFF with everything at 0, or driven in HOLD. -/
def OffOrHeld (u : State) (ch : Chan) : Prop :=
  ((u.mo.get ch).mode = .off ∧ AtZero (u.mo.get ch))
    ∨ ((u.mo.get ch).mode = .hold ∧ isAxis u ch = true ∧ u.sc.state ≠ .halted)

/-- With no run, no pending offset and no take work, channels in OFF or HOLD meet the invariant in every stop state. -/
theorem workInv_of_idle (hmo : ∀ ch, OffOrHeld t ch)
    (hrf : ∀ ch, inRun (t.rf.get ch) = false ∧ (t.rf.get ch).offset = none) (hphase : workingPhase t.te.phase = false) :
    WorkInv t := by
  refine ⟨fun ch => ?_, fun hw => by simp [hphase] at hw⟩
  obtain ⟨hrun, hoff⟩ := hrf ch
  obtain ⟨hm, hzero⟩ | ⟨hm, haxis, hstate⟩ := hmo ch
  · exact ⟨fun _ => hzero, fun h => absurd hm h, fun h => absurd hm h, by simp [hm, needsReferenced], by simp [hoff], by simp [hrun]⟩
  · exact ⟨by simp [hm], fun _ => ⟨haxis, hstate⟩, fun _ h => absurd hm h, by simp [hm, needsReferenced], by simp [hoff],
      by simp [hrun]⟩

/-- A run that has been stopped leaves neither a run nor a pending offset (R49). -/
theorem stoppedRun_idle (c : ChanCfg) {r : Reference} (h : r.offset.isSome → inRun r = true) :
    inRun (stoppedRun c r) = false ∧ (stoppedRun c r).offset = none := by
  refine ⟨stoppedRun_not_inRun c r, ?_⟩
  unfold stoppedRun
  split
  · rfl
  · next hrun => simpa using mt h hrun

/-- Outside RUN no run, no pending offset and no take work is left. -/
theorem WorkInv.idle (h : WorkInv s) (hstate : s.sc.state ≠ .run) :
    (∀ ch, inRun (s.rf.get ch) = false ∧ (s.rf.get ch).offset = none) ∧ workingPhase s.te.phase = false := by
  refine ⟨fun ch => ?_, Bool.eq_false_iff.mpr fun hw => hstate (h.take hw)⟩
  have hrun : inRun (s.rf.get ch) = false := Bool.eq_false_iff.mpr fun hrun => hstate ((h.modes ch).run hrun)
  exact ⟨hrun, by simpa [hrun] using (h.modes ch).offset⟩

/-- After the notice that a state other than RUN is entered no run, no pending offset and no take work is left. -/
theorem stopNotice_idle (h : WorkInv s) (hrf : u.rf = s.rf) (hte : u.te = s.te) (new : StopState) (hnew : new ≠ .run) :
    (∀ ch, inRun ((stopNotice s.sc.state new u).rf.get ch) = false ∧ ((stopNotice s.sc.state new u).rf.get ch).offset = none)
      ∧ workingPhase (stopNotice s.sc.state new u).te.phase = false := by
  by_cases hrun : s.sc.state = .run
  · rw [hrun]
    refine ⟨fun ch => ?_, stopNotice_phase new u hnew⟩
    rw [(stopNotice_runs .run new u hnew ch).2, if_pos rfl, hrf]
    exact stoppedRun_idle _ (h.modes ch).offset
  · have hn : stopNotice s.sc.state new u = stoppedLamp new u := by simp [stopNotice, hrun, hnew]
    rw [hn, (stoppedLamp_mo new u).2.1, (stoppedLamp_mo new u).2.2.2.1, hrf, hte]
    exact h.idle hrun

/-! ## The stop controller's requests (R21) -/

/-- Requests on each channel change the motion records alone. -/
theorem forChans_te {f : Chan → State → State} (hf : ∀ ch s, (f ch s).te = s.te) (chans : List Chan) (s : State) :
    (forChans f chans s).te = s.te :=
  forChans_induct (fun t => t.te = s.te) f chans s (fun ch t ht => (hf ch t).trans ht) rfl

theorem cutChannel_te (ch : Chan) (s : State) : (cutChannel ch s).te = s.te := by
  unfold cutChannel; split <;> rfl

/-- A channel outside the AXIS channels is in OFF with everything at 0. -/
theorem WorkInv.offOrHeld_of_not_axis (h : WorkInv s) (haxis : isAxis s ch = false) (hmo : u.mo.get ch = s.mo.get ch) :
    OffOrHeld u ch := by
  have hoff : (s.mo.get ch).mode = .off := by
    by_contra hne
    obtain ⟨hdriven, -⟩ := (h.modes ch).driven hne
    simp [haxis] at hdriven
  exact .inl (hmo ▸ ⟨hoff, (h.modes ch).off hoff⟩)

/-- Every AXIS channel cut: in OFF with everything at 0, as every other channel is. -/
theorem WorkInv.offOrHeld_of_cuts (h : WorkInv s)
    (hmo : u.mo.get ch = if isAxis s ch = true then (cutChannel ch s).mo.get ch else s.mo.get ch) : OffOrHeld u ch := by
  cases haxis : isAxis s ch with
  | true =>
    rw [if_pos haxis] at hmo
    refine .inl (hmo ▸ ⟨cutChannel_mode ch s, ?_⟩)
    unfold cutChannel
    split
    · next hoff => exact (h.modes ch).off hoff
    · obtain ⟨-, hv, hinteg, hu, -⟩ := requestOff_get ch s
      exact ⟨hv, hinteg, hu⟩
  | false => exact h.offOrHeld_of_not_axis haxis (by simpa [haxis] using hmo)

/-- Every AXIS channel put in HOLD by STOPPING requests, which leave a channel in OFF there. -/
theorem WorkInv.offOrHeld_of_stops (h : WorkInv s) (hcfg : u.cfg = s.cfg) (hstate : u.sc.state ≠ .halted)
    (hmo : u.mo.get ch = if isAxis s ch = true then (requestStopping ch s).mo.get ch else s.mo.get ch) : OffOrHeld u ch := by
  cases haxis : isAxis s ch with
  | true =>
    have haxis' : isAxis u ch = true := by unfold isAxis chanCfg at haxis ⊢; rwa [hcfg]
    simp only [haxis, if_true, requestStopping, modMo_get] at hmo
    by_cases hoff : (s.mo.get ch).mode = .off
    · rw [if_pos hoff] at hmo
      exact .inl (hmo ▸ ⟨hoff, (h.modes ch).off hoff⟩)
    · rw [if_neg hoff] at hmo
      exact .inr ⟨by rw [hmo], haxis', hstate⟩
  | false => exact h.offOrHeld_of_not_axis haxis (by simpa [haxis] using hmo)

/-- Every AXIS channel held where it stands by the requests of a release. -/
theorem WorkInv.offOrHeld_of_releases (h : WorkInv s) (hcfg : u.cfg = s.cfg) (hstate : u.sc.state ≠ .halted)
    (hmo : u.mo.get ch = if isAxis s ch = true then (requestRelease ch s).mo.get ch else s.mo.get ch) : OffOrHeld u ch := by
  cases haxis : isAxis s ch with
  | true =>
    have haxis' : isAxis u ch = true := by unfold isAxis chanCfg at haxis ⊢; rwa [hcfg]
    simp only [haxis, if_true, requestRelease, modMo_get] at hmo
    exact .inr ⟨by rw [hmo], haxis', hstate⟩
  | false => exact h.offOrHeld_of_not_axis haxis (by simpa [haxis] using hmo)

/-- In a state other than RUN a channel is in OFF or in HOLD. -/
theorem WorkInv.offOrHeld (h : WorkInv s) (hstate : s.sc.state ≠ .run) (hmo : u.mo.get ch = s.mo.get ch)
    (hcfg : u.cfg = s.cfg) (hu : u.sc.state ≠ .halted) : OffOrHeld u ch := by
  have hc := h.modes ch
  by_cases hoff : (s.mo.get ch).mode = .off
  · exact .inl (hmo ▸ ⟨hoff, hc.off hoff⟩)
  · have hhold : (s.mo.get ch).mode = .hold := by
      by_contra hne
      exact hstate (hc.working hoff hne)
    obtain ⟨haxis, -⟩ := hc.driven hoff
    refine .inr ⟨hmo ▸ hhold, ?_, hu⟩
    unfold isAxis chanCfg at haxis ⊢
    rwa [hcfg]

/-! ## Entries into stop states (R122 to R124, R133) -/

theorem enterBraking_work (h : WorkInv s) (hstate : s.sc.state ≠ .run) : WorkInv (enterBraking s) := by
  obtain ⟨hidle, hphase⟩ := stopNotice_idle h
    (u := setBrake false (setStop .braking none (some (after s.clock (s.cfg.brakeEngage * 1000))) none s)) rfl rfl
    .braking (by decide)
  refine workInv_of_idle (fun ch => ?_) hidle hphase
  exact h.offOrHeld hstate (by rw [enterBraking_mo]) (enterBraking_same s).cfg (by rw [(enterBraking_sc s).1]; simp)

theorem enterBrakingCut_work : KeepsWork enterBrakingCut := by
  intro s h
  let s₁ := setBrake false (setStop .braking none (some (after s.clock (s.cfg.brakeEngage * 1000))) none s)
  obtain ⟨hidle, hphase⟩ :=
    stopNotice_idle h (cuts_reads s₁).rf (forChans_te cutChannel_te (axisChans s₁) s₁) .braking (by decide)
  exact workInv_of_idle (fun ch => h.offOrHeld_of_cuts (enterBrakingCut_mo s ch)) hidle hphase

theorem enterHalted_work : KeepsWork enterHalted := by
  intro s h
  let s₁ := setStop .halted none none none s
  obtain ⟨hidle, hphase⟩ :=
    stopNotice_idle h (cuts_reads s₁).rf (forChans_te cutChannel_te (axisChans s₁) s₁) .halted (by decide)
  exact workInv_of_idle (fun ch => h.offOrHeld_of_cuts (enterHalted_mo s ch)) hidle hphase

theorem enterStopping_work : KeepsWork enterStopping := by
  intro s h
  let s₁ := setStop .stopping (some (after s.clock (s.cfg.stopTimeout * 1000))) none none s
  let u := forChans requestStopping (axisChans s₁) s₁
  let s₂ := stopNotice s.sc.state .stopping u
  obtain ⟨hreads, hmo⟩ := stopAll (axisChans s₁) (axisChans_nodup s₁) s₁
  have hstate : s₂.sc.state = .stopping := by
    show (stopNotice s.sc.state .stopping u).sc.state = _
    rw [(stopNotice_sc _ _ _).1, hreads.sc]; rfl
  obtain ⟨hidle, hphase⟩ :=
    stopNotice_idle h hreads.rf (forChans_te (f := requestStopping) (fun _ _ => rfl) (axisChans s₁) s₁) .stopping (by decide)
  have hmo₂ : ∀ ch, s₂.mo.get ch = if isAxis s ch = true then (requestStopping ch s).mo.get ch else s.mo.get ch := fun ch => by
    show (stopNotice s.sc.state .stopping u).mo.get ch = _
    rw [stopNotice_mo _ _ _ (by decide), hmo]
    simp only [mem_axisChans]
    rfl
  have hcfg : s₂.cfg = s.cfg := (stopNotice_same _ _ _).cfg.trans hreads.cfg
  have h₂ : WorkInv s₂ :=
    workInv_of_idle (fun ch => h.offOrHeld_of_stops hcfg (by rw [hstate]; decide) (hmo₂ ch)) hidle hphase
  show WorkInv (if allAtRest s₂ then enterBraking s₂ else s₂)
  split
  · exact enterBraking_work h₂ (by rw [hstate]; decide)
  · exact h₂

/-- The stop state alone changed, to RUN. -/
theorem setStop_run_work (h : WorkInv s) (a b c : Option Word) : WorkInv (setStop .run a b c s) :=
  ⟨fun ch => ⟨(h.modes ch).off, fun hm => ⟨((h.modes ch).driven hm).1, by simp⟩, fun _ _ => rfl, (h.modes ch).reference,
    (h.modes ch).offset, fun _ => rfl⟩, fun _ => rfl⟩

theorem stoppedLamp_work (new : StopState) : KeepsWork (stoppedLamp new) := by
  refine .of_same fun s => ?_
  unfold stoppedLamp
  split
  · exact ⟨⟨rfl, rfl, rfl, rfl⟩, rfl⟩
  · exact .refl s

theorem enterRun_work : KeepsWork enterRun := by
  intro s h
  have hn : enterRun s = stoppedLamp .run (liveRequests (setStop .run none none none s)) := by simp [enterRun, stopNotice]
  rw [hn]
  exact stoppedLamp_work _ _ (liveRequests_work _ (setStop_run_work h _ _ _))

theorem enterReleasing_work : KeepsWork enterReleasing := by
  intro s h
  let s₁ := setBrake true (setStop .releasing none none (some (after s.clock (s.cfg.brakeRelease * 1000))) s)
  let s₂ : State :=
    { s₁ with
      sc := { s₁.sc with
        first := none, last := none, causes := 0, releaseFrame := s₁.ft.count, result := .released, resultCause := none
        remembered := List.replicate 30 none } }
  let u := forChans requestRelease (axisChans s₂) s₂
  obtain ⟨hreads, hmo⟩ := releaseAll (axisChans s₂) (axisChans_nodup s₂) s₂
  obtain ⟨hidle, hphase⟩ :=
    stopNotice_idle h hreads.rf (forChans_te (f := requestRelease) (fun _ _ => rfl) (axisChans s₂) s₂) .releasing (by decide)
  refine workInv_of_idle (t := stopNotice s.sc.state .releasing u) (fun ch => h.offOrHeld_of_releases ?_ ?_ ?_) hidle hphase
  · exact (stopNotice_same _ _ _).cfg.trans hreads.cfg
  · rw [(stopNotice_sc _ _ _).1, hreads.sc]; exact (by decide : StopState.releasing ≠ .halted)
  · rw [stopNotice_mo _ _ _ (by decide), hmo]
    simp only [mem_axisChans]
    rfl

/-! ## Causes (R120, R121) -/

/-- Channels cut in BRAKING, where no run and no take work is left (R121). -/
theorem cutChannels_work (h : WorkInv s) (hstate : s.sc.state ≠ .run) : WorkInv (forChans cutChannel (axisChans s) s) := by
  obtain ⟨hreads, hmo⟩ := cutAll (axisChans s) (axisChans_nodup s) s
  simp only [mem_axisChans] at hmo
  obtain ⟨hidle, hphase⟩ := h.idle hstate
  exact workInv_of_idle (fun ch => h.offOrHeld_of_cuts (hmo ch)) (by rwa [hreads.rf])
    (by rwa [forChans_te cutChannel_te])

theorem actOnCause_work (cut : Bool) : KeepsWork (actOnCause cut) := by
  intro s h
  obtain ⟨-, hact⟩ | ⟨-, hact⟩ | ⟨hstate, hact⟩ | ⟨-, hact⟩ := actOnCause_cases cut s <;> rw [hact]
  · split
    · exact enterBrakingCut_work s h
    · exact enterStopping_work s h
  · split
    · exact enterBrakingCut_work s h
    · exact h
  · split
    · exact cutChannels_work h (by simp [hstate])
    · exact h
  · exact h

theorem raiseCause_work (kind : CauseKind) (origin channel zone : Byte) : KeepsWork (raiseCause kind origin channel zone) := by
  intro s h
  have hrecord : SameWork s (recordCause kind origin channel zone s) := ⟨⟨rfl, rfl, rfl, rfl⟩, rfl⟩
  have hbody : ∀ t, SameWork t (makeStopBody kind origin channel zone t) := fun _ => ⟨⟨rfl, rfl, rfl, rfl⟩, rfl⟩
  unfold raiseCause
  refine actOnCause_work _ _ (h.congr ?_)
  split
  · exact hrecord.trans (hbody _)
  · exact hrecord

theorem raiseChannel_work (kind : CauseKind) (ch : Chan) : KeepsWork (raiseChannel kind ch) :=
  fun s h => raiseCause_work _ _ _ _ s h

theorem raiseOwn_work (kind : CauseKind) : KeepsWork (raiseOwn kind) := fun s h => raiseCause_work _ _ _ _ s h

theorem feedbackOnset_work (ch : Chan) : KeepsWork (feedbackOnset ch) := by
  intro s h
  unfold feedbackOnset
  split
  · exact raiseChannel_work _ _ s h
  · exact h.congr (modFb_sameWork _ _ s)
  · exact h

/-- Causes raised one after another. -/
theorem foldl_work {α : Type} {f : State → α → State} (hf : ∀ x, KeepsWork (fun s => f s x)) (xs : List α) (h : WorkInv s) :
    WorkInv (xs.foldl f s) := by
  induction xs generalizing s with
  | nil => exact h
  | cons x xs ih => exact ih (hf x s h)

/-! ## The release (R131, R132) -/

theorem executeRelease_work : KeepsWork executeRelease := by
  intro s h
  unfold executeRelease
  split
  · split
    · exact h.congr ⟨⟨rfl, rfl, rfl, rfl⟩, rfl⟩
    · exact enterReleasing_work s h
  all_goals exact h.congr ⟨⟨rfl, rfl, rfl, rfl⟩, rfl⟩

/-- The trunk is no part of the invariant. -/
theorem WorkInv.setTrunk (h : WorkInv s) (trunk : Trunk) : WorkInv { s with tk := trunk } := h.congr ⟨⟨rfl, rfl, rfl, rfl⟩, rfl⟩

/-- Of the stop controller the invariant reads the state alone. -/
theorem WorkInv.setStopCtl (h : WorkInv s) {sc : StopCtl} (hstate : sc.state = s.sc.state) : WorkInv { s with sc := sc } :=
  h.congr ⟨⟨rfl, rfl, rfl, hstate⟩, rfl⟩

theorem stopFrameEvent_work : KeepsWork stopFrameEvent := by
  intro s h
  unfold stopFrameEvent
  simp only []
  refine WorkInv.setTrunk ?_ _
  split
  · exact executeRelease_work _ (h.setStopCtl rfl)
  · exact h.setStopCtl rfl

end Sys2Proof.Machine
end

section
/-! PROOFS. O57: the reference sequencer and a servo update keep modes, runs and take work within the stop state (R18, R42 to R50). -/

namespace Sys2Proof.Machine

variable {s t u : State} {ch : Chan}

/-! ## Captures and the starts of runs (R42 to R44) -/

theorem armCapture_sameWork (source : CaptureSource) (ch : Chan) (s : State) : SameWork s (armCapture source ch s) := by
  unfold armCapture; split
  · exact modFb_sameWork _ _ s
  · exact .refl s

/-- A capture is a pending offset in SEARCH_1 alone. -/
theorem capture_work (count : Int) (ch : Chan) : KeepsWork (capture count ch) := by
  intro s h
  by_cases hs : searching ch s
  · have hframe := capture_frame count ch s
    rw [capture_rf_searching hs] at hframe
    obtain ⟨hstate, -⟩ := hs
    have hin : inRun (s.rf.get ch) = true := by simp [inRun, hstate]
    rw [hframe]
    have hoffset : WorkInv (modRf ch (fun r => { r with offset := some ((chanCfg s ch).refPosition - count) }) s) :=
      h.of_modRf (fun hr => hr) (fun _ => hin) (fun _ => (h.modes ch).run hin)
    exact hoffset.congr ⟨⟨rfl, rfl, rfl, rfl⟩, rfl⟩
  · have hframe := capture_frame count ch s
    rw [capture_rf_idle hs] at hframe
    rw [hframe]
    exact h.congr ⟨⟨rfl, rfl, rfl, rfl⟩, rfl⟩

theorem armForRun_sameWork (ch : Chan) (back : Bool) (s : State) : SameWork s (armForRun ch back s) := by
  unfold armForRun
  split
  · exact armCapture_sameWork _ _ s
  · split
    · exact .refl s
    · exact armCapture_sameWork _ _ s
  all_goals exact .refl s

/-- A run starts with the request for REF accepted, so in RUN. -/
theorem startRun_work (ch : Chan) : KeepsWork (startRun ch) := by
  intro s h
  unfold startRun
  split
  · next hwants =>
    have hstate : (s.rf.get ch).state ≠ .referenced := by
      intro href
      simp [wantsRun, href] at hwants
    obtain ⟨why, -, hreq⟩ | ⟨hnone, hreq⟩ := request_cases .ref ch s <;> rw [hreq]
    · exact h
    · obtain ⟨hrun, -⟩ := refusal_none .ref ch s hnone
      have hask : WorkInv (modMo ch (acceptMode .ref) s) := by
        have := ask_work .ref ch s h
        rwa [ask, hreq] at this
      refine WorkInv.congr ?_ (armForRun_sameWork ch _ _)
      exact hask.of_modRf (fun hr => absurd hr hstate) (fun hoff => by simp [beginRun] at hoff) (fun _ => hrun)
  · exact h

theorem referenceCommand_work : KeepsWork referenceCommand := by
  intro s h
  unfold referenceCommand
  split
  · exact KeepsWork.chans startRun_work _ s h
  · exact h

/-! ## The ends of runs (R47, R48, R50) -/

theorem clearRun_failed_not_inRun (reason : FailReason) (realign : Bool) (r : Reference) :
    inRun (clearRun (.failed reason) realign r) = false := rfl

/-- A run in progress fails: its channel was not REFERENCED. -/
theorem failRun_work (reason : FailReason) (h : WorkInv s) (hin : inRun (s.rf.get ch) = true) : WorkInv (failRun reason ch s) := by
  refine ask_work _ ch _ (WorkInv.congr ?_ (modFb_sameWork ch disarm _))
  exact h.of_modRf (fun hr => absurd hr (not_referenced_of_inRun hin)) (fun hoff => by simp at hoff)
    (fun hrun => by simp [clearRun_failed_not_inRun] at hrun)

theorem abortRun_work (ch : Chan) : KeepsWork (abortRun ch) := by
  intro s h
  unfold abortRun
  split
  · next hin => exact failRun_work _ (h.of_modRf_keeps fun _ => ⟨rfl, rfl⟩) (by rwa [modRf_get])
  · exact h

theorem abortRuns_work : KeepsWork abortRuns := .chans abortRun_work _

/-! ## A servo update (R18, R43 to R47) -/

theorem turnBackOff_work (ch : Chan) : KeepsWork (turnBackOff ch) := by
  intro s h
  simp only [turnBackOff]
  split
  · refine WorkInv.congr ?_ (armCapture_sameWork _ ch _)
    exact h.of_modRf_keeps fun _ => ⟨rfl, rfl⟩
  · exact h

/-- An offset is applied in a run, which enters PARKING. -/
theorem shifted_work (h : WorkInv s) (hin : inRun (s.rf.get ch) = true) (δ : Int) : WorkInv (shifted ch δ s) := by
  have hshift : WorkInv (modMo ch (fun m => { m with p := m.p + δ * 256 }) (modFb ch (fun f => disarm (shiftCount δ f).1) s)) :=
    (h.congr (modFb_sameWork ch _ s)).of_modMo rfl fun _ hz => hz
  exact hshift.of_modRf (fun hr => absurd hr (not_referenced_of_inRun hin)) (fun hoff => by simp [enterParking] at hoff)
    (fun _ => (h.modes ch).run hin)

theorem applyOffset_work (ch : Chan) : KeepsWork (applyOffset ch) := by
  intro s h
  cases hoff : (s.rf.get ch).offset with
  | none => rwa [applyOffset_none hoff]
  | some δ =>
    have hshift := shifted_work h ((h.modes ch).offset (by simp [hoff])) δ
    rw [applyOffset_some hoff]
    split
    · exact feedbackOnset_work _ _ hshift
    · exact hshift

theorem realign_work (ch : Chan) : KeepsWork (realign ch) := by
  intro s h
  unfold realign
  split
  · exact (h.of_modMo rfl fun _ hz => ⟨rfl, rfl, hz.2.2⟩).of_modRf_keeps fun _ => ⟨rfl, rfl⟩
  · exact h

theorem beforeUpdate_work (ch : Chan) : KeepsWork (beforeUpdate ch) :=
  fun s h => realign_work ch _ (applyOffset_work ch _ (turnBackOff_work ch s h))

theorem refreshLocal_work (ch : Chan) : KeepsWork (refreshLocal ch) := by
  intro s h
  unfold refreshLocal
  split
  · split
    · split
      · exact h.congr (modBd_sameWork _ _ s)
      · exact h
    · exact h
  · exact h

theorem noteMapClamped_work (ch : Chan) : KeepsWork (noteMapClamped ch) := by
  intro s h
  unfold noteMapClamped
  simp only []
  split <;> exact h.congr (modBd_sameWork _ _ s)

/-- The mode is changed by requests alone, never by an update's record. -/
theorem updateRecord_mode (i : UpdateInput) (c : ChanCfg) (m : Motion) : (updateRecord i c m).mode = m.mode := by
  simp only [updateRecord]; split <;> rfl

/-- In OFF the record follows X with everything else at 0 (R24). -/
theorem updateRecord_off (i : UpdateInput) (c : ChanCfg) {m : Motion} (h : m.mode = .off) :
    updateRecord i c m = { trackOff i m with ring := ringValue i c (i.x * 256) } := by
  simp only [updateRecord, h, if_true]; rfl

theorem writeRecord_work (i : UpdateInput) (c : ChanCfg) (ch : Chan) : KeepsWork (modMo ch (updateRecord i c)) :=
  fun s h => h.of_modMo (updateRecord_mode i c _) fun hoff _ => by rw [updateRecord_off i c hoff]; exact ⟨rfl, rfl, rfl⟩

/-! ## What takes the record of an update, in a free order (R33, R45 to R47, R158, R163) -/

/-- The invariant while an update's record is taken: the offset pending before it has been applied. -/
structure UpdateInv (ch : Chan) (s : State) : Prop where
  work : WorkInv s
  offset : (s.rf.get ch).offset = none

/-- A cause leaves no offset pending where none was. -/
theorem raiseCause_offset (kind : CauseKind) (origin channel zone : Byte) (h : (s.rf.get ch).offset = none) :
    ((raiseCause kind origin channel zone s).rf.get ch).offset = none := by
  rw [(raiseCause_runs kind origin channel zone s ch).2]
  split
  · unfold stoppedRun
    split
    · rfl
    · exact h
  · exact h

theorem feedbackOnset_offset (h : (s.rf.get ch).offset = none) : ((feedbackOnset ch s).rf.get ch).offset = none := by
  unfold feedbackOnset
  split
  · exact raiseCause_offset _ _ _ _ h
  all_goals exact h

/-- The offset pending before an update is applied by it. -/
theorem applyOffset_offset (ch : Chan) (s : State) : ((applyOffset ch s).rf.get ch).offset = none := by
  cases hoff : (s.rf.get ch).offset with
  | none => rwa [applyOffset_none hoff]
  | some δ =>
    have hshift : ((shifted ch δ s).rf.get ch).offset = none := by rw [(shifted_get ch δ s).2]; rfl
    rw [applyOffset_some hoff]
    split
    · exact feedbackOnset_offset hshift
    · exact hshift

theorem beforeUpdate_offset (ch : Chan) (s : State) : ((beforeUpdate ch s).rf.get ch).offset = none := by
  have happly := applyOffset_offset ch (turnBackOff ch s)
  unfold beforeUpdate realign
  split
  · rw [modRf_get]; exact happly
  · exact happly

theorem noteMapClamped_rf (ch : Chan) (s : State) : (noteMapClamped ch s).rf = s.rf := by
  unfold noteMapClamped
  simp only []
  split <;> rfl

theorem holdAtSetpoint_reads (chans : List Chan) (s : State) : SameReads s (holdAtSetpoint chans s) :=
  forChans_induct (SameReads s) _ chans s (fun ch _ ht => ht.trans (ask_reads _ ch _)) (.refl s)

/-- Parking ends REFERENCED, with no offset pending. -/
theorem parkCheck_update (ch : Chan) (h : UpdateInv ch s) : UpdateInv ch (parkCheck ch s) := by
  obtain ⟨hwork, hoff⟩ := h
  simp only [parkCheck]
  split
  · have href : WorkInv (modRf ch (fun r => { r with state := .referenced, timer := none }) s) :=
      hwork.of_modRf (fun _ => rfl) (fun hsome => by simp [hoff] at hsome) (fun hin => by simp [inRun] at hin)
    refine ⟨ask_work _ ch _ href, ?_⟩
    rw [(ask_reads _ ch _).rf, modRf_get]
    exact hoff
  · exact ⟨hwork, hoff⟩

/-- The second stall ends the search: the run parks, or fails. -/
theorem secondStall_update (pos : Int) (h : UpdateInv ch s) (hstate : (s.rf.get ch).state = .search2) :
    UpdateInv ch (secondStall pos ch s) := by
  obtain ⟨hwork, hoff⟩ := h
  have hin : inRun (s.rf.get ch) = true := by simp [inRun, hstate]
  have hnoted : WorkInv (modRf ch (fun r => { r with stall := 0, endHi := some pos, realign := true }) s) :=
    hwork.of_modRf_keeps fun _ => ⟨rfl, rfl⟩
  simp only [secondStall]
  split
  · refine ⟨failRun_work _ hnoted (by rwa [modRf_get]), ?_⟩
    rw [failRun, (ask_reads _ ch _).rf]
    simp
  · refine ⟨hnoted.of_modRf (fun hr => ?_) (fun hsome => ?_) (fun _ => (hwork.modes ch).run hin), ?_⟩
    · rw [modRf_get] at hr; simp [hstate] at hr
    · rw [modRf_get] at hsome; simp [hoff] at hsome
    · rw [modRf_get, modRf_get]; exact hoff

/-- A search goes on with its state, or its stall ends it. -/
theorem stallCheck_update (ch : Chan) (h : UpdateInv ch s) : UpdateInv ch (stallCheck ch s) := by
  have hcount : ∀ n : Reference → Nat, UpdateInv ch (modRf ch (fun r => { r with stall := n r }) s) := fun n =>
    ⟨h.work.of_modRf_keeps fun _ => ⟨rfl, rfl⟩, by rw [modRf_get]; exact h.offset⟩
  by_cases hkind : (chanCfg s ch).refKind = .endStops
  · by_cases hstate : (s.rf.get ch).state = .search1 ∨ (s.rf.get ch).state = .search2
    · have hin : inRun (s.rf.get ch) = true := by simpa [inRun] using Or.inl hstate
      rw [stallCheck_search hkind hstate]
      split
      · split
        · exact hcount _
        · split
          · exact ⟨h.work.of_modRf (fun hr => absurd hr (not_referenced_of_inRun hin)) (fun _ => rfl)
              (fun _ => (h.work.modes ch).run hin), by rw [modRf_get]; exact h.offset⟩
          · next hfirst => exact secondStall_update _ h (hstate.resolve_left hfirst)
      · exact hcount _
    · have hidle : stallCheck ch s = s := by
        rw [not_or] at hstate
        simp [stallCheck, hstate]
      rwa [hidle]
  · rwa [stallCheck_other hkind]

theorem afterUpdate_update (ch : Chan) (h : UpdateInv ch s) : UpdateInv ch (afterUpdate ch s) := by
  unfold afterUpdate
  split
  · exact parkCheck_update ch h
  · exact stallCheck_update ch h

/-- FOLLOWING ends a run, with its offset (R49). -/
theorem followingOnset_update (onset : Bool) (ch : Chan) (h : UpdateInv ch s) : UpdateInv ch (followingOnset onset ch s) := by
  cases onset with
  | false => exact h
  | true => exact ⟨raiseChannel_work _ ch s h.work, raiseCause_offset _ _ _ _ h.offset⟩

/-- CUED is entered from CUEING, so in RUN; a lost lock ends the take instead (R158). -/
theorem enterCued_work (h : WorkInv s) (hrun : s.sc.state = .run) : WorkInv (enterCued s) := by
  have hcued : ∀ te : TakeEngine, WorkInv { s with te := te } := fun te => h.of_phase ⟨rfl, rfl, rfl, rfl⟩ fun _ => hrun
  unfold enterCued
  simp only []
  split
  · exact endPhase_work _ _ _ (holdAtSetpoint_work _ _ (hcued _))
  all_goals exact hcued _

theorem enterCued_rf (s : State) : (enterCued s).rf = s.rf := by
  unfold enterCued
  simp only []
  split
  · exact (holdAtSetpoint_reads _ _).rf
  all_goals rfl

theorem takeAfterUpdate_update (ch : Chan) (h : UpdateInv ch s) : UpdateInv ch (takeAfterUpdate ch s) := by
  obtain ⟨hwork, hoff⟩ := h
  unfold takeAfterUpdate
  split
  · next hphase =>
    have hrun : s.sc.state = .run := hwork.take (by simp [hphase, workingPhase])
    have hmarks : ∀ m, WorkInv { s with te := { s.te with marks := m } } := fun m => hwork.congr ⟨⟨rfl, rfl, rfl, rfl⟩, rfl⟩
    simp only []
    split
    · exact ⟨enterCued_work (hmarks _) hrun, by rw [enterCued_rf]; exact hoff⟩
    · exact ⟨hmarks _, hoff⟩
  · split
    · exact ⟨hwork.congr ⟨⟨rfl, rfl, rfl, rfl⟩, rfl⟩, hoff⟩
    · exact ⟨hwork, hoff⟩
  all_goals exact ⟨hwork, hoff⟩

theorem velocityReport_work : KeepsWork velocityReport := by
  intro s h
  obtain ⟨hr, -⟩ | ⟨hr, hstate, -⟩ := velocityReport_cases s <;> rw [hr]
  · exact h
  · exact enterBraking_work h (by simp [hstate])

theorem servoUpdate_work (ch : Chan) : KeepsWork (servoUpdate ch) := by
  intro s h
  have hbefore : UpdateInv ch (beforeUpdate ch (refreshLocal ch s)) :=
    ⟨beforeUpdate_work ch _ (refreshLocal_work ch s h), beforeUpdate_offset ch _⟩
  have hnote : UpdateInv ch (noteMapClamped ch (beforeUpdate ch (refreshLocal ch s))) :=
    ⟨noteMapClamped_work ch _ hbefore.work, by rw [noteMapClamped_rf]; exact hbefore.offset⟩
  refine velocityReport_work _ (inAnyOrder_induct (UpdateInv ch) _ _ ?_ ?_ ?_).work
  · exact fun _ _ _ ht => ⟨ht.work.congr ⟨⟨rfl, rfl, rfl, rfl⟩, rfl⟩, ht.offset⟩
  · intro f hf t ht
    simp only [List.mem_cons, List.not_mem_nil, or_false] at hf
    rcases hf with rfl | rfl | rfl
    · exact followingOnset_update _ ch ht
    · exact afterUpdate_update ch ht
    · exact takeAfterUpdate_update ch ht
  · exact ⟨writeRecord_work _ _ ch _ hnote.work, hnote.offset⟩

end Sys2Proof.Machine
end

section
/-! PROOFS. O57: takes, desk commands, frame events and trunk frames keep modes, runs and take work within the stop state; and the step
(R52, R84, R92, R98, R150 to R168). -/

namespace Sys2Proof.Machine

variable {s t u : State} {ch : Chan}

/-! ## The take engine (R152 to R166) -/

theorem takeCommand_work (serial : Byte) {f : State → State} (hf : KeepsWork f) : KeepsWork (takeCommand serial f) := by
  intro s h
  unfold takeCommand
  split
  · exact hf _ (h.congr ⟨⟨rfl, rfl, rfl, rfl⟩, rfl⟩)
  · exact h

/-- A RECORD is taken in RUN alone (R152). -/
theorem recordFault_none {take : Nat} {start : Word} (h : recordFault take start s = .none) : s.sc.state = .run := by
  by_contra hne
  unfold recordFault at h
  by_cases hphase : s.te.phase ≠ .idle
  · rw [if_pos hphase] at h; cases h
  · rw [if_neg hphase, if_pos hne] at h; cases h

theorem recordTake_work (take : Nat) (start : Word) : KeepsWork (recordTake take start) := by
  intro s h
  unfold recordTake
  split
  · next hfault => exact h.of_phase ⟨rfl, rfl, rfl, rfl⟩ fun _ => recordFault_none hfault
  · exact refuseTake_work _ s h

theorem endTake_work : KeepsWork endTake := by
  intro s h
  obtain ⟨-, he⟩ | ⟨-, he⟩ | ⟨-, -, he⟩ | ⟨-, -, -, he⟩ := endTake_cases s <;> rw [he]
  · exact endDone_work _ _ (finishTake_work _ s h)
  · exact endPhase_work _ _ s h
  · exact h
  · exact refuseTake_work _ s h

theorem cueTake_work (take : Nat) : KeepsWork (cueTake take) := by
  intro s h
  have hchecking : ∀ te : TakeEngine, te.phase = .checking → WorkInv { s with te := te } := fun te hte =>
    h.of_phase ⟨rfl, rfl, rfl, rfl⟩ fun hw => by simp [hte, workingPhase] at hw
  unfold cueTake
  split
  · simp only []
    split
    · exact (hchecking _ rfl).congr ⟨⟨rfl, rfl, rfl, rfl⟩, rfl⟩
    · exact endPhase_work _ _ _ (hchecking _ rfl)
  · exact refuseTake_work _ s h

theorem startCueing_work (h : WorkInv s) (hrun : s.sc.state = .run) : WorkInv (startCueing s) := by
  have hcueing : WorkInv { s with te := { s.te with phase := .cueing, marks := .all false } } :=
    h.of_phase ⟨rfl, rfl, rfl, rfl⟩ fun _ => hrun
  unfold startCueing
  simp only []
  split
  · next heq => exact requestAll_work hcueing heq
  · next heq => exact endPhase_work _ _ _ (holdAtSetpoint_work _ _ (requestAll_work hcueing heq))

theorem checkAnswer_work (intact : Bool) : KeepsWork (checkAnswer intact) := by
  intro s h
  unfold checkAnswer
  split
  · exact h
  · split
    · exact endPhase_work _ _ s h
    · split
      · exact endPhase_work _ _ s h
      · next hrun => exact startCueing_work h (by simpa using hrun)

theorem runTake_work (take : Nat) (start : Word) (rate length : Nat) : KeepsWork (runTake take start rate length) := by
  intro s h
  unfold runTake
  split
  · exact h.congr ⟨⟨rfl, rfl, rfl, rfl⟩, rfl⟩
  · exact refuseTake_work _ s h

theorem startRecording_work (h : WorkInv s) (hrun : s.sc.state = .run) : WorkInv (startRecording s) := by
  unfold startRecording
  split
  · exact h.of_phase ⟨rfl, rfl, rfl, rfl⟩ fun _ => hrun
  · exact endPhase_work _ _ s h

theorem appendFrame_work : KeepsWork appendFrame := by
  intro s h
  unfold appendFrame
  split
  · exact h.congr ⟨⟨rfl, rfl, rfl, rfl⟩, rfl⟩
  · exact endDone_work _ _ (h.congr ⟨⟨rfl, rfl, rfl, rfl⟩, rfl⟩)
  · exact h.congr ⟨⟨rfl, rfl, rfl, rfl⟩, rfl⟩

theorem requestAll_sc (r : ModeRequest) (chans : List Chan) (s : State) : (requestAll r chans s).2.sc = s.sc := by
  induction chans generalizing s with
  | nil => rfl
  | cons ch rest ih => exact (ih _).trans (ask_sc r ch s).1

theorem startPlay_work (h : WorkInv s) (hrun : s.sc.state = .run) : WorkInv (startPlay s) := by
  have hsc := requestAll_sc .play (axisChans s) s
  unfold startPlay
  split
  · next heq => exact endPhase_work _ _ _ (holdAtSetpoint_work _ _ (requestAll_work h heq))
  · next heq =>
    rw [heq] at hsc
    exact (requestAll_work h heq).of_phase ⟨rfl, rfl, rfl, rfl⟩ fun _ => (congrArg StopCtl.state hsc).trans hrun

theorem advancePlay_work : KeepsWork advancePlay := by
  intro s h
  unfold advancePlay
  simp only []
  split
  · exact endDone_work _ _ (holdAtLast_work _ (h.congr ⟨⟨rfl, rfl, rfl, rfl⟩, rfl⟩))
  · exact h.congr ⟨⟨rfl, rfl, rfl, rfl⟩, rfl⟩

theorem takeFrameEvent_work : KeepsWork takeFrameEvent := by
  intro s h
  have hrun : ∀ p, s.te.phase = p → workingPhase p = true → s.sc.state = .run := fun p hp hw => h.take (hp ▸ hw)
  unfold takeFrameEvent
  split
  · next hp =>
    split
    · exact startRecording_work h (hrun _ hp rfl)
    · exact h
  · exact appendFrame_work s h
  · next hp =>
    split
    · exact startPlay_work h (hrun _ hp rfl)
    · exact h
  · exact advancePlay_work s h
  all_goals exact h

theorem abortTake_work : KeepsWork abortTake := by
  intro s h
  unfold abortTake
  split
  · exact h
  · exact endPhase_work _ _ s h
  · exact endPhase_work _ _ _ (finishTake_work _ s h)
  · exact endPhase_work _ _ _ (h.congr ⟨⟨rfl, rfl, rfl, rfl⟩, rfl⟩)
  all_goals exact endPhase_work _ _ _ (holdAtSetpoint_work _ s h)

theorem eraseTake_work (take : Nat) : KeepsWork (eraseTake take) := by
  intro s h
  unfold eraseTake
  split
  · exact refuseTake_work _ s h
  · split
    · exact h.congr ⟨⟨rfl, rfl, rfl, rfl⟩, rfl⟩
    · exact refuseTake_work _ s h

theorem protectTake_work (take : Nat) : KeepsWork (protectTake take) := by
  intro s h
  unfold protectTake
  split
  · exact h.congr ⟨⟨rfl, rfl, rfl, rfl⟩, rfl⟩
  · exact refuseTake_work _ s h

theorem liveOrder_work : KeepsWork liveOrder := by
  intro s h
  unfold liveOrder
  split
  · exact liveRequests_work s h
  · exact h.congr ⟨⟨rfl, rfl, rfl, rfl⟩, rfl⟩

/-! ## Desk commands (R98, R102) -/

theorem holdRelease_work : KeepsWork holdRelease := fun _ h => h.setStopCtl rfl

theorem executeDesk_work (c : DeskContent) : KeepsWork (executeDesk c) := by
  intro s h
  unfold executeDesk
  split
  · exact h
  · exact takeCommand_work _ (recordTake_work _ _) s h
  · exact takeCommand_work _ endTake_work s h
  · exact takeCommand_work _ (cueTake_work _) s h
  · exact takeCommand_work _ (runTake_work _ _ _ _) s h
  · exact abortRuns_work _ (takeCommand_work _ abortTake_work s h)
  · exact takeCommand_work _ (eraseTake_work _) s h
  · exact takeCommand_work _ (protectTake_work _) s h
  · exact takeCommand_work _ liveOrder_work s h
  · exact referenceCommand_work s h
  · exact holdRelease_work s h

/-- The peer table is no part of the invariant. -/
theorem WorkInv.setPeers (h : WorkInv s) (pt : PeerTable) : WorkInv { s with pt := pt } := h.congr ⟨⟨rfl, rfl, rfl, rfl⟩, rfl⟩

theorem handConfirmed_work : KeepsWork handConfirmed := by
  intro s h
  obtain ⟨hc, -⟩ | ⟨c, -, hc⟩ := handConfirmed_cases s <;> rw [hc]
  · exact h
  · exact executeDesk_work c _ (h.setPeers _)

/-! ## Frame events (R66) -/

theorem stopPart_work : KeepsWork stopPart := by
  intro s h
  refine stopFrameEvent_work _ ?_
  obtain hr | ⟨hr, -⟩ := handRelease_cases s <;> rw [hr]
  · exact h
  · exact handConfirmed_work s h

theorem ageFrameEvent_work : KeepsWork ageFrameEvent :=
  fun _ h => foldl_work (fun _ => raiseCause_work _ _ _ _) _ (h.setPeers _)

theorem completeBuild_work : KeepsWork completeBuild := by
  intro s h
  unfold completeBuild
  split
  · exact h
  · exact h.setTrunk _

theorem frameTasks_work (stamp : Word) (old new : Lock) : ∀ f ∈ frameTasks stamp old new, KeepsWork f := by
  intro f hf
  unfold frameTasks at hf
  rcases List.mem_append.mp hf with hf | hf
  · simp only [List.mem_cons, List.not_mem_nil, or_false] at hf
    rcases hf with rfl | rfl | rfl | rfl | rfl
    · exact fun t ht => ht.setTrunk _
    · exact ageFrameEvent_work
    · exact handConfirmed_work
    · exact stopPart_work
    · exact takeFrameEvent_work
  · split at hf
    · exact absurd hf List.not_mem_nil
    · rw [List.mem_singleton.mp hf]; exact lockNotice_work new

/-- The frame timer is no part of the invariant. -/
theorem WorkInv.setTimer (h : WorkInv s) (ft : FrameTimer) : WorkInv { s with ft := ft } := h.congr ⟨⟨rfl, rfl, rfl, rfl⟩, rfl⟩

theorem frameEvent_work (pulse : Bool) (stamp : Word) (next : FrameTimer → FrameTimer) : KeepsWork (frameEvent pulse stamp next) :=
  fun _ h => completeBuild_work _ (KeepsWork.anyOrder (frameTasks_work _ _ _) _ (h.setTimer _))

/-! ## Received frames (R84, R86, R91, R92) -/

theorem mapZones_work (f : Zone → Zone) : KeepsWork (mapZones f) := .of_same fun _ => ⟨⟨rfl, rfl, rfl, rfl⟩, rfl⟩

theorem peerStopNotice_work (source : Nat) (body : List Byte) : KeepsWork (peerStopNotice source body) := by
  intro s h
  unfold peerStopNotice
  split
  · exact raiseCause_work _ _ _ _ s h
  · exact h

theorem alignmentReading_work (seq : Byte) (count : Word) : KeepsWork (alignmentReading seq count) := by
  intro s h
  unfold alignmentReading
  simp only []
  split
  · exact h.setTimer _
  · split
    · exact (loseTake_work _ s h).congr ⟨⟨rfl, rfl, rfl, rfl⟩, rfl⟩
    · exact h.setTimer _

theorem adoptArrival_work (seq : Byte) (c : DeskContent) : KeepsWork (adoptArrival seq c) := by
  intro s h
  unfold adoptArrival
  simp only []
  split
  · exact executeDesk_work c _ (h.setPeers _)
  · exact h.setPeers _

theorem modPeer_work (n : Nat) (f : PeerRecord → PeerRecord) : KeepsWork (modPeer n f) := by
  intro s h
  unfold modPeer
  split
  · exact h
  · exact h.setPeers _

theorem stateArrival_work (source : Nat) (body : List Byte) : KeepsWork (stateArrival source body) := by
  intro s h
  have hpeer := modPeer_work source (takeState body) s h
  have hnotices : ∀ b, ∀ f ∈ [presenceNotice source body b, peerStopNotice source body], KeepsWork f := by
    intro b f hf
    simp only [List.mem_cons, List.not_mem_nil, or_false] at hf
    rcases hf with rfl | rfl
    · exact fun t ht => mapZones_work _ t ht
    · exact peerStopNotice_work _ _
  unfold stateArrival
  simp only []
  split
  · refine KeepsWork.anyOrder (fun f hf => ?_) _ (hpeer.setPeers _)
    rcases List.mem_append.mp hf with hf | hf
    · exact hnotices _ f hf
    · simp only [List.mem_cons, List.not_mem_nil, or_false] at hf
      rcases hf with rfl | rfl
      · exact alignmentReading_work _ _
      · exact adoptArrival_work _ _
  · exact KeepsWork.anyOrder (hnotices _) _ hpeer

theorem wheelArrival_work (source : Nat) (seq : Byte) (values : PerChan Int) : KeepsWork (wheelArrival source seq values) := by
  refine .chans (fun ch s h => ?_) _
  split
  · split
    · exact h.congr (modBd_sameWork _ _ s)
    · exact h
  · exact h

theorem stopArrival_work (source : Nat) (body : List Byte) : KeepsWork (stopArrival source body) := by
  intro s h
  unfold stopArrival
  simp only []
  split
  · exact h
  · split
    · exact raiseCause_work _ _ _ _ _ (h.setStopCtl rfl)
    · exact h.setStopCtl rfl

theorem receive_work (heard : List Bool) : KeepsWork (receive heard) := by
  intro s h
  unfold receive
  simp only []
  split
  · exact h.setTrunk _
  · unfold frameEnd
    split
    · exact h.setTrunk _
    · split
      · exact raiseOwn_work _ _ (h.setStopCtl rfl)
      · unfold handOn
        simp only []
        split
        · exact stateArrival_work _ _ s h
        · split
          · exact wheelArrival_work _ _ _ s h
          · exact stopArrival_work _ _ s h

theorem slotAfterSend_work (f : Flight) (success : Bool) : KeepsWork (slotAfterSend f success) := by
  intro s h
  unfold slotAfterSend
  split
  · split
    · rw [sentNotice_frame]; exact h.setPeers _
    · exact h
  · exact h
  · split
    · exact h
    · exact h.setTrunk _

/-! ## The desk unit (R173 to R176) and the scans -/

/-- The desk unit is no part of the invariant. -/
theorem WorkInv.setDesk (h : WorkInv s) (dk : Desk) : WorkInv { s with dk := dk } := h.congr ⟨⟨rfl, rfl, rfl, rfl⟩, rfl⟩

theorem publishButton_work (b : Button) : KeepsWork (publishButton b) := by
  intro s h
  unfold publishButton
  cases b <;> exact h.setDesk _

theorem panelScan_work : KeepsWork panelScan := by
  intro s h
  have habort : WorkInv (abortWatch s) := by
    unfold abortWatch
    split
    · exact h
    · split
      · exact (h.setDesk _).setDesk _
      · exact h
  exact habort.setDesk _

theorem zoneScan_work : KeepsWork zoneScan :=
  fun _ h => foldl_work (f := fun t id => raiseCause .zoneBreach (stationByte t) 0 (BitVec.ofNat 8 id) t)
    (fun _ t ht => raiseCause_work _ _ _ _ t ht) _
    (h.congr (t := writeStatuses (armSilent _)) ⟨⟨rfl, rfl, rfl, rfl⟩, rfl⟩)

end Sys2Proof.Machine
end

section
/-! PROOFS. O57: the finish, a microsecond, every command, and so every step. -/

namespace Sys2Proof.Machine

variable {s t u : State} {ch : Chan}

/-! ## The start-up unit (R178, R180) -/

@[simp] theorem zip3_get {α β γ δ : Type} (f : α → β → γ → δ) (x : PerChan α) (y : PerChan β) (z : PerChan γ) (ch : Chan) :
    (zip3 f x y z).get ch = f (x.get ch) (y.get ch) (z.get ch) := by
  cases ch <;> rfl

theorem resetTo_work (byPower : Bool) (store : Store) : KeepsWork (resetTo byPower store) := fun s _ =>
  workInv_of_idle
    (fun ch => .inl (by rw [resetTo_mo]; exact ⟨rfl, rfl, rfl, rfl⟩)) (fun ch => by rw [resetTo_rf]; exact ⟨rfl, rfl⟩) rfl

/-- In HALTED every channel is in OFF, with everything at 0. -/
theorem WorkInv.off_of_halted (h : WorkInv s) (hstate : s.sc.state = .halted) (ch : Chan) :
    (s.mo.get ch).mode = .off ∧ AtZero (s.mo.get ch) := by
  have hoff : (s.mo.get ch).mode = .off := by
    by_contra hne
    exact ((h.modes ch).driven hne).2 hstate
  exact ⟨hoff, (h.modes ch).off hoff⟩

/-- The finish finds the station HALTED, with every channel in OFF and no work under way; it may only make a channel REFERENCED. -/
theorem finishValid_work (c : Cfg) (zones : List ZoneCfg) (h : WorkInv s) (hstate : s.sc.state = .halted) :
    WorkInv (finishValid c zones s) := by
  obtain ⟨hidle, hphase⟩ := h.idle (by simp [hstate])
  refine workInv_of_idle (fun ch => .inl ?_) (fun ch => ?_) hphase
  · simp only [finishValid, zip3_get, finishMotion]
    split <;> exact h.off_of_halted hstate ch
  · simp only [finishValid, zip3_get, finishReference]
    split
    · exact ⟨rfl, (hidle ch).2⟩
    · exact hidle ch

/-- An outcome that, if it is a next state, meets the invariant. -/
def AnswersWork (o : Host.Outcome State Fault Refusal) : Prop := ∀ t, o = .next t → WorkInv t

theorem WorkInv.answers (h : WorkInv s) : AnswersWork (.next s) := by rintro _ ⟨⟩; exact h

theorem WorkInv.advance (h : WorkInv s) (time : Word) : WorkInv (advanceTo time s) := h.congr (advanceTo_sameWork time s)

theorem execResetRelease_work (straps : BitVec 5) (h : WorkInv s) : AnswersWork (execResetRelease straps s) := by
  unfold execResetRelease
  split
  · exact WorkInv.answers (h.congr ⟨⟨rfl, rfl, rfl, rfl⟩, rfl⟩)
  · exact h.answers

/-- Before the finish the station is HALTED (R134), which the finish needs. -/
theorem execStartUpFinish_work (memory : Option (List Byte)) (hstop : StopInv s) (h : WorkInv s) :
    AnswersWork (execStartUpFinish memory s) := by
  unfold execStartUpFinish
  split
  · next hphase =>
    obtain ⟨hhalted, -⟩ := hstop.beforeFinish (by simp [started, hphase])
    have hread : WorkInv { s with su := { s.su with buffer := readBuffer memory } } := h.congr ⟨⟨rfl, rfl, rfl, rfl⟩, rfl⟩
    refine WorkInv.answers ?_
    split
    · exact finishValid_work _ _ (hread.advance _) (by rw [advanceTo_sc]; exact hhalted)
    · exact (hread.advance _).congr ⟨⟨rfl, rfl, rfl, rfl⟩, rfl⟩
  · exact h.answers

/-! ## Time and the encoder lines -/

theorem followQuad_sameWork (ch : Chan) (s : State) : SameWork s (followQuad ch s) := ⟨⟨rfl, rfl, rfl, rfl⟩, rfl⟩

theorem riseIndex_work (ch : Chan) : KeepsWork (riseIndex ch) := by
  intro s h
  obtain ⟨hrf, hmo, hsc, hte, hcfg⟩ := riseIndex_frame ch s
  exact h.congr ⟨⟨hmo, hrf, hcfg, by rw [hsc]⟩, by rw [hte]⟩

theorem idle_work : KeepsWork idle := by
  intro s h
  by_cases hdue : s.sampled.flatten ++ dueEvents s = []
  · obtain ⟨hfound, hdue⟩ := List.append_eq_nil_iff.mp hdue
    rw [idle_ticks hfound hdue]
    by_cases hheld : s.su.phase = .held
    · rw [tick_held hheld]; exact h.congr ⟨⟨rfl, rfl, rfl, rfl⟩, rfl⟩
    · obtain ⟨hframe, -, -, -, hmo, -⟩ := tick_spec hheld hfound
      refine ⟨fun ch => (h.modes ch).congr ⟨?_, fun _ hz => ?_, ?_, ?_, ?_⟩, ?_⟩
      · rw [hmo ch]; rfl
      · rw [hmo ch]; exact hz
      · rw [hframe]; rfl
      · rw [hframe]; rfl
      · rw [hframe]
      · rw [hframe]; exact h.take
  · obtain ⟨c, -, sampled, order, draws, hidle, -⟩ := idle_takes hdue
    rw [hidle]; exact h.congr ⟨⟨rfl, rfl, rfl, rfl⟩, rfl⟩

/-! ## The commands of the feedback unit and of the sequencer -/

theorem execLegalTransition_work (ch : Chan) (line : QuadLine) (h : WorkInv s) : AnswersWork (execLegalTransition ch line s) := by
  unfold execLegalTransition
  split
  · have hcount : ∀ f, WorkInv (followQuad ch (modFb ch f s)) := fun f =>
      (h.congr (modFb_sameWork ch f s)).congr (followQuad_sameWork ch _)
    refine WorkInv.answers ?_
    split
    · exact feedbackOnset_work ch _ (hcount _)
    · exact hcount _
  · exact h.answers

theorem execIllegalTransition_work (ch : Chan) (h : WorkInv s) : AnswersWork (execIllegalTransition ch s) := by
  unfold execIllegalTransition
  split
  · have hcount : ∀ f, WorkInv (followQuad ch (modFb ch f s)) := fun f =>
      (h.congr (modFb_sameWork ch f s)).congr (followQuad_sameWork ch _)
    refine WorkInv.answers ?_
    split
    · exact feedbackOnset_work ch _ (hcount _)
    · exact hcount _
  · exact h.answers

theorem execLeakEvent_work (ch : Chan) (h : WorkInv s) : AnswersWork (execLeakEvent ch s) := by
  unfold execLeakEvent
  split
  · exact h.answers
  · exact ((h.advance _).congr (modFb_sameWork _ _ _)).answers

theorem execIndexRise_work (ch : Chan) (h : WorkInv s) : AnswersWork (execIndexRise ch s) := by
  have hrise := riseIndex_work ch s h
  unfold execIndexRise
  simp only []
  split
  · refine WorkInv.answers ?_
    split
    · exact capture_work _ ch _ hrise
    · exact hrise
  · exact h.answers

theorem execAnalogConversion_work (ch : Chan) (reading : BitVec 16) (h : WorkInv s) :
    AnswersWork (execAnalogConversion ch reading s) := by
  unfold execAnalogConversion
  split
  · exact h.answers
  · have htrack : ∀ time f, WorkInv (modFb ch f (advanceTo time s)) := fun time f => (h.advance time).congr (modFb_sameWork _ _ _)
    refine WorkInv.answers (WorkInv.congr ?_ (modFb_sameWork ch _ _))
    split
    · exact feedbackOnset_work ch _ (htrack _ _)
    · exact htrack _ _

theorem switchActive_work (ch : Chan) (sw : Switch) : KeepsWork (switchActive ch sw) := by
  intro s h
  have hnoted : WorkInv (captureNoted ch sw s) := by
    obtain ⟨n, hc⟩ | hc := captureNoted_cases ch sw s <;> rw [hc]
    · exact capture_work n ch s h
    · exact h
  show WorkInv (if !homeSignal s ch sw && movingToward (s.mo.get ch).v sw then
    raiseChannel .hardLimit ch (captureNoted ch sw s) else captureNoted ch sw s)
  split
  · exact raiseChannel_work _ ch _ hnoted
  · exact hnoted

theorem execLimitFilteredChange_work (ch : Chan) (sw : Switch) (active : Bool) (h : WorkInv s) :
    AnswersWork (execLimitFilteredChange ch sw active s) := by
  unfold execLimitFilteredChange
  split
  · have hset : WorkInv (limitChanged ch sw active s) := h.congr ⟨⟨rfl, rfl, rfl, rfl⟩, rfl⟩
    refine WorkInv.answers ?_
    split
    · exact switchActive_work ch sw _ hset
    · exact hset
  · exact h.answers

theorem execProvisionalCountNoted_work (ch : Chan) (sw : Switch) (active : Bool) (h : WorkInv s) :
    AnswersWork (execProvisionalCountNoted ch sw active s) := by
  have hline : ∀ f, WorkInv (modLines ch f s) := fun f => h.congr ⟨⟨rfl, rfl, rfl, rfl⟩, rfl⟩
  unfold execProvisionalCountNoted
  split
  · refine WorkInv.answers ?_
    split
    · exact (hline _).congr (modFb_sameWork ch _ _)
    · exact hline _
  · exact h.answers

theorem execServoUpdate_work (ch : Chan) (h : WorkInv s) : AnswersWork (execServoUpdate ch s) := by
  unfold execServoUpdate
  split
  · exact h.answers
  · exact (servoUpdate_work ch _ ((h.advance _).of_modMo rfl fun _ hz => hz)).answers

theorem execPwmPeriodStart_work (ch : Chan) (h : WorkInv s) : AnswersWork (execPwmPeriodStart ch s) := by
  unfold execPwmPeriodStart
  split
  · exact WorkInv.answers (h.of_modMo rfl fun _ hz => hz)
  · exact h.answers

theorem execRunTimerExpiry_work (ch : Chan) (h : WorkInv s) : AnswersWork (execRunTimerExpiry ch s) := by
  unfold execRunTimerExpiry
  split
  · exact h.answers
  · next time _ =>
    have htimer : WorkInv (modRf ch (fun r => { r with timer := none }) (advanceTo time s)) :=
      (h.advance time).of_modRf_keeps fun _ => ⟨rfl, rfl⟩
    refine WorkInv.answers ?_
    split
    · next hin => exact failRun_work _ htimer hin
    · exact htimer

theorem execWheelStaleExpiry_work (ch : Chan) (h : WorkInv s) : AnswersWork (execWheelStaleExpiry ch s) := by
  unfold execWheelStaleExpiry
  split
  · exact h.answers
  · exact ((h.advance _).congr (modBd_sameWork _ _ _)).answers

/-! ## The commands of the frame timer and of the trunk -/

theorem execFrefArrival_work (h : WorkInv s) : AnswersWork (execFrefArrival s) := by
  unfold execFrefArrival
  split
  · have hline : WorkInv { s with lines := { s.lines with fref := true }, ft := { s.ft with frefLow := false } } :=
      h.congr ⟨⟨rfl, rfl, rfl, rfl⟩, rfl⟩
    refine WorkInv.answers ?_
    split
    · exact hline.setTimer _
    · exact frameEvent_work _ _ _ _ hline
  · exact h.answers

theorem execFrameDeadlineExpiry_work (h : WorkInv s) : AnswersWork (execFrameDeadlineExpiry s) := by
  unfold execFrameDeadlineExpiry
  split
  · exact h.answers
  · exact (frameEvent_work _ _ _ _ (h.advance _)).answers

theorem execFrameStart_work (h : WorkInv s) : AnswersWork (execFrameStart s) := by
  unfold execFrameStart
  split
  · exact (h.setTrunk _).answers
  · exact h.answers

theorem execLineQuiet_work (heard : List Bool) (h : WorkInv s) : AnswersWork (execLineQuiet heard s) := by
  unfold execLineQuiet
  split
  · exact h.answers
  · have hquiet : WorkInv (declareQuiet (advanceTo (after s.tk.lastTransition 4) s)) := (h.advance _).setTrunk _
    refine WorkInv.answers ?_
    split
    · exact receive_work heard _ hquiet
    · exact hquiet

theorem execFrameOversize_work (h : WorkInv s) : AnswersWork (execFrameOversize s) := by
  unfold execFrameOversize
  split
  · exact (h.setTrunk _).answers
  · exact h.answers

theorem execPublishTimeExpiry_work (h : WorkInv s) : AnswersWork (execPublishTimeExpiry s) := by
  unfold execPublishTimeExpiry
  split
  · exact ((h.advance _).setTrunk _).answers
  all_goals exact h.answers

theorem execWheelTimerExpiry_work (h : WorkInv s) : AnswersWork (execWheelTimerExpiry s) := by
  unfold execWheelTimerExpiry
  split
  · exact h.answers
  · exact ((h.advance _).setTrunk _).answers

theorem execSendStart_work (cls : FrameClass) (h : WorkInv s) : AnswersWork (execSendStart cls s) := by
  unfold execSendStart
  split
  · split
    · exact h.answers
    · exact WorkInv.answers (h.congr ⟨⟨rfl, rfl, rfl, rfl⟩, rfl⟩)
  · exact h.answers

theorem execSendEnd_work (others : List Bool) (h : WorkInv s) : AnswersWork (execSendEnd others s) := by
  unfold execSendEnd
  split
  · exact h.answers
  · refine WorkInv.answers (slotAfterSend_work _ _ _ ?_)
    unfold countCollision
    split
    · exact (h.advance _).setTrunk _
    · exact ((h.advance _).setTrunk _).setTrunk _

/-! ## The commands of the zone monitor, of the stop controller and of the take engine -/

theorem execPresenceFilteredChange_work (line : Fin 4) (occupied : Bool) (h : WorkInv s) :
    AnswersWork (execPresenceFilteredChange line occupied s) := by
  unfold execPresenceFilteredChange
  split
  · exact h.answers
  · exact WorkInv.answers (h.congr ⟨⟨rfl, rfl, rfl, rfl⟩, rfl⟩)

theorem execClearHoldExpiry_work (zone : Nat) (h : WorkInv s) : AnswersWork (execClearHoldExpiry zone s) := by
  unfold execClearHoldExpiry
  split
  · exact h.answers
  · exact (mapZones_work _ _ (h.advance _)).answers

theorem execZoneScan_work (h : WorkInv s) : AnswersWork (execZoneScan s) := by
  unfold execZoneScan
  split
  · exact h.answers
  · exact WorkInv.answers (zoneScan_work _ ((h.advance _).congr ⟨⟨rfl, rfl, rfl, rfl⟩, rfl⟩))

theorem execEstopFilteredChange_work (closed : Bool) (h : WorkInv s) : AnswersWork (execEstopFilteredChange closed s) := by
  unfold execEstopFilteredChange
  split
  · exact h.answers
  · have hlevel : WorkInv { s with
        sc := { s.sc with estop := { level := closed, run := 0 } }, lines := { s.lines with estop := closed } } :=
      h.congr ⟨⟨rfl, rfl, rfl, rfl⟩, rfl⟩
    refine WorkInv.answers ?_
    split
    · exact hlevel
    · exact raiseOwn_work _ _ hlevel

theorem execStopTimerExpiry_work (h : WorkInv s) : AnswersWork (execStopTimerExpiry s) := by
  unfold execStopTimerExpiry
  split
  · exact h.answers
  · next time _ =>
    have hstopped : WorkInv { advanceTo time s with sc := { (advanceTo time s).sc with stopTimer := none } } :=
      (h.advance time).setStopCtl rfl
    exact (raiseOwn_work _ _ hstopped).answers

theorem execBrakeTimerExpiry_work (h : WorkInv s) : AnswersWork (execBrakeTimerExpiry s) := by
  unfold execBrakeTimerExpiry
  split
  · exact h.answers
  · exact (enterHalted_work _ (h.advance _)).answers

theorem execReleaseTimerExpiry_work (h : WorkInv s) : AnswersWork (execReleaseTimerExpiry s) := by
  unfold execReleaseTimerExpiry
  split
  · exact h.answers
  · exact (enterRun_work _ (h.advance _)).answers

theorem execStopButtonPress_work (h : WorkInv s) : AnswersWork (execStopButtonPress s) := by
  unfold execStopButtonPress
  split
  · exact (raiseOwn_work _ _ (h.congr (t := setPressed stopPlace s) ⟨⟨rfl, rfl, rfl, rfl⟩, rfl⟩)).answers
  · exact h.answers

theorem execCheckRunCompletion_work (h : WorkInv s) : AnswersWork (execCheckRunCompletion s) := by
  unfold execCheckRunCompletion
  split
  · exact h.answers
  · next run _ =>
    have hstore : ∀ ts, WorkInv { advanceTo run.completes s with ts := ts } := fun _ =>
      (h.advance run.completes).congr ⟨⟨rfl, rfl, rfl, rfl⟩, rfl⟩
    exact (checkAnswer_work _ _ (hstore _)).answers

/-- An adopted take command. -/
theorem takeCommand_answers (serial : Byte) {f : State → State} (hf : KeepsWork f) (h : WorkInv s) :
    AnswersWork (.next (deskCommand (takeCommand serial f) s)) :=
  ((takeCommand_work serial hf).desk s h).answers

theorem execAbort_work (serial : Byte) (h : WorkInv s) : AnswersWork (execAbort serial s) :=
  ((abortRuns_work.comp (takeCommand_work serial abortTake_work)).desk s h).answers

/-! ## The commands of the desk unit -/

theorem execButtonPress_work (b : Button) (h : WorkInv s) : AnswersWork (execButtonPress b s) := by
  unfold execButtonPress
  split
  · have hpress : WorkInv (setPressed (buttonPlace b) s) := h.congr ⟨⟨rfl, rfl, rfl, rfl⟩, rfl⟩
    refine WorkInv.answers ?_
    split
    · exact publishButton_work b _ hpress
    · exact hpress.setDesk _
  · exact h.answers

theorem execReleaseKeyPress_work (h : WorkInv s) : AnswersWork (execReleaseKeyPress s) := by
  unfold execReleaseKeyPress
  split
  · exact WorkInv.answers (h.congr ⟨⟨rfl, rfl, rfl, rfl⟩, rfl⟩)
  · exact h.answers

theorem execReleaseKeyLetgo_work (h : WorkInv s) : AnswersWork (execReleaseKeyLetgo s) := by
  unfold execReleaseKeyLetgo
  split
  · exact WorkInv.answers (h.congr ⟨⟨rfl, rfl, rfl, rfl⟩, rfl⟩)
  · exact h.answers

theorem execReleaseHoldExpiry_work (h : WorkInv s) : AnswersWork (execReleaseHoldExpiry s) := by
  unfold execReleaseHoldExpiry
  split
  · exact h.answers
  · exact (((h.advance _).setDesk _).setDesk _).answers

theorem execRefusalLampExpiry_work (h : WorkInv s) : AnswersWork (execRefusalLampExpiry s) := by
  unfold execRefusalLampExpiry
  split
  · exact h.answers
  · exact ((h.advance _).setDesk _).answers

theorem execPanelScan_work (h : WorkInv s) : AnswersWork (execPanelScan s) := by
  unfold execPanelScan
  split
  · exact h.answers
  · exact (panelScan_work _ ((h.advance _).setDesk _)).answers

/-! ## Every command, and every step -/

theorem exec_work (c : Instr) (hstop : StopInv s) (h : WorkInv s) : AnswersWork (exec c s) := by
  cases c with
  | powerReset => exact (resetTo_work _ _ s h).answers
  | warmReset => exact (resetTo_work _ _ s h).answers
  | resetRelease straps => exact execResetRelease_work straps h
  | startUpFinish memory => exact execStartUpFinish_work memory hstop h
  | legalTransition ch line => exact execLegalTransition_work ch line h
  | illegalTransition ch => exact execIllegalTransition_work ch h
  | leakEvent ch => exact execLeakEvent_work ch h
  | indexRise ch => exact execIndexRise_work ch h
  | analogConversion ch reading => exact execAnalogConversion_work ch reading h
  | limitFilteredChange ch sw active => exact execLimitFilteredChange_work ch sw active h
  | servoUpdate ch => exact execServoUpdate_work ch h
  | frefArrival => exact execFrefArrival_work h
  | frameDeadlineExpiry => exact execFrameDeadlineExpiry_work h
  | frameStart => exact execFrameStart_work h
  | lineQuiet heard => exact execLineQuiet_work heard h
  | publishTimeExpiry => exact execPublishTimeExpiry_work h
  | wheelTimerExpiry => exact execWheelTimerExpiry_work h
  | sendStart cls => exact execSendStart_work cls h
  | sendEnd others => exact execSendEnd_work others h
  | wheelStaleExpiry ch => exact execWheelStaleExpiry_work ch h
  | runTimerExpiry ch => exact execRunTimerExpiry_work ch h
  | presenceFilteredChange line occupied => exact execPresenceFilteredChange_work line occupied h
  | clearHoldExpiry zone => exact execClearHoldExpiry_work zone h
  | zoneScan => exact execZoneScan_work h
  | estopFilteredChange closed => exact execEstopFilteredChange_work closed h
  | stopTimerExpiry => exact execStopTimerExpiry_work h
  | brakeTimerExpiry => exact execBrakeTimerExpiry_work h
  | releaseTimerExpiry => exact execReleaseTimerExpiry_work h
  | checkRunCompletion => exact execCheckRunCompletion_work h
  | record serial take start => exact takeCommand_answers serial (recordTake_work _ _) h
  | endTake serial => exact takeCommand_answers serial endTake_work h
  | cue serial take => exact takeCommand_answers serial (cueTake_work _) h
  | run serial take start rate length => exact takeCommand_answers serial (runTake_work _ _ _ _) h
  | abort serial => exact execAbort_work serial h
  | erase serial take => exact takeCommand_answers serial (eraseTake_work _) h
  | protect serial take => exact takeCommand_answers serial (protectTake_work _) h
  | live serial => exact takeCommand_answers serial liveOrder_work h
  | reference => exact (referenceCommand_work.desk s h).answers
  | release => exact (holdRelease_work.desk s h).answers
  | buttonPress button => exact execButtonPress_work button h
  | stopButtonPress => exact execStopButtonPress_work h
  | releaseKeyPress => exact execReleaseKeyPress_work h
  | releaseKeyLetgo => exact execReleaseKeyLetgo_work h
  | releaseHoldExpiry => exact execReleaseHoldExpiry_work h
  | refusalLampExpiry => exact execRefusalLampExpiry_work h
  | panelScan => exact execPanelScan_work h
  | pwmPeriodStart ch => exact execPwmPeriodStart_work ch h
  | provisionalCountNoted ch sw active => exact execProvisionalCountNoted_work ch sw active h
  | frameOversize => exact execFrameOversize_work h

/-- The queue is no part of either invariant. -/
theorem StopInv.setPending (h : StopInv s) (pending : List Instr) : StopInv { s with pending := pending } :=
  ⟨h.stopTimer, h.brakeTimer, h.releaseTimer, h.brakes, h.first, h.causesHigh, h.causesLow, h.beforeFinish⟩

/-- Settles O57: a step is one command, or the station's own doing on an empty queue; each keeps modes, runs and take work within the
stop state. -/
theorem workKeptToRun : Obligations.WorkKeptToRun := by
  intro s t hstop hmodes htake hstep
  have h : WorkInv s := ⟨hmodes, htake⟩
  suffices hwork : AnswersWork (step s) from ⟨(hwork t hstep).modes, (hwork t hstep).take⟩
  unfold step
  split
  · exact (idle_work s h).answers
  · exact exec_work _ (hstop.setPending _) (h.congr ⟨⟨rfl, rfl, rfl, rfl⟩, rfl⟩)

end Sys2Proof.Machine
end

section
/-! PROOFS. The limiter and the servo law (R25 to R37). -/

namespace Sys2Proof.Machine

/-! ## Clamps -/

theorem clampInt_cases (lo hi x : Int) :
    (x < lo ∧ clampInt lo hi x = lo) ∨ (lo ≤ x ∧ hi < x ∧ clampInt lo hi x = hi) ∨ (lo ≤ x ∧ x ≤ hi ∧ clampInt lo hi x = x) := by
  unfold clampInt
  split
  · next h => exact .inl ⟨h, rfl⟩
  · next hlo =>
    split
    · next h => exact .inr (.inl ⟨by omega, h, rfl⟩)
    · exact .inr (.inr ⟨by omega, by omega, rfl⟩)

/-- A clamp to an interval around 0 makes no number larger. -/
theorem clampInt_natAbs_le (bound : Nat) (x : Int) :
    (clampInt (-bound) bound x).natAbs ≤ bound ∧ (clampInt (-bound) bound x).natAbs ≤ x.natAbs := by
  obtain ⟨h, e⟩ | ⟨h, h', e⟩ | ⟨h, h', e⟩ := clampInt_cases (-bound) bound x <;> rw [e] <;> omega

/-! ## The new velocity (R26 to R30) -/

/-- Steps 2 to 7: the velocity asked for, before the acceleration limit. -/
def demandedVelocity (i : UpdateInput) (c : ChanCfg) (t p : Int) : Int :=
  let lim : Int := speedLimit i
  escape i (boundToLimits i c.amax p (boundToTarget i.point c.amax (t * 256 - p) (clampInt (-lim) lim (t * 256 - p))))

/-- Step 8: the velocity within the acceleration limit of the one before. -/
def limitedVelocity (i : UpdateInput) (c : ChanCfg) (t p v : Int) : Int :=
  clampInt (v - accelLimit i c) (v + accelLimit i c) (demandedVelocity i c t p)

theorem newVelocity_eq (i : UpdateInput) (c : ChanCfg) (t p v : Int) :
    newVelocity i c t p v = escape i (limitedVelocity i c t p v) := rfl

theorem accelLimit_eq (i : UpdateInput) (c : ChanCfg) : accelLimit i c = ((if i.stopping then c.astop else c.amax : Nat) : Int) := by
  unfold accelLimit; split <;> rfl

theorem brakingSpeed_nonneg (amax : Nat) (distance : Int) : 0 ≤ brakingSpeed amax distance := Int.natCast_nonneg _

theorem boundToTarget_natAbs_le (point : Bool) (amax : Nat) (e vd : Int) :
    (boundToTarget point amax e vd).natAbs ≤ vd.natAbs := by
  unfold boundToTarget
  split
  · exact (clampInt_natAbs_le _ vd).2
  · exact Nat.le_refl _

theorem boundToLimits_natAbs_le (i : UpdateInput) (amax : Nat) (p vd : Int) : (boundToLimits i amax p vd).natAbs ≤ vd.natAbs := by
  have hhi := brakingSpeed_nonneg amax (i.softHi * 256 - p)
  have hlo := brakingSpeed_nonneg amax (p - i.softLo * 256)
  unfold boundToLimits
  split
  · exact Nat.le_refl _
  · split
    · omega
    · split <;> omega

/-- An active switch lets no velocity toward it pass, and any other (R29). -/
theorem escape_cases (i : UpdateInput) (v : Int) :
    (((i.limPos = true ∧ 0 < v) ∨ (i.limNeg = true ∧ v < 0)) ∧ escape i v = 0) ∨
      ((i.limPos = true → v ≤ 0) ∧ (i.limNeg = true → 0 ≤ v) ∧ escape i v = v) := by
  unfold escape
  split
  · next h => exact .inl ⟨by simpa using h, rfl⟩
  · next h => exact .inr (by simpa using h)

theorem escape_natAbs_le (i : UpdateInput) (v : Int) : (escape i v).natAbs ≤ v.natAbs := by
  obtain ⟨-, e⟩ | ⟨-, -, e⟩ := escape_cases i v
  · rw [e]; exact Nat.zero_le _
  · rw [e]

theorem escape_away (i : UpdateInput) (v : Int) : (i.limPos = true → escape i v ≤ 0) ∧ (i.limNeg = true → 0 ≤ escape i v) := by
  obtain ⟨-, e⟩ | ⟨hpos, hneg, e⟩ := escape_cases i v <;> rw [e]
  · exact ⟨fun _ => Int.le_refl 0, fun _ => Int.le_refl 0⟩
  · exact ⟨hpos, hneg⟩

theorem escape_free {i : UpdateInput} (hpos : i.limPos = false) (hneg : i.limNeg = false) (v : Int) : escape i v = v := by
  simp [escape, hpos, hneg]

theorem demandedVelocity_natAbs_le (i : UpdateInput) (c : ChanCfg) (t p : Int) :
    (demandedVelocity i c t p).natAbs ≤ speedLimit i :=
  calc (demandedVelocity i c t p).natAbs
      ≤ _ := escape_natAbs_le _ _
    _ ≤ _ := boundToLimits_natAbs_le _ _ _ _
    _ ≤ _ := boundToTarget_natAbs_le _ _ _ _
    _ ≤ speedLimit i := (clampInt_natAbs_le _ _).1

/-- The velocity moves toward the one asked for, by no more than the acceleration limit (R30). -/
theorem limitedVelocity_between (i : UpdateInput) (c : ChanCfg) (t p v : Int) :
    (limitedVelocity i c t p v).natAbs ≤ max (speedLimit i) v.natAbs
      ∧ (limitedVelocity i c t p v - v).natAbs ≤ (if i.stopping then c.astop else c.amax)
      ∧ (0 < limitedVelocity i c t p v → 0 < demandedVelocity i c t p ∨ 0 < v)
      ∧ (limitedVelocity i c t p v < 0 → demandedVelocity i c t p < 0 ∨ v < 0) := by
  have hdemand := demandedVelocity_natAbs_le i c t p
  unfold limitedVelocity
  rw [accelLimit_eq]
  generalize (if i.stopping then c.astop else c.amax : Nat) = a
  obtain ⟨h, e⟩ | ⟨h, h', e⟩ | ⟨h, h', e⟩ := clampInt_cases (v - a) (v + a) (demandedVelocity i c t p) <;> rw [e] <;> omega

/-- Settles O20: the demand lies within the speed limit, the acceleration limit keeps the result between it and the velocity before, and
only an active switch ends that velocity. -/
theorem velocityBounds : Obligations.VelocityBounds := by
  intro i c t p v
  obtain ⟨hmax, hstep, htoPos, htoNeg⟩ := limitedVelocity_between i c t p v
  obtain ⟨hdemandPos, hdemandNeg⟩ := escape_away i
    (boundToLimits i c.amax p (boundToTarget i.point c.amax (t * 256 - p) (clampInt (-(speedLimit i)) (speedLimit i) (t * 256 - p))))
  have hbound : (newVelocity i c t p v).natAbs ≤ max (speedLimit i) v.natAbs := (escape_natAbs_le _ _).trans hmax
  simp only []
  refine ⟨hbound, fun hbase hcap hv => ?_, ?_, fun hpos hneg => ?_, (escape_away i _).1, (escape_away i _).2⟩
  · have hlim : speedLimit i ≤ i.base := by
      unfold speedLimit
      split
      · exact Nat.zero_le _
      · exact Nat.div_le_of_le_mul (by rw [Nat.mul_comm]; exact Nat.mul_le_mul_right _ hcap)
    omega
  · rw [newVelocity_eq]
    obtain ⟨hswitch, e⟩ | ⟨-, -, e⟩ := escape_cases i (limitedVelocity i c t p v) <;> rw [e]
    · refine .inr ⟨rfl, ?_⟩
      rcases hswitch with ⟨hactive, hv⟩ | ⟨hactive, hv⟩
      · exact .inl ⟨hactive, (htoPos hv).resolve_left (Int.not_lt.mpr (hdemandPos hactive))⟩
      · exact .inr ⟨hactive, (htoNeg hv).resolve_left (Int.not_lt.mpr (hdemandNeg hactive))⟩
    · exact .inl hstep
  · rw [newVelocity_eq, escape_free hpos hneg]
    exact hstep

/-! ## The soft limits (R31) -/

/-- The soft-limit clamp on a REFERENCED channel: it acts at a crossing of either limit and on a velocity outward beyond one, or the step is
free. -/
theorem softClamp_cases {i : UpdateInput} (href : i.ref = true) (p v : Int) :
    (∃ q, softClamp i p v = (q, 0, true)
        ∧ ((p ≤ i.softHi * 256 ∧ i.softHi * 256 < p + v ∧ q = i.softHi * 256)
          ∨ (i.softLo * 256 ≤ p ∧ p + v < i.softLo * 256 ∧ q = i.softLo * 256)
          ∨ (((i.softHi * 256 < p ∧ 0 < v) ∨ (p < i.softLo * 256 ∧ v < 0)) ∧ q = p))) ∨
      (softClamp i p v = (p + v, v, false)
        ∧ (p ≤ i.softHi * 256 → p + v ≤ i.softHi * 256) ∧ (i.softLo * 256 ≤ p → i.softLo * 256 ≤ p + v)
        ∧ (i.softHi * 256 < p → v ≤ 0) ∧ (p < i.softLo * 256 → 0 ≤ v)) := by
  simp only [softClamp, href, Bool.not_true, Bool.false_eq_true, if_false, Bool.and_eq_true, Bool.or_eq_true, decide_eq_true_eq]
  split
  · next h => exact .inl ⟨_, rfl, .inl ⟨h.1, h.2, rfl⟩⟩
  · next hhi =>
    split
    · next h => exact .inl ⟨_, rfl, .inr (.inl ⟨h.1, h.2, rfl⟩)⟩
    · next hlo =>
      split
      · next h => exact .inl ⟨_, rfl, .inr (.inr ⟨h, rfl⟩)⟩
      · next hout => exact .inr ⟨rfl, by omega, by omega, by omega, by omega⟩

theorem keepInRange_inside {p v : Int} (hlo : -549755813632 ≤ p) (hhi : p ≤ 549755813632) : keepInRange p v = (p, v) := by
  unfold keepInRange Config.maxCount
  rw [if_neg (by omega), if_neg (by omega)]

/-- The record of a REFERENCED channel whose limits and setpoint are counts: the soft-limit clamp decides P′, v′ and SOFT_LIMIT. -/
theorem limiter_eq {i : UpdateInput} {c : ChanCfg} {m : Motion} {w p v : Int} {acted : Bool}
    (hw : newVelocity i c (clampTarget i) m.p m.v = w) (hstep : softClamp i m.p w = (p, v, acted))
    (hlo : -549755813632 ≤ p) (hhi : p ≤ 549755813632) :
    (limiter i c m).p = p ∧ (limiter i c m).v = v ∧ (limiter i c m).softLimit = softLimitFlag i acted m.softLimit p := by
  simp only [limiter, hw, hstep, keepInRange_inside hlo hhi]
  exact ⟨trivial, trivial, trivial⟩

theorem softLimitFlag_acted (i : UpdateInput) (was : Bool) (p : Int) : softLimitFlag i true was p = true := by simp [softLimitFlag]

theorem softLimitFlag_kept (i : UpdateInput) (was : Bool) (p : Int) :
    softLimitFlag i false was p = true ↔ was = true ∧ (p ≤ i.softLo * 256 ∨ i.softHi * 256 ≤ p) := by
  simp only [softLimitFlag, Bool.false_or, Bool.and_eq_true, Bool.not_eq_true', Bool.and_eq_false_iff, decide_eq_false_iff_not,
    Int.not_lt]

/-- Settles O22: the clamp to either limit, the stand beyond one, or the free step. -/
theorem softLimitsHold : Obligations.SoftLimitsHold := by
  intro i c m href horder hlo hhi hpLo hpHi
  simp only [Config.maxCount] at hlo hhi hpLo hpHi
  simp only []
  generalize hv : newVelocity i c (clampTarget i) m.p m.v = v
  have hlimits : i.softLo * 256 < i.softHi * 256 := by omega
  obtain ⟨q, hstep, hq⟩ | ⟨hstep, hup, hdown, hbeyond, hbelow⟩ := softClamp_cases href m.p v
  case inl =>
    obtain ⟨ep, ev, es⟩ := limiter_eq hv hstep (by omega) (by omega)
    simp only [ep, ev, es, softLimitFlag_acted, Bool.true_eq_false, and_true, implies_true]
    refine ⟨?_, ?_, ?_, ?_, ?_, ?_, ?_, ?_, ?_, ?_, ?_⟩ <;> omega
  case inr =>
    obtain ⟨ep, ev, es⟩ := limiter_eq hv hstep (by omega) (by omega)
    rw [ep, ev, es]
    have hflag := softLimitFlag_kept i m.softLimit (m.p + v)
    refine ⟨fun h h' => ⟨hdown h, hup h'⟩, by omega, by omega, fun _ _ => by omega, fun _ _ => by omega, fun _ _ => by omega,
      fun _ _ => by omega, fun _ _ _ => ⟨rfl, rfl⟩, fun _ _ _ => ⟨rfl, rfl⟩, fun _ _ _ _ => ⟨rfl, rfl⟩,
      fun _ _ => Bool.eq_false_iff.mpr fun h => ?_, fun h h' => hflag.mpr ⟨h, h'⟩⟩
    obtain ⟨-, hend⟩ := hflag.mp h
    omega

/-! ## The stopping distance (R32) -/

/-- A quotient rounded up is the least number whose product with the divisor reaches the dividend. -/
theorem ceilDiv_le_iff {n d k : Nat} (hd : 0 < d) : ceilDiv n d ≤ k ↔ n ≤ d * k := ceilDiv_le_iff_le_mul (b := n) hd

/-- Settles O23: the distance is a quotient rounded up, saturating. -/
theorem stoppingDistanceIsCeiling : Obligations.StoppingDistanceIsCeiling := by
  intro astop v hastop
  have hd : 0 < 2 * astop * 256 := by omega
  have hceil : ∀ k, ceilDiv (v.natAbs * v.natAbs) (2 * astop * 256) ≤ k ↔ v.natAbs * v.natAbs ≤ k * (2 * astop * 256) :=
    fun k => by rw [ceilDiv_le_iff hd, Nat.mul_comm k]
  simp only [stoppingDistance]
  refine ⟨Nat.min_le_left _ _, fun hlt => (hceil _).mp (by omega), fun hpos => ?_, ?_⟩
  · have hless := mt (hceil (min 2147483647 (ceilDiv (v.natAbs * v.natAbs) (2 * astop * 256)) - 1)).mpr (by omega)
    omega
  · rintro rfl
    have hzero := (hceil 0).mpr (by simp)
    omega

/-! ## The servo law (R33 to R36) -/

theorem driveValue_natAbs_le (i : UpdateInput) (c : ChanCfg) (acc : Int) : (driveValue i c acc).natAbs ≤ 32767 := by
  have hclamp := (clampInt_natAbs_le 32767 (rawDrive c acc)).1
  simp only [driveValue]
  split
  · exact (clampInt_natAbs_le c.refDrive _).2.trans hclamp
  · exact hclamp

/-- The drive value stays within ±ref_drive in an END_STOPS run. -/
theorem driveValue_endStops {i : UpdateInput} (h : i.endStops = true) (c : ChanCfg) (acc : Int) :
    (driveValue i c acc).natAbs ≤ c.refDrive := by
  simp only [driveValue, h, if_true]
  exact (clampInt_natAbs_le c.refDrive _).1

/-- The high width leaves the output low for at least a unit of a period (R36). -/
theorem highWidth_lt {period : Nat} {u : Int} (hu : u.natAbs ≤ 32767) (hperiod : 0 < period) : highWidth period u < period := by
  unfold highWidth
  rw [Nat.div_lt_iff_lt_mul (by decide)]
  have := Nat.mul_le_mul_right period hu
  omega

/-- The error has turned against the drive: their product is below 0 (R35). -/
theorem against_iff (a u : Int) : a * u < 0 ↔ (a < 0 ∧ 0 < u) ∨ (0 < a ∧ u < 0) := by
  rw [mul_neg_iff, or_comm]

theorem nextIntegrator_takes {c : ChanCfg} {saturated : Bool} {ep u : Int} (integ : Int)
    (h : saturated = false ∨ c.ki * ep * u < 0) :
    nextIntegrator c saturated ep u integ = clampInt (-c.imax) c.imax (integ + c.ki * ep) := by
  rcases h with h | h <;> simp [nextIntegrator, h]

theorem nextIntegrator_stays {c : ChanCfg} {saturated : Bool} {ep u : Int} (integ : Int)
    (h : saturated = true) (hturn : ¬c.ki * ep * u < 0) : nextIntegrator c saturated ep u integ = integ := by
  simp [nextIntegrator, h, hturn]

/-- The integrator stays within ±Imax. -/
theorem nextIntegrator_natAbs_le {c : ChanCfg} {saturated : Bool} {ep u integ : Int} (h : integ.natAbs ≤ c.imax) :
    (nextIntegrator c saturated ep u integ).natAbs ≤ c.imax := by
  unfold nextIntegrator
  split
  · exact (clampInt_natAbs_le c.imax _).1
  · exact h

/-- A drive within ±ref_drive of an END_STOPS run is the raw value clamped once. -/
theorem driveValue_once {i : UpdateInput} {c : ChanCfg} (h : i.endStops = true) (hdrive : c.refDrive ≤ 32767) (acc : Int) :
    driveValue i c acc = clampInt (-c.refDrive) c.refDrive (rawDrive c acc) := by
  simp only [driveValue, h, if_true]
  unfold clampInt
  split_ifs <;> omega

/-- Settles O24: the drive value and its width, the integrator's two cases, and the saturating position error. -/
theorem servoLawBounds : Obligations.ServoLawBounds := by
  intro i c m
  have hraw : rawDrive c (servoSum c (positionError m.p i.x) m.integ m.v)
      = floorDiv (c.kp * positionError m.p i.x + m.integ + floorDiv (c.kf * m.v) 256) (2 ^ c.sh) := rfl
  simp only [servoLaw, ← hraw]
  generalize hacc : servoSum c (positionError m.p i.x) m.integ m.v = acc
  have hbound := driveValue_natAbs_le i c acc
  refine ⟨by omega, by omega, fun hend => ?_, fun hend => ?_, fun hend hdrive => driveValue_once hend hdrive acc, ?_, rfl,
    fun hperiod => highWidth_lt hbound hperiod, fun hu => ?_, by simp, fun hlo hhi => ?_, fun htakes => ?_,
    fun hsat hturn => ?_, ?_, ?_⟩
  · have := driveValue_endStops hend c acc
    omega
  · simp only [driveValue, hend, Bool.false_eq_true, if_false, clampInt]
  · simp
  · simp [highWidth, hu]
  · have := nextIntegrator_natAbs_le (saturated := decide (driveValue i c acc ≠ rawDrive c acc))
      (ep := positionError m.p i.x) (u := driveValue i c acc) (integ := m.integ) (c := c) (by omega)
    omega
  · rw [nextIntegrator_takes m.integ (htakes.imp_right (against_iff _ _).mpr)]
    unfold clampInt
    split_ifs <;> omega
  · exact nextIntegrator_stays m.integ hsat (fun hneg => hturn ((against_iff _ _).mp hneg))
  · simp only [positionError, clampInt, wholeCounts, Config.maxCount]
    split_ifs <;> omega
  · simp [followingNow]

/-! ## PWM (R36, R37) -/

/-- Settles O25: what was handed over is taken, on an AXIS channel; another channel has no output. -/
theorem pwmPeriodTakesWidths : Obligations.PwmPeriodTakesWidths := by
  intro ch s hstarted
  refine ⟨fun haxis => ⟨modMo ch (startPeriod (chanCfg s ch).pwmPeriod) s, ?_, ?_, ?_⟩, fun haxis => ⟨?_, ?_, ?_⟩⟩
  · show execPwmPeriodStart ch s = _
    simp [execPwmPeriodStart, hstarted, haxis]
  · rw [modMo_get]; rfl
  · rw [modMo_get]; exact Nat.sub_le _ _
  · show execPwmPeriodStart ch s = _
    simp [execPwmPeriodStart, haxis]
  · simp [pwmLevel, haxis]
  · simp [dirLevel, haxis]

end Sys2Proof.Machine
end

section
/-! PROOFS. The finish (R178, R180). -/

namespace Sys2Proof.Machine

/-- The station as the finish finds it: the image read into the buffer, the clock at the end of the read (R178). -/
def imageRead (memory : Option (List Byte)) (s : State) : State :=
  advanceTo (after 0 (readTime memory)) { s with su := { s.su with buffer := readBuffer memory } }

theorem exec_startUpFinish {s : State} (memory : Option (List Byte)) (h : s.su.phase = .reading) :
    exec (.startUpFinish memory) s =
      .next (if imageOk s.su.station.toNat (readBuffer memory) then
        finishValid (imageCfg (readBuffer memory)) (imageZones (readBuffer memory)) (imageRead memory s)
      else finishInvalid (imageRead memory s)) := if_pos h

/-- The read moves the clock and fills the buffer. -/
theorem imageRead_eq (memory : Option (List Byte)) (s : State) :
    imageRead memory s =
      { s with clock := (imageRead memory s).clock, su := { s.su with buffer := readBuffer memory } } := by
  unfold imageRead; rw [advanceTo_eq]

/-- A zone begins IDLE with its record of the image (R109). -/
theorem freshZone_cfg (now : Word) (station : Nat) (presence : List Filt) (c : ZoneCfg) :
    (freshZone now station presence c).cfg = c ∧ (freshZone now station presence c).status = .idle := by
  unfold freshZone
  simp only []
  split
  · exact ⟨rfl, rfl⟩
  · split <;> exact ⟨rfl, rfl⟩

theorem finishZones_spec (c : Cfg) (zones : List ZoneCfg) (s : State) :
    (finishZones c zones s).zones.map (fun z => z.cfg) = zones ∧ ∀ z ∈ (finishZones c zones s).zones, z.status = .idle := by
  simp only [finishZones, List.map_map]
  refine ⟨?_, fun z hz => ?_⟩
  · exact (List.map_congr_left fun z _ => (freshZone_cfg _ _ _ z).1).trans (List.map_id _)
  · obtain ⟨zc, -, rfl⟩ := List.mem_map.mp hz
    exact (freshZone_cfg _ _ _ zc).2

theorem finishFeedback_x (now : Word) (c : ChanCfg) (l : ChanLines) (f : Feedback) : (finishFeedback now c l f).x = f.x := by
  simp only [finishFeedback]
  repeat' split
  all_goals rfl

/-- What the finish makes of each channel (R18, R41). -/
theorem finishValid_channel (c : Cfg) (zones : List ZoneCfg) (s : State) (ch : Chan) :
    (finishValid c zones s).mo.get ch = finishMotion s.clock (c.chans.get ch) (s.mo.get ch)
      ∧ (finishValid c zones s).rf.get ch = finishReference (c.chans.get ch) (s.rf.get ch)
      ∧ (finishValid c zones s).fb.get ch = finishFeedback s.clock (c.chans.get ch) (s.lines.chans.get ch) (s.fb.get ch) :=
  ⟨zip3_get _ _ _ _ ch, zip3_get _ _ _ _ ch, zip3_get _ _ _ _ ch⟩

/-- Settles O6: the two finishes, field by field. -/
theorem finishTakesTheImage : Obligations.FinishTakesTheImage := by
  refine ⟨fun memory s hphase himage => ?invalid, fun memory s hphase himage => ?valid⟩
  case invalid =>
    refine ⟨finishInvalid (imageRead memory s), by rw [exec_startUpFinish memory hphase, himage]; rfl, ?_⟩
    rw [imageRead_eq]
    exact ⟨rfl, rfl, rfl, ⟨rfl, rfl⟩, rfl, rfl, rfl, rfl, rfl, rfl, rfl, rfl, rfl, rfl, rfl⟩
  case valid =>
    refine ⟨finishValid (imageCfg (readBuffer memory)) (imageZones (readBuffer memory)) (imageRead memory s),
      by rw [exec_startUpFinish memory hphase, himage]; rfl, ?_⟩
    rw [imageRead_eq]
    obtain ⟨hzones, hidle⟩ := finishZones_spec (imageCfg (readBuffer memory)) (imageZones (readBuffer memory))
      { s with clock := (imageRead memory s).clock, su := { s.su with buffer := readBuffer memory } }
    refine ⟨rfl, rfl, rfl, hzones, hidle, rfl, fun ch haxis => ?_, fun ch => ?_, fun ch haxis habs => ?_, rfl, rfl, ?_,
      rfl, rfl, rfl, rfl⟩
    · have hkind : ((imageCfg (readBuffer memory)).chans.get ch).kind = .axis  := of_decide_eq_true haxis
      rw [(finishValid_channel _ _ _ ch).1, finishMotion, if_pos hkind]
      rfl
    · obtain ⟨hmo, -, hfb⟩ := finishValid_channel (imageCfg (readBuffer memory)) (imageZones (readBuffer memory))
        { s with clock := (imageRead memory s).clock, su := { s.su with buffer := readBuffer memory } } ch
      rw [hmo, hfb, finishFeedback_x]
      refine ⟨?_, rfl⟩
      unfold finishMotion
      split <;> rfl
    · have hkind : (decide (((imageCfg (readBuffer memory)).chans.get ch).kind = .axis)
          && decide (((imageCfg (readBuffer memory)).chans.get ch).refKind = .absolute)) = true := by
        rw [Bool.and_eq_true]; exact ⟨haxis, decide_eq_true habs⟩
      rw [(finishValid_channel _ _ _ ch).2.1, finishReference, if_pos hkind]
      exact ⟨rfl, rfl, rfl⟩
    · exact (Bool.decide_and _ _).symm

end Sys2Proof.Machine
end

section
/-! PROOFS. A servo update as an event: its preparation, and what takes its record (R18, R24, R33, R39). -/

namespace Sys2Proof.Machine

/-! ## The preparation of an update outside a run -/

/-- The station at the update's time, with the next update set (R18). -/
def timed (ch : Chan) (time : Word) (s : State) : State :=
  modMo ch (fun m => { m with nextUpdate := some (after time 1000) }) (advanceTo time s)

theorem exec_servoUpdate {ch : Chan} {time : Word} {s : State} (h : (s.mo.get ch).nextUpdate = some time) :
    exec (.servoUpdate ch) s = .next (servoUpdate ch (timed ch time s)) := by
  show execServoUpdate ch s = _
  simp only [execServoUpdate, h]
  rfl

/-- The station as the limiter finds it. -/
def prepared (ch : Chan) (s : State) : State := noteMapClamped ch (beforeUpdate ch (refreshLocal ch s))

/-- The station with an update's record written. -/
def recorded (ch : Chan) (s : State) : State := modMo ch (updateRecord (updateInput s ch) (chanCfg s ch)) s

/-- What takes the record of an update (R33, R45, R158, R163), in a free order. -/
def recordTakers (onset : Bool) (ch : Chan) : List (State → State) := [followingOnset onset ch, afterUpdate ch, takeAfterUpdate ch]

/-- An onset of the following condition by an update's record (R33). -/
def onsetIn (ch : Chan) (s : State) : Bool := ((recorded ch s).mo.get ch).following && !(s.mo.get ch).following

theorem servoUpdate_eq (ch : Chan) (s : State) :
    servoUpdate ch s =
      velocityReport (inAnyOrder (recordTakers (onsetIn ch (prepared ch s)) ch) (recorded ch (prepared ch s))) := rfl

/-- A local wheel value and MAP_CLAMPED change the channel's source record alone (R51, R53). -/
theorem refreshLocal_frame (ch : Chan) (s : State) :
    refreshLocal ch s = modBd ch (fun _ => (refreshLocal ch s).bd.get ch) s := by
  unfold refreshLocal
  split
  · split
    · split
      · rw [modBd_get]; rfl
      · cases ch <;> rfl
    · cases ch <;> rfl
  · cases ch <;> rfl

theorem noteMapClamped_frame (ch : Chan) (s : State) :
    noteMapClamped ch s = modBd ch (fun _ => (noteMapClamped ch s).bd.get ch) s := by
  unfold noteMapClamped
  simp only []
  split <;> (rw [modBd_get]; rfl)

theorem turnBackOff_idle {ch : Chan} {s : State} (h : inRun (s.rf.get ch) = false) : turnBackOff ch s = s := by
  have hstate : (s.rf.get ch).state ≠ .search1 := fun hs => by simp [inRun, hs] at h
  simp [turnBackOff, hstate]

/-- Outside a run and with no offset pending the sequencer only makes a noted realignment before an update. -/
theorem beforeUpdate_idle {ch : Chan} {s : State} (hoffset : (s.rf.get ch).offset = none) (hrun : inRun (s.rf.get ch) = false) :
    beforeUpdate ch s = realign ch s := by
  rw [beforeUpdate, turnBackOff_idle hrun, applyOffset_none hoffset]

/-- Outside a run the sequencer takes no record. -/
theorem afterUpdate_idle {ch : Chan} {s : State} (h : inRun (s.rf.get ch) = false) : afterUpdate ch s = s := by
  have hstate : (s.rf.get ch).state ≠ .parking ∧ (s.rf.get ch).state ≠ .search1 ∧ (s.rf.get ch).state ≠ .search2 := by
    refine ⟨?_, ?_, ?_⟩ <;> exact fun hs => by simp [inRun, hs] at h
  rw [afterUpdate_searching hstate.1]
  simp [stallCheck, hstate]

/-- The take engine takes records in CUEING and PLAYING alone. -/
theorem takeAfterUpdate_other {ch : Chan} {s : State} (hcue : s.te.phase ≠ .cueing) (hplay : s.te.phase ≠ .playing) :
    takeAfterUpdate ch s = s := by
  unfold takeAfterUpdate
  split <;> simp_all

theorem takeAfterUpdate_rf (ch : Chan) (s : State) : (takeAfterUpdate ch s).rf = s.rf := by
  unfold takeAfterUpdate
  split
  · simp only []
    split
    · exact enterCued_rf _
    · rfl
  · split <;> rfl
  all_goals rfl

/-- With no onset and no run, an update's record is taken by the take engine alone. -/
theorem recordTakers_noOnset {ch : Chan} {s : State} (hrun : inRun (s.rf.get ch) = false) :
    ∃ order draws, inAnyOrder (recordTakers false ch) s = takeAfterUpdate ch (reordered order draws s) := by
  refine inAnyOrder_of_one (fun t => inRun (t.rf.get ch) = false) (takeAfterUpdate ch) [followingOnset false ch, afterUpdate ch] [] s
    (fun _ _ _ h => h) (fun f hf t ht => ?_) (fun t ht => ?_) hrun
  · simp only [List.append_nil, List.mem_cons, List.not_mem_nil, or_false] at hf
    rcases hf with rfl | rfl
    · rfl
    · exact afterUpdate_idle ht
  · rw [takeAfterUpdate_rf]; exact ht

/-- Every enabled channel is at rest (R39, R122). -/
theorem allAtRest_iff (s : State) :
    allAtRest s = true ↔ ∀ k, isAxis s k = true → (s.mo.get k).mode ≠ .off → (s.mo.get k).v = 0 := by
  have hlist : ∀ k, k ∈ Chan.list := fun k => by cases k <;> decide
  simp only [allAtRest, List.all_eq_true, atRest, Bool.or_eq_true, Bool.not_eq_true', decide_eq_true_eq, hlist, forall_const]
  refine forall_congr' fun k => ?_
  cases isAxis s k <;> simp [Classical.or_iff_not_imp_left]

theorem modBd_modBd (ch : Chan) (f g : Binding → Binding) (s : State) :
    modBd ch f (modBd ch g s) = modBd ch (fun b => f (g b)) s := by
  simp [modBd]

/-- Outside a run, with nothing noted for it, an update's preparation changes the channel's source record alone. -/
theorem prepared_frame {ch : Chan} {s : State} (hoffset : (s.rf.get ch).offset = none) (hrun : inRun (s.rf.get ch) = false)
    (hrealign : (s.rf.get ch).realign = false ∨ (s.mo.get ch).mode = .off) :
    prepared ch s = noteMapClamped ch (refreshLocal ch s) := by
  have hframe := refreshLocal_frame ch s
  have hrf : (refreshLocal ch s).rf = s.rf := by rw [hframe]; rfl
  have hmo : (refreshLocal ch s).mo = s.mo := by rw [hframe]; rfl
  rw [prepared, beforeUpdate_idle (by rwa [hrf]) (by rwa [hrf]), realign_waits (by rwa [hrf, hmo])]

/-- The source record of a channel after an update's preparation outside a run (R51, R53). -/
theorem noteMapClamped_refreshLocal_frame (ch : Chan) (s : State) :
    noteMapClamped ch (refreshLocal ch s) = modBd ch (fun _ => (noteMapClamped ch (refreshLocal ch s)).bd.get ch) s := by
  have hnote := noteMapClamped_frame ch (refreshLocal ch s)
  generalize (noteMapClamped ch (refreshLocal ch s)).bd.get ch = b at hnote ⊢
  rw [hnote, refreshLocal_frame, modBd_modBd]

/-! ## Updates in OFF (R24) -/

theorem timed_eq (ch : Chan) (time : Word) (s : State) :
    timed ch time s =
      { s with
        clock := (timed ch time s).clock, mo := s.mo.set ch { s.mo.get ch with nextUpdate := some (after time 1000) } } := by
  unfold timed; rw [advanceTo_eq]; rfl

/-- The station after an update whose preparation has changed the source record alone: the record of that channel, before anything takes
it. -/
theorem recorded_frame {ch : Chan} {time : Word} {s u : State} {b : Binding} (hu : u = modBd ch (fun _ => b) (timed ch time s)) :
    recorded ch u =
      { s with
        clock := u.clock, bd := s.bd.set ch b
        mo := s.mo.set ch (updateRecord (updateInput u ch) (chanCfg s ch)
          { s.mo.get ch with nextUpdate := some (after time 1000) }) } := by
  have hcfg : chanCfg u ch = chanCfg s ch := by rw [hu, timed_eq]; rfl
  rw [recorded, hcfg]
  generalize updateInput u ch = i
  rw [hu, timed_eq]
  simp [modMo, modBd]

/-- An update with no onset, outside a run: the take engine takes the record, and the velocity is reported. -/
theorem servoUpdate_noOnset {ch : Chan} {s : State} (honset : onsetIn ch (prepared ch s) = false)
    (hrun : inRun ((prepared ch s).rf.get ch) = false) :
    ∃ order draws, servoUpdate ch s =
      velocityReport (takeAfterUpdate ch (reordered order draws (recorded ch (prepared ch s)))) := by
  obtain ⟨o, d, htakers⟩ := recordTakers_noOnset (s := recorded ch (prepared ch s)) hrun
  exact ⟨o, d, by rw [servoUpdate_eq, honset, htakers]⟩

/-- The velocity report does nothing while a channel moves (R122). -/
theorem velocityReport_moving {s : State}
    (h : s.sc.state = .stopping → ∃ k, isAxis s k = true ∧ (s.mo.get k).mode ≠ .off ∧ (s.mo.get k).v ≠ 0) :
    velocityReport s = s := by
  obtain ⟨hr, -⟩ | ⟨-, hstate, hrest⟩ := velocityReport_cases s
  · exact hr
  · obtain ⟨k, haxis, hmode, hv⟩ := h hstate
    exact absurd ((allAtRest_iff s).mp hrest k haxis hmode) hv

/-- Settles O18: nothing is prepared but the source record, the record follows X, and nothing takes it. -/
theorem offUpdateTracks : Obligations.OffUpdateTracks := by
  intro ch time s hnext hmode hmoving hphase hoffset hrun
  have hrf : (timed ch time s).rf = s.rf := by rw [timed_eq]
  have hmo : (timed ch time s).mo.get ch = { s.mo.get ch with nextUpdate := some (after time 1000) } := by
    rw [timed_eq]; exact PerChan.get_set _ _ _
  have hprep := (prepared_frame (s := timed ch time s) (by rwa [hrf]) (by rwa [hrf]) (.inr (by rw [hmo]; exact hmode))).trans
    (noteMapClamped_refreshLocal_frame _ _)
  generalize hu : prepared ch (timed ch time s) = u at hprep
  have hrec := recorded_frame hprep
  have hinput : (updateInput u ch).x = (s.fb.get ch).x ∧ (updateInput u ch).cap = s.zm.caps.get ch := by
    rw [hprep, timed_eq]; exact ⟨rfl, rfl⟩
  rw [updateRecord_off _ _ (m := { s.mo.get ch with nextUpdate := some (after time 1000) }) hmode] at hrec
  have honset : onsetIn ch u = false := by
    rw [onsetIn, hrec, PerChan.get_set]; rfl
  obtain ⟨o, d, hupdate⟩ := servoUpdate_noOnset (ch := ch) (s := timed ch time s) (by rwa [hu])
    (by rw [hu, hprep, timed_eq]; exact hrun)
  rw [hu, hrec] at hupdate
  generalize updateInput u ch = i at hinput hupdate
  obtain ⟨hx, hcap⟩ := hinput
  rw [takeAfterUpdate_idle (by exact hphase), velocityReport_moving] at hupdate
  · refine ⟨_, (exec_servoUpdate hnext).trans (congrArg _ hupdate), ?_, ?_, rfl, rfl, rfl, rfl, rfl, rfl, rfl, rfl, rfl, rfl⟩
    · simp [reordered, trackOff, hmode, hx, hcap]
    · exact fun c hc => PerChan.get_set_ne _ _ _ _ hc
  · intro hstate
    obtain ⟨k, haxis, hk, hv⟩ := hmoving hstate
    have hne : k ≠ ch := fun he => hk (he ▸ hmode)
    refine ⟨k, haxis, ?_⟩
    show ((s.mo.set ch _).get k).mode ≠ _ ∧ ((s.mo.set ch _).get k).v ≠ _
    rw [PerChan.get_set_ne _ _ _ _ hne]
    exact ⟨hk, hv⟩

end Sys2Proof.Machine
end

section
/-! PROOFS. The record of a servo update in HOLD, LIVE, CUE and PLAY, and what the take engine does with it (R18, R20, R51, R53, R54,
R157, R158, R162, R163). -/

namespace Sys2Proof.Machine

/-! ## The target of each mode (R20, R53, R54, R157, R162) -/

section
variable {ch : Chan} {s : State}

theorem updateInput_hold (hmode : (s.mo.get ch).mode = .hold) :
    (updateInput s ch).target = (s.mo.get ch).hold ∧ (updateInput s ch).base = (chanCfg s ch).vmax
      ∧ (updateInput s ch).point = true := by
  simp [updateInput, rawTarget, speedBase, pointTarget, hmode]

theorem updateInput_liveMap (hmode : (s.mo.get ch).mode = .live) (hbind : (chanCfg s ch).bindKind = .map) :
    (updateInput s ch).base = (chanCfg s ch).vmax ∧ (updateInput s ch).point = true
      ∧ (updateInput s ch).target = (mapTarget (chanCfg s ch) (s.bd.get ch) (s.rf.get ch) (s.mo.get ch).p).1 := by
  simp [updateInput, rawTarget, speedBase, pointTarget, hmode, hbind]

theorem updateInput_liveRate (hmode : (s.mo.get ch).mode = .live) (hbind : (chanCfg s ch).bindKind = .rate) :
    (updateInput s ch).base = (chanCfg s ch).vmax ∧ (updateInput s ch).point = false
      ∧ (updateInput s ch).target = rateTarget (chanCfg s ch) (s.bd.get ch) (s.mo.get ch).p := by
  simp [updateInput, rawTarget, speedBase, pointTarget, hmode, hbind]

theorem updateInput_cue (hmode : (s.mo.get ch).mode = .cue) :
    (updateInput s ch).base = (chanCfg s ch).vmax * s.cfg.cuePercent / 100 ∧ (updateInput s ch).point = true
      ∧ (updateInput s ch).target = cueTarget s ch := by
  simp [updateInput, rawTarget, speedBase, pointTarget, hmode]

theorem updateInput_play (hmode : (s.mo.get ch).mode = .play) :
    (updateInput s ch).base = (chanCfg s ch).vmax ∧ (updateInput s ch).point = false
      ∧ (updateInput s ch).target = playTarget s ch := by
  simp [updateInput, rawTarget, speedBase, pointTarget, hmode]

end

theorem mapTarget_eq (c : ChanCfg) (b : Binding) (r : Reference) (p : Int) :
    (mapTarget c b r p).1 = match b.held with
      | none => floorDiv p 256
      | some w => r.softLo + floorDiv ((mapRing c.points w).1 * (r.softHi - r.softLo)) 65535 := by
  unfold mapTarget
  cases b.held <;> rfl

section
variable {c : ChanCfg} {b : Binding} {p w : Int}

theorem rateTarget_zero (h : (if b.fresh then (b.held.map (deflection c.center c.deadband)).getD 0 else 0) = 0) :
    rateTarget c b p = floorDiv p 256 := by
  simp [rateTarget, h, wholeCounts, floorDiv]

/-- A stale source moves no target (R54). -/
theorem rateTarget_stale (hfresh : b.fresh = false) : rateTarget c b p = floorDiv p 256 :=
  rateTarget_zero (by simp [hfresh])

/-- The three ranges of a wheel value about the center (R54). -/
theorem deflection_cases (center : Int) (deadband : Nat) (w : Int) :
    ((w - center).natAbs ≤ deadband → deflection center deadband w = 0)
      ∧ ((deadband : Int) < w - center → deflection center deadband w = w - center - deadband)
      ∧ (w - center < -(deadband : Int) → deflection center deadband w = w - center + deadband) := by
  simp only [deflection, Bool.and_eq_true, decide_eq_true_eq]
  refine ⟨fun h => if_pos (by omega), fun h => ?_, fun h => ?_⟩
  · rw [if_neg (by omega), if_pos (by omega)]
  · rw [if_neg (by omega), if_neg (by omega)]

/-- The RATE target of a fresh source in the three ranges (R54). -/
theorem rateTarget_fresh (hfresh : b.fresh = true) (hheld : b.held = some w) :
    ((w - c.center).natAbs ≤ c.deadband → rateTarget c b p = floorDiv p 256)
      ∧ ((c.deadband : Int) < w - c.center →
          rateTarget c b p = floorDiv p 256 + floorDiv ((w - c.center - c.deadband) * c.gain) 256)
      ∧ (w - c.center < -(c.deadband : Int) →
          rateTarget c b p = floorDiv p 256 + floorDiv ((w - c.center + c.deadband) * c.gain) 256) := by
  obtain ⟨hwithin, habove, hbelow⟩ := deflection_cases c.center c.deadband w
  have htarget : rateTarget c b p = floorDiv p 256 + floorDiv (deflection c.center c.deadband w * c.gain) 256 := by
    simp [rateTarget, hfresh, hheld, wholeCounts]
  refine ⟨fun h => ?_, fun h => by rw [htarget, habove h], fun h => by rw [htarget, hbelow h]⟩
  rw [htarget, hwithin h]
  simp [floorDiv]

end

theorem cueTarget_eq {ch : Chan} {s : State} {e : Entry} (h : lookupTake s.ts.dir s.te.take = some e) :
    cueTarget s ch =
      if e.normalized.get ch then
        (s.rf.get ch).softLo
          + floorDiv ((slotRead s.ts.slots (sampleSlot e 0 ch)).toNat * ((s.rf.get ch).softHi - (s.rf.get ch).softLo)) 65535
      else (slotRead s.ts.slots (sampleSlot e 0 ch)).toInt := by
  have hread : sampleRead s.ts e 0 ch = slotRead s.ts.slots (sampleSlot e 0 ch) := by
    have hfirst : (if 0 < e.length then 0 else e.length - 1) = 0 := by split <;> omega
    rw [sampleRead, hfirst]
  simp only [cueTarget, takeCounts, takeNormalized, takeSample, h, hread, sampleValue, countOfRing, Option.map_some, Option.getD_some]
  split <;> rfl

theorem elapsed_self (now : Word) : elapsed now now = 0 := by simp [elapsed]

theorem playTarget_eq (s : State) (ch : Chan) :
    playTarget s ch =
      (let elapsedUs := match s.ft.lastEvent with | some event => elapsed s.clock event | none => 0
       let period := if s.ft.lock = .locked then s.ft.period else Config.nominalPeriod s.cfg.frameRate
       let tauNow := s.te.tau + s.te.rate * 256 * min 65535 (elapsedUs * 65536 / period) / 65536
       let k := tauNow / 65536
       let a := takeSample s k ch
       takeCounts s ch
         (if s.te.playLen ≤ k + 1 then takeSample s (s.te.playLen - 1) ch
          else a + floorDiv ((takeSample s (k + 1) ch - a) * (tauNow - k * 65536 : Nat)) 65536)) := by
  unfold playTarget
  cases h : s.ft.lastEvent with
  | none => simp only [Option.getD_none, elapsed_self]; rfl
  | some event => rfl

/-! ## A binding to a wheel of the own station (R51) -/

/-- A wheel of the own station that a channel is bound to. -/
def OwnWheel (s : State) (ch src : Chan) : Prop :=
  (chanCfg s ch).bindKind ≠ .none ∧ (chanCfg s ch).srcStation = s.su.station.toNat
    ∧ Chan.ofNumber? (chanCfg s ch).srcChannel = some src ∧ isWheel s src = true

section
variable {ch src : Chan} {s : State}

theorem refreshLocal_own (haxis : isAxis s ch = true) (h : OwnWheel s ch src) :
    refreshLocal ch s = modBd ch (fun b => { b with held := some (publishedWheel (s.fb.get src)), fresh := true }) s := by
  obtain ⟨hbind, hstation, hsrc, hwheel⟩ := h
  simp [refreshLocal, boundTo, haxis, hbind, hstation, hsrc, hwheel]

theorem refreshLocal_other (h : ∀ src, ¬OwnWheel s ch src) : refreshLocal ch s = s := by
  unfold refreshLocal
  split
  · next hbound =>
    split
    · next src hsrc =>
      split
      · next hwheel => exact absurd ⟨by simp_all [boundTo], by simp_all [boundTo], hsrc, hwheel⟩ (h src)
      · rfl
    · rfl
  · rfl

/-- A local wheel value leaves the rest of the source record. -/
theorem refreshLocal_bd (haxis : isAxis s ch = true) :
    (refreshLocal ch s).bd.get ch =
      { s.bd.get ch with held := ((refreshLocal ch s).bd.get ch).held, fresh := ((refreshLocal ch s).bd.get ch).fresh } := by
  by_cases h : ∃ src, OwnWheel s ch src
  · obtain ⟨src, hsrc⟩ := h
    rw [refreshLocal_own haxis hsrc, modBd_get]
  · rw [refreshLocal_other (not_exists.mp h)]

theorem noteMapClamped_eq (ch : Chan) (s : State) :
    noteMapClamped ch s = modBd ch (fun b =>
      { b with
        mapClamped := (s.mo.get ch).mode = .live && (chanCfg s ch).bindKind = .map
          && (mapTarget (chanCfg s ch) b (s.rf.get ch) (s.mo.get ch).p).2 }) s := by
  unfold noteMapClamped
  simp only []
  split
  · next h => simp [h]
  · next h => simp [h]

end

/-! ## What an update reads -/

/-- Nothing that an update reads is changed by the next update's time or by MAP_CLAMPED (R18, R53). -/
theorem updateInput_noted (ch : Chan) (s : State) (b : Binding) (clamped : Bool) (next : Option Word) :
    updateInput (modBd ch (fun _ => { b with mapClamped := clamped }) (modMo ch (fun m => { m with nextUpdate := next }) s)) ch =
      updateInput (modBd ch (fun _ => b) s) ch := by
  cases ch <;> rfl

/-- What a channel takes from a local wheel does not depend on its own motion record. -/
theorem refreshLocal_timed {ch : Chan} {s : State} (time : Word) (haxis : isAxis s ch = true) :
    refreshLocal ch (timed ch time s) =
      modBd ch (fun _ => (refreshLocal ch (advanceTo time s)).bd.get ch) (timed ch time s) := by
  have hclock : advanceTo time s = { s with clock := (advanceTo time s).clock } := by rw [advanceTo_eq]
  by_cases h : ∃ src, OwnWheel s ch src
  · obtain ⟨src, hsrc⟩ := h
    rw [hclock, timed_eq, refreshLocal_own (by exact haxis) (by exact hsrc), refreshLocal_own (by exact haxis) (by exact hsrc), modBd_get]
    rfl
  · rw [hclock, timed_eq, refreshLocal_other (by exact not_exists.mp h), refreshLocal_other (by exact not_exists.mp h)]
    cases ch <;> rfl

/-! ## What the take engine does with a record (R158, R163) -/

theorem ask_frame (r : ModeRequest) (ch : Chan) (s : State) : ask r ch s = { s with mo := (ask r ch s).mo } := by
  obtain ⟨h, -⟩ | ⟨h, -⟩ := ask_cases r ch s <;> rw [h]
  rfl

theorem holdAtSetpoint_frame (chans : List Chan) (s : State) :
    holdAtSetpoint chans s = { s with mo := (holdAtSetpoint chans s).mo } := by
  refine forChans_induct (fun t => t = { s with mo := t.mo }) _ chans s (fun ch t ht => ?_) rfl
  rw [ask_frame]
  generalize (ask _ ch t).mo = mo
  rw [ht]

/-- The record of a channel held at its setpoint (R23, R164). -/
def heldRecord (m : Motion) : Motion := { m with mode := .hold, hold := floorDiv m.p 256 }

/-- In RUN the engine's HOLD reaches every channel of its list in HOLD, LIVE, CUE or PLAY, and no other (R22). -/
theorem holdAtSetpoint_mo {s : State} (hrun : s.sc.state = .run) (ch : Chan) :
    (holdAtSetpoint (axisChans s) s).mo.get ch =
      if isAxis s ch ∧ (s.mo.get ch).mode ≠ .off ∧ (s.mo.get ch).mode ≠ .ref then heldRecord (s.mo.get ch) else s.mo.get ch := by
  have hall := forChans_mo (fun ch t => ask (.holdByEngine (wholeCounts (t.mo.get ch).p)) ch t) (fun ch t => ask_reads _ _ _)
    (fun ch c t hc => ask_other _ _ _ _ hc) (fun ch t u hreads hm => by rw [hm]; exact ask_own _ _ _ _ hreads hm)
    (axisChans s) (axisChans_nodup s) s
  refine (hall.2 ch).trans ?_
  have hrefusal : refusal (.holdByEngine (floorDiv (s.mo.get ch).p 256)) ch s = none ↔
      (s.mo.get ch).mode ≠ .off ∧ (s.mo.get ch).mode ≠ .ref := by
    cases hmode : (s.mo.get ch).mode <;> simp [refusal, hrun, acceptedFrom, needsReference, hmode]
  simp only [mem_axisChans, ask_get, wholeCounts, hrefusal, acceptMode, heldRecord]
  split <;> simp_all

section
variable {ch : Chan} {s : State}

theorem enterCued_locked (hlock : s.ft.lock ≠ .free) :
    enterCued s = { s with te := { s.te with
      phase := .cued, marks := .all false, holdover := s.te.holdover || decide (s.ft.lock = .holdover) } } := by
  unfold enterCued
  split <;> simp_all

/-- CUED entered on a lost lock ends at once, with HOLD on every recorded channel (R158). -/
theorem enterCued_free (hlock : s.ft.lock = .free) (hrun : s.sc.state = .run) :
    enterCued s =
      { s with
        mo := (enterCued s).mo
        te := { s.te with
          phase := .idle, start := none, marks := .all false, result := .aborted, fault := .lockLost, liveHeld := false } }
    ∧ ∀ k, (enterCued s).mo.get k =
        if isAxis s k ∧ (s.mo.get k).mode ≠ .off ∧ (s.mo.get k).mode ≠ .ref then heldRecord (s.mo.get k) else s.mo.get k := by
  unfold enterCued
  simp only [hlock]
  generalize hs₁ : ({ s with te := { s.te with phase := .cued, marks := .all false } } : State) = s₁
  refine ⟨?_, fun k => ?_⟩
  · rw [holdAtSetpoint_frame, ← hs₁]; rfl
  · rw [endPhase_mo, holdAtSetpoint_mo (by rw [← hs₁]; exact hrun), ← hs₁]; rfl

/-- The in-place marks after a channel's record (R158). -/
def marksAfter (ch : Chan) (s : State) : PerChan Bool := s.te.marks.set ch (inPlace (chanCfg s ch) (s.mo.get ch))

/-- Every recorded channel is marked in place. -/
def AllMarked (s : State) (marks : PerChan Bool) : Prop := ∀ k, isAxis s k = true → marks.get k = true

/-- The station with the in-place marks set. -/
def withMarks (marks : PerChan Bool) (s : State) : State := { s with te := { s.te with marks := marks } }

theorem allMarked_iff (s : State) (marks : PerChan Bool) :
    ((axisChans s).all fun c => marks.get c) = true ↔ AllMarked s marks := by
  simp [AllMarked]

theorem takeAfterUpdate_cueing (hphase : s.te.phase = .cueing) :
    takeAfterUpdate ch s =
      if (axisChans s).all fun c => (marksAfter ch s).get c then enterCued (withMarks (marksAfter ch s) s)
      else withMarks (marksAfter ch s) s := by
  unfold takeAfterUpdate
  split
  · rfl
  all_goals simp_all

theorem takeAfterUpdate_unmarked (hphase : s.te.phase = .cueing) (h : ¬AllMarked s (marksAfter ch s)) :
    takeAfterUpdate ch s = withMarks (marksAfter ch s) s := by
  rw [takeAfterUpdate_cueing hphase, if_neg fun hall => h ((allMarked_iff s _).mp hall)]

theorem takeAfterUpdate_marked (hphase : s.te.phase = .cueing) (h : AllMarked s (marksAfter ch s)) :
    takeAfterUpdate ch s = enterCued (withMarks (marksAfter ch s) s) := by
  rw [takeAfterUpdate_cueing hphase, if_pos ((allMarked_iff s _).mpr h)]

theorem takeAfterUpdate_playing (hphase : s.te.phase = .playing) :
    takeAfterUpdate ch s = { s with te := { s.te with
      spoiled := s.te.spoiled || decide ((chanCfg s ch).takeTolerance < (s.mo.get ch).lag) } } := by
  unfold takeAfterUpdate
  split
  · simp_all
  · split
    · next h => simp [h]
    · next h => simp [h]
  all_goals simp_all

/-- The take engine changes its own report and marks, and the modes of the channels it holds. -/
theorem takeAfterUpdate_frame (hrun : s.sc.state = .run) :
    takeAfterUpdate ch s = { s with mo := (takeAfterUpdate ch s).mo, te := (takeAfterUpdate ch s).te } := by
  by_cases hcue : s.te.phase = .cueing
  · by_cases hall : AllMarked s (marksAfter ch s)
    · rw [takeAfterUpdate_marked hcue hall]
      by_cases hlock : s.ft.lock = .free
      · rw [(enterCued_free (s := withMarks (marksAfter ch s) s) hlock hrun).1]; rfl
      · rw [enterCued_locked (s := withMarks (marksAfter ch s) s) hlock]; rfl
    · rw [takeAfterUpdate_unmarked hcue hall]; rfl
  · by_cases hplay : s.te.phase = .playing
    · rw [takeAfterUpdate_playing hplay]
    · rw [takeAfterUpdate_other hcue hplay]

/-- The motion records stay, unless the last mark meets a lost lock (R158). -/
theorem takeAfterUpdate_mo (h : s.te.phase ≠ .cueing ∨ ¬AllMarked s (marksAfter ch s) ∨ s.ft.lock ≠ .free) :
    (takeAfterUpdate ch s).mo = s.mo := by
  by_cases hcue : s.te.phase = .cueing
  · by_cases hall : AllMarked s (marksAfter ch s)
    · have hlock : s.ft.lock ≠ .free := by simpa [hcue, hall] using h
      rw [takeAfterUpdate_marked hcue hall, enterCued_locked (s := withMarks (marksAfter ch s) s) hlock]; rfl
    · rw [takeAfterUpdate_unmarked hcue hall]; rfl
  · by_cases hplay : s.te.phase = .playing
    · rw [takeAfterUpdate_playing hplay]
    · rw [takeAfterUpdate_other hcue hplay]

/-- The last mark with a lock ends in CUED (R158). -/
theorem takeAfterUpdate_cued (hphase : s.te.phase = .cueing) (hall : AllMarked s (marksAfter ch s)) (hlock : s.ft.lock ≠ .free) :
    (takeAfterUpdate ch s).te =
      { s.te with phase := .cued, marks := .all false, holdover := s.te.holdover || decide (s.ft.lock = .holdover) } := by
  rw [takeAfterUpdate_marked hphase hall, enterCued_locked (s := withMarks (marksAfter ch s) s) hlock]; rfl

/-- The last mark with a lost lock ends in ABORTED, with HOLD on every recorded channel (R158). -/
theorem takeAfterUpdate_lockLost (hphase : s.te.phase = .cueing) (hall : AllMarked s (marksAfter ch s)) (hlock : s.ft.lock = .free)
    (hrun : s.sc.state = .run) :
    (takeAfterUpdate ch s).te =
      { s.te with phase := .idle, start := none, marks := .all false, result := .aborted, fault := .lockLost, liveHeld := false }
    ∧ ∀ k, (takeAfterUpdate ch s).mo.get k =
        if isAxis s k ∧ (s.mo.get k).mode ≠ .off ∧ (s.mo.get k).mode ≠ .ref then heldRecord (s.mo.get k) else s.mo.get k := by
  obtain ⟨hframe, hmo⟩ := enterCued_free (s := withMarks (marksAfter ch s) s) hlock hrun
  rw [takeAfterUpdate_marked hphase hall]
  refine ⟨?_, hmo⟩
  rw [hframe]; rfl

theorem inPlace_eq_decide (c : ChanCfg) (m : Motion) :
    inPlace c m = decide (m.ep.natAbs ≤ c.inPosition ∧ m.v = 0 ∧ (m.cap = 0 → m.p = m.target * 256)) := by
  rw [Bool.eq_iff_iff, inPlace_iff, decide_eq_true_iff]

end

/-! ## The update as an event -/

/-- The station with the record of an update written, its time and source record taken and its draws made. -/
def written (ch : Chan) (k : Word) (b : Binding) (m : Motion) (order : List Nat) (draws : Nat) (s : State) : State :=
  { s with clock := k, bd := s.bd.set ch b, mo := s.mo.set ch m, order := order, draws := draws }

/-- The source record of a channel as an update finds it: its held value, and MAP_CLAMPED from the map in LIVE alone (R51, R53). -/
def sourceAfter (ch : Chan) (s : State) (b : Binding) : Binding :=
  { b with
    mapClamped := (s.mo.get ch).mode = .live && (chanCfg s ch).bindKind = .map
      && (mapTarget (chanCfg s ch) b (s.rf.get ch) (s.mo.get ch).p).2 }

/-- A servo update outside a run, with nothing noted for it and no onset: its record is written and the take engine takes it. -/
theorem exec_servoUpdate_writes {ch : Chan} {time : Word} {s : State} {m : Motion} (hnext : (s.mo.get ch).nextUpdate = some time)
    (haxis : isAxis s ch = true) (hrun : s.sc.state = .run) (hoffset : (s.rf.get ch).offset = none)
    (hrealign : (s.rf.get ch).realign = false) (hidle : inRun (s.rf.get ch) = false)
    (hm : m = updateRecord (updateInput (refreshLocal ch (advanceTo time s)) ch) (chanCfg s ch)
      { s.mo.get ch with nextUpdate := some (after time 1000) })
    (honset : m.following = true → (s.mo.get ch).following = true) :
    ∃ order draws, exec (.servoUpdate ch) s = .next (takeAfterUpdate ch (written ch (advanceTo time s).clock
      (sourceAfter ch s ((refreshLocal ch (advanceTo time s)).bd.get ch)) m order draws s)) := by
  have hrf : (timed ch time s).rf = s.rf := by rw [timed_eq]
  have hprep : prepared ch (timed ch time s) =
      modBd ch (fun _ => sourceAfter ch s ((refreshLocal ch (advanceTo time s)).bd.get ch)) (timed ch time s) := by
    rw [prepared_frame (by rwa [hrf]) (by rwa [hrf]) (.inl (by rwa [hrf])), refreshLocal_timed time haxis, noteMapClamped_eq, modBd_modBd,
      timed_eq]
    simp only [modBd, PerChan.get_set]
    rfl
  have hinput : updateInput (prepared ch (timed ch time s)) ch = updateInput (refreshLocal ch (advanceTo time s)) ch := by
    have hlocal := refreshLocal_frame ch (advanceTo time s)
    rw [hprep]
    generalize (refreshLocal ch (advanceTo time s)).bd.get ch = b at hlocal
    rw [hlocal]
    exact updateInput_noted ch (advanceTo time s) b _ _
  have hrec := recorded_frame hprep
  rw [hinput, ← hm] at hrec
  have hnoOnset : onsetIn ch (prepared ch (timed ch time s)) = false := by
    rw [onsetIn, hrec, hprep, timed_eq]
    simpa [modBd] using honset
  obtain ⟨order, draws, hupdate⟩ := servoUpdate_noOnset hnoOnset (by rw [hprep, timed_eq]; exact hidle)
  refine ⟨order, draws, (exec_servoUpdate hnext).trans (congrArg _ ?_)⟩
  have hclock : (prepared ch (timed ch time s)).clock = (advanceTo time s).clock := by rw [hprep]; rfl
  rw [hupdate, hrec, hclock]
  generalize sourceAfter ch s _ = b
  have hstate : (written ch (advanceTo time s).clock b m order draws s).sc.state = .run := hrun
  refine velocityReport_moving fun hstopping => ?_
  have hsc := congrArg (fun t => t.sc.state) (takeAfterUpdate_frame (ch := ch) hstate)
  have hstop : (takeAfterUpdate ch (written ch (advanceTo time s).clock b m order draws s)).sc.state = .stopping := hstopping
  rw [hstop] at hsc
  exact absurd (hsc.trans hstate) (by decide)

/-- The station as an update's input is read from it: at its time, with its source records. -/
def atUpdate (k : Word) (bd : PerChan Binding) (s : State) : State := { s with clock := k, bd := bd }

/-- Settles O19: the update reads its mode's target, its record is written, and the take engine alone takes it. -/
theorem updateWritesRecord : Obligations.UpdateWritesRecord := by
  intro ch time s hnext hoff href haxis hrun hoffset hrealign hidle
  have haxis' : isAxis (advanceTo time s) ch = true := by rw [advanceTo_eq]; exact haxis
  have hlocal := refreshLocal_frame ch (advanceTo time s)
  have hbd := refreshLocal_bd haxis'
  have hown := fun src => refreshLocal_own (src := src) haxis'
  have hother := refreshLocal_other (ch := ch) (s := advanceTo time s)
  have hwrites := fun m => exec_servoUpdate_writes (m := m) hnext haxis hrun hoffset hrealign hidle
  simp only []
  generalize refreshLocal ch (advanceTo time s) = u at hlocal hbd hown hother hwrites ⊢
  have hmode := updateRecord_mode (updateInput u ch) (chanCfg s ch) { s.mo.get ch with nextUpdate := some (after time 1000) }
  generalize updateRecord (updateInput u ch) (chanCfg s ch) _ = m at hwrites hmode ⊢
  intro honset
  obtain ⟨order, draws, hexec⟩ := hwrites m rfl honset
  have hread : u = atUpdate (advanceTo time s).clock u.bd s := by
    rw [hlocal]
    generalize u.bd.get ch = b
    rw [advanceTo_eq]; rfl
  generalize hw : written ch _ _ m order draws s = w at hexec
  have hframe := takeAfterUpdate_frame (ch := ch) (s := w) (by rw [← hw]; exact hrun)
  have hmarks : marksAfter ch w = s.te.marks.set ch
      (decide (m.ep.natAbs ≤ (chanCfg s ch).inPosition ∧ m.v = 0 ∧ (m.cap = 0 → m.p = m.target * 256))) := by
    rw [marksAfter, inPlace_eq_decide, ← hw]
    simp only [written, PerChan.get_set]
    rfl
  generalize s.te.marks.set ch _ = marks at hmarks ⊢
  have hmo : w.mo = s.mo.set ch m := by rw [← hw]; rfl
  have hte : w.te = s.te := by rw [← hw]; rfl
  have hft : w.ft = s.ft := by rw [← hw]; rfl
  have hall : AllMarked w (marksAfter ch w) ↔ ∀ k, isAxis s k = true → marks.get k = true := by rw [hmarks, ← hw]; rfl
  have hclockAfter : (takeAfterUpdate ch w).clock = u.clock := by rw [hframe, ← hw, hread]; rfl
  have hbdAfter : (takeAfterUpdate ch w).bd = s.bd.set ch (sourceAfter ch s (u.bd.get ch)) := by rw [hframe, ← hw]; rfl
  refine ⟨takeAfterUpdate ch w, hexec, fun hmode => ?hold, fun hmode hbind => ?map, fun hmode hbind => ?rate, fun hmode => ?cue,
    fun hmode => ?play, ?mapClamped, ?source, ?held, ?fresh, fun src hsrc => ?own, fun hnone => ?other, fun k hk => ?bd,
    fun hkeep => ?records, fun hcue hmissing => ?marked, fun hcue hlast => ⟨fun hlock => ?cued, fun hfree => ?lost⟩,
    fun hplay => ?playing, fun hcue hplay => ?waiting, ?_, ?_, ?_, ?_, ?_, ?_, ?_, ?_, ?_⟩
  case hold => rw [hread]; exact updateInput_hold hmode
  case map =>
    rw [hread]
    obtain ⟨hbase, hpoint, htarget⟩ := updateInput_liveMap (s := atUpdate (advanceTo time s).clock u.bd s) hmode hbind
    exact ⟨hbase, hpoint, htarget.trans (mapTarget_eq _ _ _ _)⟩
  case rate =>
    rw [hread]
    obtain ⟨hbase, hpoint, htarget⟩ := updateInput_liveRate (s := atUpdate (advanceTo time s).clock u.bd s) hmode hbind
    refine ⟨hbase, hpoint, fun hstale => htarget.trans (rateTarget_stale hstale), fun v hfresh hheld => ?_⟩
    obtain ⟨hwithin, habove, hbelow⟩ := rateTarget_fresh (c := chanCfg s ch) (p := (s.mo.get ch).p) hfresh hheld
    exact ⟨fun h => htarget.trans (hwithin h), fun h => htarget.trans (habove h), fun h => htarget.trans (hbelow h)⟩
  case cue =>
    rw [hread]
    obtain ⟨hbase, hpoint, htarget⟩ := updateInput_cue (s := atUpdate (advanceTo time s).clock u.bd s) hmode
    exact ⟨hbase, hpoint, fun e he => htarget.trans (cueTarget_eq he)⟩
  case play =>
    rw [hclockAfter, hread]
    obtain ⟨hbase, hpoint, htarget⟩ := updateInput_play (s := atUpdate (advanceTo time s).clock u.bd s) hmode
    exact ⟨hbase, hpoint, htarget.trans (playTarget_eq _ _)⟩
  case mapClamped => rw [hbdAfter, PerChan.get_set]; rfl
  case source => rw [hbdAfter, PerChan.get_set, sourceAfter, hbd, advanceTo_eq]
  case held => rw [hbdAfter, PerChan.get_set]; rfl
  case fresh => rw [hbdAfter, PerChan.get_set]; rfl
  case own =>
    rw [hbdAfter, PerChan.get_set, hown src (by rw [advanceTo_eq]; exact hsrc), sourceAfter, modBd_get, advanceTo_eq]
    exact ⟨rfl, rfl⟩
  case other =>
    rw [hbdAfter, PerChan.get_set, hother fun src => by rw [advanceTo_eq]; exact hnone src, sourceAfter, advanceTo_eq]
    exact ⟨rfl, rfl⟩
  case bd => rw [hbdAfter, PerChan.get_set_ne _ _ _ _ hk]
  case records =>
    rw [takeAfterUpdate_mo (by rwa [hte, hft, hall]), hmo, PerChan.get_set]
    exact ⟨rfl, fun k hk => PerChan.get_set_ne _ _ _ _ hk⟩
  case marked =>
    rw [takeAfterUpdate_unmarked (by rwa [hte]) (by rwa [hall]), withMarks, hmarks, hte]
  case cued => rw [takeAfterUpdate_cued (by rwa [hte]) (by rwa [hall]) (by rwa [hft]), hte, hft]
  case lost =>
    obtain ⟨hteAfter, hmoAfter⟩ := takeAfterUpdate_lockLost (by rwa [hte]) (hall.mpr hlast) (by rwa [hft]) (by rw [← hw]; exact hrun)
    refine ⟨by rw [hteAfter, hte], ?_, fun k hk => ?_⟩
    · rw [hmoAfter, hmo, PerChan.get_set, hmode]
      exact if_pos ⟨by rw [← hw]; exact haxis, hoff, href⟩
    · rw [hmoAfter, hmo, PerChan.get_set_ne _ _ _ _ hk, ← hw]; rfl
  case playing => rw [takeAfterUpdate_playing (by rwa [hte]), hte, hmo, PerChan.get_set, ← hw]; rfl
  case waiting => rw [takeAfterUpdate_other (by rwa [hte]) (by rwa [hte]), hte]
  all_goals rw [hframe, ← hw]; rfl

end Sys2Proof.Machine
end

section
/-! PROOFS. Servo updates at a stop: the ramp, and the updates of a channel in HOLD down to BRAKING (R21, R26, R30, R39, R46, R122). -/

namespace Sys2Proof.Machine

/-! ## The ramp (R26, R30) -/

section
variable {i : UpdateInput}

/-- In STOPPING every velocity asked for is 0 (R26). -/
theorem limitedVelocity_stopping (hstop : i.stopping = true) (c : ChanCfg) (t p v : Int) :
    limitedVelocity i c t p v = clampInt (v - c.astop) (v + c.astop) 0 := by
  have hdemand := demandedVelocity_natAbs_le i c t p
  have hlimit : speedLimit i = 0 := by simp [speedLimit, hstop]
  have hzero : demandedVelocity i c t p = 0 := by omega
  rw [limitedVelocity, hzero, accelLimit_eq, hstop, if_pos rfl]

/-- A ramp takes astop off a velocity, and ends at 0 (R30). -/
theorem clampInt_ramp (a : Nat) (v : Int) :
    clampInt (v - a) (v + a) 0 = (if v ≤ a ∧ -(a : Int) ≤ v then 0 else if 0 < v then v - a else v + a) := by
  obtain ⟨h, e⟩ | ⟨h, h', e⟩ | ⟨h, h', e⟩ := clampInt_cases (v - a) (v + a) 0 <;> rw [e]
  · rw [if_neg (by omega), if_pos (by omega)]
  · rw [if_neg (by omega), if_neg (by omega)]
  · rw [if_pos (by omega)]

theorem newVelocity_stopping_natAbs_le (hstop : i.stopping = true) (c : ChanCfg) (t p v : Int) :
    (newVelocity i c t p v).natAbs ≤ v.natAbs - c.astop := by
  have hescape := escape_natAbs_le i (limitedVelocity i c t p v)
  rw [newVelocity_eq]
  rw [limitedVelocity_stopping hstop] at hescape ⊢
  obtain ⟨h, e⟩ | ⟨h, h', e⟩ | ⟨h, h', e⟩ := clampInt_cases (v - c.astop) (v + c.astop) 0 <;> rw [e] at hescape ⊢ <;> omega

/-- Both clamps of the setpoint leave the velocity or end it (R31). -/
theorem softClamp_natAbs_le (p v : Int) : (softClamp i p v).2.1.natAbs ≤ v.natAbs := by
  simp only [softClamp]
  repeat' split
  all_goals simp

theorem keepInRange_natAbs_le (p v : Int) : (keepInRange p v).2.natAbs ≤ v.natAbs := by
  unfold keepInRange
  repeat' split
  all_goals omega

/-- A channel not in OFF: the velocity and the hold point of its record. -/
theorem updateRecord_driven (c : ChanCfg) {m : Motion} (hmode : m.mode ≠ .off) :
    (updateRecord i c m).v.natAbs ≤ (newVelocity i c (clampTarget i) m.p m.v).natAbs
      ∧ (updateRecord i c m).hold =
          (if i.stopping = true ∧ m.mode = .hold then floorDiv (updateRecord i c m).p 256 else m.hold) := by
  have hv : (updateRecord i c m).v = (limiter i c m).v := by simp only [updateRecord, if_neg hmode]; rfl
  have hp : (updateRecord i c m).p = (limiter i c m).p := by simp only [updateRecord, if_neg hmode]; rfl
  have hhold : (updateRecord i c m).hold = (limiter i c m).hold := by simp only [updateRecord, if_neg hmode]; rfl
  rw [hv, hp, hhold]
  refine ⟨(keepInRange_natAbs_le _ _).trans (softClamp_natAbs_le _ _), ?_⟩
  simp only [limiter, Bool.and_eq_true, decide_eq_true_eq]
  rfl

end

/-! ## A noted realignment (R46, R49) -/

/-- The motion record of a channel not in OFF after a noted realignment. -/
def realigned (x : Int) (r : Reference) (m : Motion) : Motion := if r.realign then { m with p := x * 256, v := 0, integ := 0 } else m

theorem realigned_keeps (x : Int) (r : Reference) (m : Motion) :
    (realigned x r m).mode = m.mode ∧ (realigned x r m).hold = m.hold ∧ (realigned x r m).following = m.following := by
  unfold realigned; split <;> exact ⟨rfl, rfl, rfl⟩

theorem realign_eq {ch : Chan} {s : State} (hmode : (s.mo.get ch).mode ≠ .off) :
    realign ch s = modRf ch (fun r => { r with realign := false })
      (modMo ch (realigned (s.fb.get ch).x (s.rf.get ch)) s) := by
  cases h : (s.rf.get ch).realign with
  | true => rw [realign_acts h hmode]; simp [modMo, realigned, h]
  | false =>
    rw [realign_waits (.inl h)]
    have hmo : realigned (s.fb.get ch).x (s.rf.get ch) (s.mo.get ch) = s.mo.get ch := by simp [realigned, h]
    have hrf : { s.rf.get ch with realign := false } = s.rf.get ch := by rw [← h]
    have hsame : modMo ch (realigned (s.fb.get ch).x (s.rf.get ch)) s = s := by
      rw [modMo, hmo]
      cases ch <;> rfl
    rw [hsame, modRf, hrf]
    cases ch <;> rfl

/-- The station as an update outside a run finds it, the channel not in OFF and no offset pending. -/
theorem prepared_realigned {ch : Chan} {s : State} (time : Word) (hmode : (s.mo.get ch).mode ≠ .off)
    (hoffset : (s.rf.get ch).offset = none) (hidle : inRun (s.rf.get ch) = false) :
    ∃ b, prepared ch (timed ch time s) =
      { s with
        clock := (advanceTo time s).clock
        mo := s.mo.set ch
          { realigned (s.fb.get ch).x (s.rf.get ch) (s.mo.get ch) with nextUpdate := some (after time 1000) }
        rf := s.rf.set ch { s.rf.get ch with realign := false }
        bd := s.bd.set ch b } := by
  have hlocal := refreshLocal_frame ch (timed ch time s)
  have hnote := noteMapClamped_frame ch (beforeUpdate ch (refreshLocal ch (timed ch time s)))
  refine ⟨(prepared ch (timed ch time s)).bd.get ch, ?_⟩
  rw [prepared]
  generalize (noteMapClamped ch (beforeUpdate ch (refreshLocal ch (timed ch time s)))).bd.get ch = b at hnote ⊢
  generalize (refreshLocal ch (timed ch time s)).bd.get ch = b₀ at hlocal
  rw [hnote, hlocal, timed_eq, beforeUpdate_idle (by exact hoffset) (by exact hidle), realign_eq (by simpa [modBd] using hmode)]
  have hkept : ∀ x r m, realigned x r { m with nextUpdate := some (after time 1000) } =
      { realigned x r m with nextUpdate := some (after time 1000) } := fun x r m => by unfold realigned; split <;> rfl
  simp only [modBd, modMo, modRf, PerChan.get_set, perChan_set_set, hkept]
  rfl

/-- What an update in HOLD reads does not depend on a realignment, on its time or on the source record (R18, R20). -/
theorem updateInput_held {ch : Chan} {s : State} {m : Motion} {r : Reference} (k : Word) (bd : PerChan Binding)
    (hmode : (s.mo.get ch).mode = .hold) (hm : m.mode = .hold) (hhold : m.hold = (s.mo.get ch).hold)
    (hr : r = { s.rf.get ch with realign := false }) :
    updateInput { s with clock := k, mo := s.mo.set ch m, rf := s.rf.set ch r, bd := bd } ch = updateInput s ch := by
  have hin : inRun r = inRun (s.rf.get ch) := by rw [hr]; rfl
  have ⟨hstate, hlo, hhi⟩ : r.state = (s.rf.get ch).state ∧ r.softLo = (s.rf.get ch).softLo ∧ r.softHi = (s.rf.get ch).softHi := by
    rw [hr]; exact ⟨rfl, rfl, rfl⟩
  have hcfg : chanCfg { s with clock := k, mo := s.mo.set ch m, rf := s.rf.set ch r, bd := bd } ch = chanCfg s ch := rfl
  simp [updateInput, rawTarget, speedBase, pointTarget, referenced, endStopsRun, hcfg, hmode, hm, hhold, hin, hstate, hlo, hhi]

/-! ## The report that ends a ramp (R39, R122) -/

theorem stoppedLamp_frame (new : StopState) (s : State) :
    stoppedLamp new s =
      { s with dk := { s.dk with lamps := { s.dk.lamps with stopped := (stoppedLamp new s).dk.lamps.stopped } } } := by
  unfold stoppedLamp; split <;> rfl

/-- From STOPPING the drives stay as they are: the brakes are applied, the brake timer started, and the STOPPED lamp follows. -/
theorem enterBraking_stopping {s : State} (h : s.sc.state = .stopping) :
    enterBraking s =
      { s with
        sc := { s.sc with
          state := .braking, brakeReleased := false, stopTimer := none, releaseTimer := none
          brakeTimer := some (after s.clock (s.cfg.brakeEngage * 1000)) }
        dk := { s.dk with lamps := { s.dk.lamps with stopped := (enterBraking s).dk.lamps.stopped } } } := by
  have hlamp : enterBraking s = stoppedLamp .braking
      (setBrake false (setStop .braking none (some (after s.clock (s.cfg.brakeEngage * 1000))) none s)) := by
    simp [enterBraking, stopNotice, h]
  have hframe := stoppedLamp_frame .braking
    (setBrake false (setStop .braking none (some (after s.clock (s.cfg.brakeEngage * 1000))) none s))
  rw [← hlamp] at hframe
  exact hframe

/-- The station after an update of a channel in HOLD at a stop, its velocity not yet reported. -/
def heldUpdate (ch : Chan) (k : Word) (b : Binding) (m : Motion) (order : List Nat) (draws : Nat) (s : State) : State :=
  { s with
    clock := k, mo := s.mo.set ch m, rf := s.rf.set ch { s.rf.get ch with realign := false }, bd := s.bd.set ch b
    order := order, draws := draws }

/-- A servo update of a channel in HOLD outside a run, with no onset and no take work at the channels: a noted realignment is made, the
record written, and the velocity reported. -/
theorem exec_servoUpdate_held {ch : Chan} {time : Word} {s : State} {m : Motion} (hnext : (s.mo.get ch).nextUpdate = some time)
    (hmode : (s.mo.get ch).mode = .hold) (hoffset : (s.rf.get ch).offset = none) (hidle : inRun (s.rf.get ch) = false)
    (hcue : s.te.phase ≠ .cueing) (hplay : s.te.phase ≠ .playing)
    (hm : m = updateRecord (updateInput s ch) (chanCfg s ch)
      { realigned (s.fb.get ch).x (s.rf.get ch) (s.mo.get ch) with nextUpdate := some (after time 1000) })
    (honset : m.following = true → (s.mo.get ch).following = true) :
    ∃ b order draws, exec (.servoUpdate ch) s =
      .next (velocityReport (heldUpdate ch (advanceTo time s).clock b m order draws s)) := by
  have hdriven : (s.mo.get ch).mode ≠ .off := by rw [hmode]; decide
  obtain ⟨hkeepMode, hkeepHold, hkeepFollowing⟩ := realigned_keeps (s.fb.get ch).x (s.rf.get ch) (s.mo.get ch)
  obtain ⟨b, hprep⟩ := prepared_realigned time hdriven hoffset hidle
  generalize realigned (s.fb.get ch).x (s.rf.get ch) (s.mo.get ch) = m₀ at *
  have hinput : updateInput (prepared ch (timed ch time s)) ch = updateInput s ch := by
    rw [hprep]; exact updateInput_held _ _ hmode (hkeepMode.trans hmode) hkeepHold rfl
  have hrec : recorded ch (prepared ch (timed ch time s)) = heldUpdate ch (advanceTo time s).clock b m s.order s.draws s := by
    have hcfg : chanCfg (prepared ch (timed ch time s)) ch = chanCfg s ch := by rw [hprep]; rfl
    rw [recorded, hinput, hcfg, hm, hprep]
    simp [modMo, heldUpdate]
  have hnoOnset : onsetIn ch (prepared ch (timed ch time s)) = false := by
    rw [onsetIn, hrec, hprep]
    simpa [heldUpdate, hkeepFollowing] using honset
  obtain ⟨order, draws, hupdate⟩ := servoUpdate_noOnset hnoOnset (by rw [hprep]; simpa [inRun] using hidle)
  refine ⟨b, order, draws, (exec_servoUpdate hnext).trans (congrArg _ ?_)⟩
  rw [hupdate, hrec, takeAfterUpdate_other (by exact hcue) (by exact hplay)]
  rfl

end Sys2Proof.Machine
end

section
/-! PROOFS. An onset of the following condition: what its cause makes of the station, whatever takes the update's record before or after
it (R33, R120, R121, R127). -/

namespace Sys2Proof.Machine

/-! ## One event among others in a free order -/

/-- Events in a free order, one of which takes P to Q while the others keep both. -/
theorem inAnyOrder_around (P Q : State → Prop) (g : State → State) (rest : List (State → State)) (s : State)
    (keepP : ∀ f ∈ rest, ∀ t, P t → P (f t)) (acts : ∀ t, P t → Q (g t)) (keepQ : ∀ f ∈ rest, ∀ t, Q t → Q (f t))
    (h : ∀ order draws, P { s with order := order, draws := draws }) : Q (inAnyOrder (g :: rest) s) := by
  obtain ⟨o, d, hs⟩ := shuffle_eq (g :: rest) s
  have hperm := shuffle_perm (g :: rest) s
  obtain ⟨pre, post, hl⟩ := List.append_of_mem (hperm.mem_iff.mpr List.mem_cons_self)
  have hrest : (pre ++ post).Perm rest := by
    rw [hl] at hperm
    exact (List.perm_cons g).mp (List.perm_middle.symm.trans hperm)
  have keep : ∀ (R : State → Prop), (∀ f ∈ rest, ∀ t, R t → R (f t)) → ∀ (l : List (State → State)) (t : State),
      (∀ f ∈ l, f ∈ pre ++ post) → R t → R (l.foldl (fun t f => f t) t) := by
    intro R hR l
    induction l with
    | nil => exact fun t _ ht => ht
    | cons f l ih =>
      exact fun t hmem ht => ih _ (fun x hx => hmem x (List.mem_cons_of_mem _ hx))
        (hR f (hrest.mem_iff.mp (hmem f List.mem_cons_self)) t ht)
  simp only [inAnyOrder, hs, hl]
  rw [List.foldl_append, List.foldl_cons]
  exact keep Q keepQ post _ (fun f hf => List.mem_append_right _ hf)
    (acts _ (keep P keepP pre _ (fun f hf => List.mem_append_left _ hf) (h o d)))

/-! ## What takes an update's record reaches neither the stop controller nor the trunk (R45 to R47, R158, R163) -/

/-- What the sequencer and the take engine leave alone when they take an update's record: they change modes by requests alone, which no
stop state but RUN accepts. -/
structure RecordTaken (s t : State) : Prop where
  clock : t.clock = s.clock
  su : t.su = s.su
  cfg : t.cfg = s.cfg
  ft : t.ft = s.ft
  sc : t.sc = s.sc
  tk : t.tk = s.tk
  x : ∀ k, (t.fb.get k).x = (s.fb.get k).x
  driven : ∀ k, (s.mo.get k).mode ≠ .off → (t.mo.get k).mode ≠ .off
  stopped : s.sc.state ≠ .run → t.mo = s.mo

theorem RecordTaken.refl (s : State) : RecordTaken s s := ⟨rfl, rfl, rfl, rfl, rfl, rfl, fun _ => rfl, fun _ h => h, fun _ => rfl⟩

theorem RecordTaken.trans {s t u : State} (h : RecordTaken s t) (g : RecordTaken t u) : RecordTaken s u :=
  ⟨g.clock.trans h.clock, g.su.trans h.su, g.cfg.trans h.cfg, g.ft.trans h.ft, g.sc.trans h.sc, g.tk.trans h.tk,
    fun k => (g.x k).trans (h.x k), fun k hk => g.driven k (h.driven k hk),
    fun hs => (g.stopped (by rwa [h.sc])).trans (h.stopped hs)⟩

theorem modRf_taken (ch : Chan) (f : Reference → Reference) (s : State) : RecordTaken s (modRf ch f s) :=
  ⟨rfl, rfl, rfl, rfl, rfl, rfl, fun _ => rfl, fun _ h => h, fun _ => rfl⟩

theorem disarm_taken (ch : Chan) (s : State) : RecordTaken s (modFb ch disarm s) :=
  ⟨rfl, rfl, rfl, rfl, rfl, rfl, fun k => by cases ch <;> cases k <;> rfl, fun _ h => h, fun _ => rfl⟩

theorem ask_stopped {s : State} (r : ModeRequest) (ch : Chan) (h : s.sc.state ≠ .run) : ask r ch s = s := by
  obtain ⟨hask, -⟩ | ⟨-, haccepted⟩ := ask_cases r ch s
  · exact hask
  · exact absurd (refusal_none _ _ _ haccepted).1 h

theorem acceptMode_driven (r : ModeRequest) (m : Motion) : (acceptMode r m).mode ≠ .off := by
  cases r <;> exact fun h => nomatch h

theorem ask_taken (r : ModeRequest) (ch : Chan) (s : State) : RecordTaken s (ask r ch s) := by
  have hframe := ask_frame r ch s
  have hdriven : ∀ k, (s.mo.get k).mode ≠ .off → ((ask r ch s).mo.get k).mode ≠ .off := fun k hk => by
    by_cases hc : k = ch
    · rw [hc, ask_get]
      split
      · exact acceptMode_driven _ _
      · rwa [← hc]
    · rwa [ask_other _ _ _ _ hc]
  have hstopped : s.sc.state ≠ .run → (ask r ch s).mo = s.mo := fun h => by rw [ask_stopped r ch h]
  generalize (ask r ch s).mo = mo at hframe hdriven hstopped
  rw [hframe]
  exact ⟨rfl, rfl, rfl, rfl, rfl, rfl, fun _ => rfl, hdriven, hstopped⟩

theorem failRun_taken (reason : FailReason) (ch : Chan) (s : State) : RecordTaken s (failRun reason ch s) :=
  ((modRf_taken ch _ s).trans (disarm_taken ch _)).trans (ask_taken _ ch _)

theorem afterUpdate_taken (ch : Chan) (s : State) : RecordTaken s (afterUpdate ch s) := by
  unfold afterUpdate
  split
  · simp only [parkCheck]
    split
    · exact (modRf_taken ch _ s).trans (ask_taken _ ch _)
    · exact .refl s
  · simp only [stallCheck, secondStall]
    repeat' split
    all_goals first
      | exact .refl s
      | exact modRf_taken ch _ s
      | exact (modRf_taken ch _ s).trans (failRun_taken _ ch _)
      | exact (modRf_taken ch _ s).trans (modRf_taken ch _ _)

theorem withTe_taken (te : TakeEngine) (s : State) : RecordTaken s { s with te := te } :=
  ⟨rfl, rfl, rfl, rfl, rfl, rfl, fun _ => rfl, fun _ h => h, fun _ => rfl⟩

theorem holdAtSetpoint_taken (chans : List Chan) (s : State) : RecordTaken s (holdAtSetpoint chans s) :=
  forChans_induct (RecordTaken s) _ chans s (fun k t ht => ht.trans (ask_taken _ k t)) (.refl s)

theorem enterCued_taken (s : State) : RecordTaken s (enterCued s) := by
  have hcued := withTe_taken { s.te with phase := .cued, marks := .all false } s
  unfold enterCued
  simp only []
  generalize ({ s with te := { s.te with phase := .cued, marks := .all false } } : State) = s₁ at hcued ⊢
  split
  · exact hcued.trans ((holdAtSetpoint_taken _ s₁).trans (withTe_taken _ _))
  · exact withTe_taken _ s
  · exact hcued
  · exact hcued

theorem takeAfterUpdate_taken (ch : Chan) (s : State) : RecordTaken s (takeAfterUpdate ch s) := by
  by_cases hcue : s.te.phase = .cueing
  · rw [takeAfterUpdate_cueing hcue]
    split
    · exact (withTe_taken _ s).trans (enterCued_taken _)
    · exact withTe_taken _ s
  · by_cases hplay : s.te.phase = .playing
    · rw [takeAfterUpdate_playing hplay]; exact withTe_taken _ s
    · rw [takeAfterUpdate_other hcue hplay]; exact .refl s

/-- No run is in progress and no take is being recorded, cued or played. -/
def NoWork (s : State) : Prop := workingPhase s.te.phase = false ∧ ∀ k, inRun (s.rf.get k) = false

theorem NoWork.afterUpdate {s : State} (h : NoWork s) (ch : Chan) : NoWork (afterUpdate ch s) := by
  rwa [afterUpdate_idle (h.2 ch)]

theorem NoWork.takeAfterUpdate {s : State} (h : NoWork s) (ch : Chan) : NoWork (takeAfterUpdate ch s) := by
  obtain ⟨hphase, -⟩ := id h
  rwa [takeAfterUpdate_other (fun hc => by simp [hc, workingPhase] at hphase) (fun hp => by simp [hp, workingPhase] at hphase)]

/-! ## A CUT cause of this station -/

theorem actOnCause_keeps (cut : Bool) (s : State) :
    (actOnCause cut s).sc.stopSerial = s.sc.stopSerial ∧ (actOnCause cut s).tk = s.tk := by
  have hbraking : (enterBrakingCut s).sc.stopSerial = s.sc.stopSerial ∧ (enterBrakingCut s).tk = s.tk := by
    obtain ⟨hsc, htk⟩ := enterBrakingCut_sc s
    exact ⟨by rw [hsc], htk⟩
  have hstopping : (enterStopping s).sc.stopSerial = s.sc.stopSerial ∧ (enterStopping s).tk = s.tk := by
    obtain ⟨hsc | hsc, htk⟩ := enterStopping_sc s <;> exact ⟨by rw [hsc], htk⟩
  obtain ⟨-, h⟩ | ⟨-, h⟩ | ⟨-, h⟩ | ⟨-, h⟩ := actOnCause_cases cut s <;> rw [h]
  · split
    · exact hbraking
    · exact hstopping
  · split
    · exact hbraking
    · exact ⟨rfl, rfl⟩
  · split
    · obtain ⟨hsc, htk⟩ := forChans_sc cutChannel_sc (axisChans s) s
      exact ⟨by rw [hsc], htk⟩
    · exact ⟨rfl, rfl⟩
  · exact ⟨rfl, rfl⟩

section
variable {kind : CauseKind} {s : State} (origin channel zone : Byte)

/-- A local cause met in RUN or RELEASING fills the STOP slot under the next stop serial (R127). -/
theorem raiseCause_underWay (hlocal : kind ≠ .peerStop) (h : underWay s.sc.state = true) :
    (raiseCause kind origin channel zone s).sc.stopSerial = s.sc.stopSerial + 1
      ∧ (raiseCause kind origin channel zone s).tk.stopSlot = some
          { body :=
              { origin := origin, kind := kind, channel := channel, zone := zone, frame := s.ft.count, serial := s.sc.stopSerial }
            repeats := 3 } := by
  have hlocal' : (decide (kind ≠ .peerStop) && underWay s.sc.state) = true := by simp [hlocal, h]
  simp only [raiseCause, hlocal', if_true]
  obtain ⟨hserial, htk⟩ := actOnCause_keeps (isCut kind) (makeStopBody kind origin channel zone (recordCause kind origin channel zone s))
  rw [hserial, htk]
  exact ⟨rfl, rfl⟩

theorem raiseCause_notUnderWay (h : underWay s.sc.state = false) :
    (raiseCause kind origin channel zone s).sc.stopSerial = s.sc.stopSerial ∧ (raiseCause kind origin channel zone s).tk = s.tk := by
  have hnone : (decide (kind ≠ .peerStop) && underWay s.sc.state) = false := by simp [h]
  simp only [raiseCause, hnone]
  exact actOnCause_keeps _ _

/-- A CUT cause leaves every AXIS channel cut, except in HALTED (R121). -/
theorem raiseCause_cut_mo (hcut : isCut kind = true) (hhalted : s.sc.state ≠ .halted) :
    (raiseCause kind origin channel zone s).sc.state = .braking
      ∧ ∀ k, (raiseCause kind origin channel zone s).mo.get k =
          if isAxis s k = true then (cutChannel k s).mo.get k else s.mo.get k := by
  by_cases hbraking : s.sc.state = .braking
  · have hcause : raiseCause kind origin channel zone s =
        forChans cutChannel (axisChans s) (recordCause kind origin channel zone s) := by
      have hnone : (decide (kind ≠ .peerStop) && underWay s.sc.state) = false := by simp [underWay, hbraking]
      have hact : ∀ t : State, t.sc.state = .braking → actOnCause true t = forChans cutChannel (axisChans t) t :=
        fun t ht => by simp [actOnCause, ht]
      simp only [raiseCause, hcut, hnone]
      exact hact _ hbraking
    obtain ⟨hreads, hmo⟩ := cutAll (axisChans s) (axisChans_nodup s) (recordCause kind origin channel zone s)
    rw [hcause]
    refine ⟨by rw [hreads.sc]; exact hbraking, fun k => ?_⟩
    rw [hmo k, cutChannel_own k s (recordCause kind origin channel zone s) rfl rfl]
    simp only [mem_axisChans]
    rfl
  · obtain ⟨hstate, -, -, -, -, hmo⟩ := raiseCause_cut kind origin channel zone s hcut
      (by cases h : s.sc.state <;> simp_all [underWay])
    exact ⟨hstate, hmo⟩

/-- A cause met in RUN ends the take work (R167). -/
theorem raiseCause_noWork (hcut : isCut kind = true) (hrun : s.sc.state = .run) :
    NoWork (raiseCause kind origin channel zone s) := by
  have hphase : ∀ t : State, t.sc.state = .run → workingPhase (actOnCause true t).te.phase = false := fun t ht => by
    have hact : actOnCause true t = enterBrakingCut t := by simp [actOnCause, ht]
    rw [hact, enterBrakingCut, ht]
    exact stopNotice_phase _ _ (by decide)
  refine ⟨?_, fun k => ?_⟩
  · unfold raiseCause
    rw [hcut]
    exact hphase _ (by split <;> exact hrun)
  · rw [(raiseCause_runs kind origin channel zone s k).2, if_pos hrun]
    exact stoppedRun_not_inRun _ _

end

/-- What cutting does to a channel that is not in OFF (R118). -/
theorem cutChannel_driven {k : Chan} {s : State} (h : (s.mo.get k).mode ≠ .off) :
    (cutChannel k s).mo.get k =
      { s.mo.get k with
        mode := .off, v := 0, integ := 0, u := 0, p := (s.fb.get k).x * 256, following := false
        pwmHigh := 0, pwmNext := 0, dir := false, dirNext := false } := by
  rw [cutChannel, if_neg h, requestOff, modMo_get]

/-! ## The preparation of an update that raises no cause it could tell (R43, R44, R46) -/

/-- What an update's preparation leaves alone: all that a cause reads or makes, and a following condition that is not present. -/
structure Undisturbed (ch : Chan) (s t : State) : Prop where
  su : t.su = s.su
  cfg : t.cfg = s.cfg
  ft : t.ft = s.ft
  sc : t.sc = s.sc
  tk : t.tk = s.tk
  following : (s.mo.get ch).following = false → (t.mo.get ch).following = false

section
variable {ch : Chan} {s t u : State}

theorem Undisturbed.refl (ch : Chan) (s : State) : Undisturbed ch s s := ⟨rfl, rfl, rfl, rfl, rfl, id⟩

theorem Undisturbed.trans (h : Undisturbed ch s t) (g : Undisturbed ch t u) : Undisturbed ch s u :=
  ⟨g.su.trans h.su, g.cfg.trans h.cfg, g.ft.trans h.ft, g.sc.trans h.sc, g.tk.trans h.tk, g.following ∘ h.following⟩

theorem timed_undisturbed (ch : Chan) (time : Word) (s : State) : Undisturbed ch s (timed ch time s) := by
  rw [timed_eq]
  exact ⟨rfl, rfl, rfl, rfl, rfl, fun hf => by rw [PerChan.get_set]; exact hf⟩

theorem refreshLocal_undisturbed (ch : Chan) (s : State) : Undisturbed ch s (refreshLocal ch s) := by
  rw [refreshLocal_frame]; exact ⟨rfl, rfl, rfl, rfl, rfl, id⟩

theorem noteMapClamped_undisturbed (ch : Chan) (s : State) : Undisturbed ch s (noteMapClamped ch s) := by
  rw [noteMapClamped_frame]; exact ⟨rfl, rfl, rfl, rfl, rfl, id⟩

theorem turnBackOff_undisturbed (ch : Chan) (s : State) : Undisturbed ch s (turnBackOff ch s) := by
  simp only [turnBackOff, armCapture]
  split
  · split <;> exact ⟨rfl, rfl, rfl, rfl, rfl, id⟩
  · exact .refl ch s

theorem realign_undisturbed (ch : Chan) (s : State) : Undisturbed ch s (realign ch s) := by
  have hprep := realign_prepared ch s
  obtain ⟨hsu, hft, htk⟩ : (realign ch s).su = s.su ∧ (realign ch s).ft = s.ft ∧ (realign ch s).tk = s.tk := by
    unfold realign; split <;> exact ⟨rfl, rfl, rfl⟩
  exact ⟨hsu, hprep.cfg, hft, hprep.sc, htk, fun hf => hprep.following.trans hf⟩

theorem shifted_undisturbed (ch : Chan) (δ : Int) (s : State) : Undisturbed ch s (shifted ch δ s) :=
  ⟨rfl, rfl, rfl, rfl, rfl, fun hf => (shifted_prepared ch δ s).following.trans hf⟩

/-- A CUT cause that leaves the stop controller as it was is one that HALTED or BRAKING already holds, with its count at 255. -/
theorem raiseChannel_undisturbed {kind : CauseKind} (hcut : isCut kind = true)
    (hsc : (raiseChannel kind ch s).sc = s.sc) : Undisturbed ch s (raiseChannel kind ch s) := by
  have hsame := raiseCause_same kind (stationByte s) (BitVec.ofNat 8 ch.number) 0 s
  have hquiet : underWay s.sc.state = false := by
    cases hunder : underWay s.sc.state with
    | false => rfl
    | true =>
      have hbraking := (raiseCause_cut kind (stationByte s) (BitVec.ofNat 8 ch.number) 0 s hcut (.inl hunder)).1
      have hstate : s.sc.state = .braking := by rw [← hsc]; exact hbraking
      simp [hstate, underWay] at hunder
  refine ⟨hsame.su, hsame.cfg, hsame.ft, hsc, (raiseCause_notUnderWay _ _ _ hquiet).2, fun hf => ?_⟩
  by_cases hhalted : s.sc.state = .halted
  · rw [raiseChannel, raiseCause_halted _ _ _ _ _ hhalted]; exact hf
  · rw [raiseChannel, (raiseCause_cut_mo _ _ _ hcut hhalted).2]
    split
    · by_cases hoff : (s.mo.get ch).mode = .off
      · rw [cutChannel, if_pos hoff]; exact hf
      · rw [cutChannel_driven hoff]
    · exact hf

theorem applyOffset_undisturbed (haxis : isAxis s ch = true) (hsc : (applyOffset ch s).sc = s.sc) :
    Undisturbed ch s (applyOffset ch s) := by
  cases hoff : (s.rf.get ch).offset with
  | none => rw [applyOffset_none hoff]; exact .refl ch s
  | some δ =>
    rw [applyOffset_some hoff, feedbackOnset_axis (s := shifted ch δ s) haxis] at hsc ⊢
    split
    · next honset =>
      rw [if_pos honset] at hsc
      exact (shifted_undisturbed ch δ s).trans (raiseChannel_undisturbed rfl hsc)
    · exact shifted_undisturbed ch δ s

theorem prepared_undisturbed (haxis : isAxis s ch = true) (hsc : (prepared ch s).sc = s.sc) :
    Undisturbed ch s (prepared ch s) := by
  have hbefore := (refreshLocal_undisturbed ch s).trans (turnBackOff_undisturbed ch _)
  have hafter := (realign_undisturbed ch _).trans (noteMapClamped_undisturbed ch (realign ch (applyOffset ch
    (turnBackOff ch (refreshLocal ch s)))))
  have hshift : Undisturbed ch (turnBackOff ch (refreshLocal ch s)) (applyOffset ch (turnBackOff ch (refreshLocal ch s))) :=
    applyOffset_undisturbed (by rw [isAxis, chanCfg, hbefore.cfg]; exact haxis)
      (hafter.sc.symm.trans (hsc.trans hbefore.sc.symm))
  exact hbefore.trans (hshift.trans hafter)

end

/-! ## The onset (R33) -/

/-- The following condition is one of a channel not in OFF, outside an END_STOPS run (R33). -/
theorem updateRecord_following {i : UpdateInput} {c : ChanCfg} {m : Motion} (h : (updateRecord i c m).following = true) :
    m.mode ≠ .off ∧ c.feLimit < (updateRecord i c m).ep.natAbs ∧ i.endStops = false := by
  have hmode : m.mode ≠ .off := fun hoff => by
    rw [updateRecord_off i c hoff] at h
    exact Bool.false_ne_true h
  have hnow : followingNow i c (updateRecord i c m).ep = true := by
    simp only [updateRecord, if_neg hmode] at h ⊢
    exact h
  simp only [followingNow, Bool.and_eq_true, decide_eq_true_eq, Bool.not_eq_true'] at hnow
  exact ⟨hmode, hnow⟩

/-- After a CUT cause the station is in BRAKING, or in HALTED as before. -/
theorem raiseChannel_cut_state {kind : CauseKind} (hcut : isCut kind = true) (ch : Chan) (s : State) :
    (raiseChannel kind ch s).sc.state = if s.sc.state = .halted then .halted else .braking := by
  by_cases h : s.sc.state = .halted
  · rw [raiseChannel, raiseCause_halted _ _ _ _ _ h, if_pos h]; exact h
  · rw [if_neg h]; exact (raiseCause_cut_mo _ _ _ hcut h).1

/-- An onset by an update's record raises FOLLOWING once, whatever takes the record before and after it. -/
theorem servoUpdate_onset {ch : Chan} {s : State} (honset : onsetIn ch (prepared ch s) = true) :
    ∃ v, RecordTaken (recorded ch (prepared ch s)) v ∧ RecordTaken (raiseChannel .following ch v) (servoUpdate ch s)
      ∧ ((prepared ch s).sc.state = .run → NoWork (servoUpdate ch s)) := by
  rw [servoUpdate_eq, honset]
  generalize hr : recorded ch (prepared ch s) = r
  have hsc : r.sc = (prepared ch s).sc := by rw [← hr]; rfl
  have htaken : ∃ v, RecordTaken r v ∧ RecordTaken (raiseChannel .following ch v) (inAnyOrder (recordTakers true ch) r)
      ∧ (r.sc.state = .run → NoWork (inAnyOrder (recordTakers true ch) r)) := by
    refine inAnyOrder_around (RecordTaken r) (fun t => ∃ v, RecordTaken r v ∧ RecordTaken (raiseChannel .following ch v) t
      ∧ (r.sc.state = .run → NoWork t)) (followingOnset true ch) [afterUpdate ch, takeAfterUpdate ch] r ?_ ?_ ?_ ?_
    · intro f hf t ht
      simp only [List.mem_cons, List.not_mem_nil, or_false] at hf
      rcases hf with rfl | rfl
      · exact ht.trans (afterUpdate_taken ch t)
      · exact ht.trans (takeAfterUpdate_taken ch t)
    · exact fun t ht => ⟨t, ht, .refl _, fun hrun => raiseCause_noWork _ _ _ rfl (by rw [ht.sc]; exact hrun)⟩
    · rintro f hf t ⟨v, hv, ht, hwork⟩
      simp only [List.mem_cons, List.not_mem_nil, or_false] at hf
      rcases hf with rfl | rfl
      · exact ⟨v, hv, ht.trans (afterUpdate_taken ch t), fun hrun => (hwork hrun).afterUpdate ch⟩
      · exact ⟨v, hv, ht.trans (takeAfterUpdate_taken ch t), fun hrun => (hwork hrun).takeAfterUpdate ch⟩
    · exact fun _ _ => ⟨rfl, rfl, rfl, rfl, rfl, rfl, fun _ => rfl, fun _ h => h, fun _ => rfl⟩
  obtain ⟨v, hv, ht, hwork⟩ := htaken
  have hnoReport : velocityReport (inAnyOrder (recordTakers true ch) r) = inAnyOrder (recordTakers true ch) r := by
    refine velocityReport_moving fun hstopping => ?_
    rw [ht.sc, raiseChannel_cut_state rfl] at hstopping
    split at hstopping <;> cases hstopping
  rw [hnoReport]
  exact ⟨v, hv, ht, by rwa [hsc] at hwork⟩

/-- Outside HALTED the onset cuts every AXIS channel, and what takes the record afterwards leaves them cut (R118, R121). -/
theorem onset_cut {ch : Chan} {v t : State} (ht : RecordTaken (raiseChannel .following ch v) t) (hhalted : v.sc.state ≠ .halted)
    (haxis : isAxis v ch = true) (hdriven : (v.mo.get ch).mode ≠ .off) :
    t.sc.state = .braking ∧ (∀ k, isAxis v k = true → (t.mo.get k).mode = .off)
      ∧ t.mo.get ch = { v.mo.get ch with
          mode := .off, v := 0, integ := 0, u := 0, p := (t.fb.get ch).x * 256, following := false
          pwmHigh := 0, pwmNext := 0, dir := false, dirNext := false } := by
  obtain ⟨hstate, hmo⟩ := raiseCause_cut_mo (kind := .following) (s := v) (stationByte v) (BitVec.ofNat 8 ch.number) 0 rfl hhalted
  have hafter : ∀ k, isAxis v k = true → t.mo.get k = (cutChannel k v).mo.get k := fun k hk => by
    rw [ht.stopped (by rw [raiseChannel, hstate]; decide), raiseChannel, hmo k, if_pos hk]
  have hx : (t.fb.get ch).x = (v.fb.get ch).x := (ht.x ch).trans ((raiseCause_same _ _ _ _ _).x ch)
  refine ⟨by rw [ht.sc]; exact hstate, fun k hk => ?_, ?_⟩
  · rw [hafter k hk]; exact cutChannel_mode k v
  · rw [hafter ch haxis, cutChannel_driven hdriven, hx]

/-- The records of the onset, and the STOP body it makes in RUN and RELEASING, are those of the station before the update (R120, R127). -/
theorem onset_records {ch : Chan} {s v t : State} (ht : RecordTaken (raiseChannel .following ch v) t) (hsc : v.sc = s.sc)
    (hft : v.ft = s.ft) (hsu : v.su = s.su) (htk : v.tk = s.tk) :
    t.sc.last = some (channelCause .following ch s) ∧ t.sc.causes = satIncr 255 s.sc.causes
      ∧ (underWay s.sc.state = true → t.sc.first = some (channelCause .following ch s) ∧ t.sc.stopSerial = s.sc.stopSerial + 1
          ∧ t.tk.stopSlot = some
              { body :=
                  { origin := stationByte s, kind := .following, channel := BitVec.ofNat 8 ch.number, zone := 0
                    frame := s.ft.count, serial := s.sc.stopSerial }
                repeats := 3 })
      ∧ (underWay s.sc.state = false →
          t.sc.first = s.sc.first ∧ t.sc.stopSerial = s.sc.stopSerial ∧ t.tk = s.tk) := by
  obtain ⟨hlast, hfirst, hcauses⟩ := raiseChannel_records .following ch v
  have hbyte : stationByte v = stationByte s := by rw [stationByte, hsu]; rfl
  have hcause : channelCause .following ch v = channelCause .following ch s := by
    rw [channelCause, hbyte, hft, hsc]; rfl
  rw [hcause] at hlast hfirst
  rw [ht.sc, ht.tk, hlast, hfirst, hcauses, hsc]
  refine ⟨rfl, rfl, fun h => ?_, fun h => ?_⟩
  · obtain ⟨hserial, hslot⟩ := raiseCause_underWay (kind := .following) (s := v) (stationByte v) (BitVec.ofNat 8 ch.number) 0
      (by decide) (by rwa [hsc])
    rw [hbyte, hft, hsc] at hslot
    exact ⟨if_pos h, hserial.trans (by rw [hsc]), by rw [← hslot, ← hbyte]; rfl⟩
  · obtain ⟨hserial, hsame⟩ := raiseCause_notUnderWay (kind := .following) (s := v) (stationByte v) (BitVec.ofNat 8 ch.number) 0
      (by rwa [hsc])
    rw [h]
    exact ⟨rfl, hserial.trans (by rw [hsc]), hsame.trans htk⟩

end Sys2Proof.Machine
end

section
/-! PROOFS. Servo updates at a stop, as events: the report that ends the ramp, and the statement (R39, R122). -/

namespace Sys2Proof.Machine

/-- Every enabled channel is at rest when the updated one is, and every other (R122). -/
theorem allAtRest_heldUpdate {ch : Chan} {k : Word} {b : Binding} {m : Motion} {order : List Nat} {draws : Nat} {s w : State}
    (haxis : isAxis s ch = true) (hmode : m.mode = .hold) (hw : heldUpdate ch k b m order draws s = w) :
    allAtRest w = true ↔ m.v = 0 ∧ ∀ k, k ≠ ch → isAxis s k = true → (s.mo.get k).mode ≠ .off → (s.mo.get k).v = 0 := by
  have hown : w.mo.get ch = m := by rw [← hw]; exact PerChan.get_set _ _ _
  have hother : ∀ k, k ≠ ch → w.mo.get k = s.mo.get k := fun k hk => by rw [← hw]; exact PerChan.get_set_ne _ _ _ _ hk
  have hchans : ∀ k, isAxis w k = isAxis s k := fun k => by rw [← hw]; rfl
  rw [allAtRest_iff]
  simp only [hchans]
  refine ⟨fun h => ⟨?_, fun k hk => ?_⟩, fun ⟨hv, h⟩ k => ?_⟩
  · have hv := h ch haxis
    rw [hown, hmode] at hv
    exact hv (by decide)
  · rw [← hother k hk]; exact h k
  · by_cases hk : k = ch
    · rw [hk, hown]; exact fun _ _ => hv
    · rw [hother k hk]; exact h k hk

/-- The report of v′ does nothing, or the last channel at rest ends the ramp in BRAKING with the drives enabled (R39, R122). -/
theorem velocityReport_heldUpdate {ch : Chan} {k : Word} {b : Binding} {m : Motion} {order : List Nat} {draws : Nat} {s w t : State}
    {rest : Prop} (haxis : isAxis s ch = true) (hmode : m.mode = .hold) (hw : heldUpdate ch k b m order draws s = w)
    (hrest : rest ↔ s.sc.state = .stopping ∧ m.v = 0
      ∧ ∀ k, k ≠ ch → isAxis s k = true → (s.mo.get k).mode ≠ .off → (s.mo.get k).v = 0) (ht : velocityReport w = t) :
    t = { w with
        sc := t.sc, dk := { s.dk with lamps := { s.dk.lamps with stopped := t.dk.lamps.stopped } } }
      ∧ (¬rest → t.sc = s.sc ∧ t.dk = s.dk)
      ∧ (rest →
          t.sc = { s.sc with
            state := .braking, brakeReleased := false, stopTimer := none, releaseTimer := none
            brakeTimer := some (after t.clock (s.cfg.brakeEngage * 1000)) }
          ∧ drvEn t ch = true ∧ ∀ k, brk t k = false) := by
  have hstate : w.sc = s.sc := by rw [← hw]; rfl
  have hdk : w.dk = s.dk := by rw [← hw]; rfl
  have hcfg : w.cfg = s.cfg := by rw [← hw]; rfl
  have hends : w.sc.state = .stopping ∧ allAtRest w = true ↔ rest := by
    rw [allAtRest_heldUpdate haxis hmode hw, hstate, hrest]
  obtain ⟨hr, hwhy⟩ | ⟨hr, hstopping, hall⟩ := velocityReport_cases w <;> rw [← ht, hr]
  · refine ⟨by rw [← hdk], fun _ => ⟨hstate, hdk⟩, fun h => ?_⟩
    obtain ⟨hstopping, hall⟩ := hends.mpr h
    exact absurd hwhy (by simp [hstopping, hall])
  · have hdriving : (w.mo.get ch).mode ≠ .off := by rw [← hw, heldUpdate, PerChan.get_set, hmode]; decide
    have hchan : isAxis w ch = true := by rw [← hw]; exact haxis
    rw [enterBraking_stopping hstopping]
    refine ⟨by rw [← hdk], fun h => absurd (hends.mp ⟨hstopping, hall⟩) h, fun _ => ⟨?_, ?_, fun k => Bool.and_false _⟩⟩
    · rw [← hstate, ← hcfg]
    · show (isAxis w ch && decide ((w.mo.get ch).mode ≠ .off)) = true
      rw [hchan, decide_eq_true hdriving]; rfl

/-- Settles O21: the ramp from the new velocity in STOPPING, the updates in HOLD with the report that ends it, and the onset of
FOLLOWING. -/
theorem updatesAtAStop : Obligations.UpdatesAtAStop := by
  refine ⟨?ramp, ?held, ?onset⟩
  case ramp =>
    intro i c t p v hstop hpos hneg
    rw [newVelocity_eq, escape_free hpos hneg, limitedVelocity_stopping hstop, clampInt_ramp]
  case held =>
    intro ch time s hnext hmode haxis hstate hoffset hidle hcue hplay
    have hupdate := fun m => exec_servoUpdate_held (m := m) hnext hmode hoffset hidle hcue hplay
    obtain ⟨hkeepMode, hkeepHold, -⟩ := realigned_keeps (s.fb.get ch).x (s.rf.get ch) (s.mo.get ch)
    obtain ⟨htarget, hbase, hpoint⟩ := updateInput_hold hmode
    simp only []
    generalize hm₀ : (if (s.rf.get ch).realign = true then _ else s.mo.get ch) = m₀
    change realigned _ _ _ = m₀ at hm₀
    rw [hm₀] at hkeepMode hkeepHold hupdate
    have hdriven := updateRecord_driven (i := updateInput s ch) (chanCfg s ch)
      (m := { m₀ with nextUpdate := some (after time 1000) }) (by rw [show Motion.mode _ = _ from hkeepMode, hmode]; decide)
    have hrecMode := updateRecord_mode (updateInput s ch) (chanCfg s ch) { m₀ with nextUpdate := some (after time 1000) }
    generalize updateRecord (updateInput s ch) (chanCfg s ch) _ = m at hdriven hrecMode hupdate ⊢
    intro honset
    obtain ⟨b, order, draws, hexec⟩ := hupdate m rfl honset
    obtain ⟨hv, hhold⟩ := hdriven
    generalize hw : heldUpdate ch (advanceTo time s).clock b m order draws s = w at hexec
    refine ⟨htarget, hbase, hpoint, rfl, fun hstopping => ⟨?_, ?_⟩, fun hnot => ?_, velocityReport w, hexec, ?report⟩
    · rw [hhold, if_pos ⟨by simpa [updateInput] using hstopping, hkeepMode.trans hmode⟩]
    · exact hv.trans (newVelocity_stopping_natAbs_le (by simpa [updateInput] using hstopping) _ _ _ _)
    · rw [hhold, if_neg (by simp [updateInput, hnot])]; exact hkeepHold
    case report =>
      have hreport := velocityReport_heldUpdate haxis (hrecMode.trans (hkeepMode.trans hmode)) hw Iff.rfl (rfl : velocityReport w = _)
      generalize velocityReport w = t at hreport
      obtain ⟨hframe, hnot, hbraking⟩ := hreport
      refine ⟨?_, hnot, hbraking⟩
      have hbd : s.bd.set ch (t.bd.get ch) = t.bd := by rw [hframe, ← hw]; simp [heldUpdate]
      rw [hbd, hframe, ← hw]
      rfl
  case onset =>
    intro ch time s hnext haxis hdriven hfollowing
    simp only []
    have honset := servoUpdate_onset (ch := ch) (s := timed ch time s)
    have hquiet := prepared_undisturbed (ch := ch) (s := timed ch time s) (by rw [timed_eq]; exact haxis)
    generalize hs₁ : noteMapClamped ch _ = s₁
    change prepared ch (timed ch time s) = s₁ at hs₁
    rw [hs₁] at honset hquiet
    intro hsc hfollows
    have hbase : Undisturbed ch s s₁ :=
      (timed_undisturbed ch time s).trans (hquiet (hsc.trans (timed_undisturbed ch time s).sc.symm))
    have hcfg : chanCfg s₁ ch = chanCfg s ch := by rw [chanCfg, hbase.cfg]; rfl
    have hrecMode := updateRecord_mode (updateInput s₁ ch) (chanCfg s ch) (s₁.mo.get ch)
    obtain ⟨hmode₁, hlimit, hends⟩ := updateRecord_following hfollows
    have hmRec : (recorded ch s₁).mo.get ch = updateRecord (updateInput s₁ ch) (chanCfg s ch) (s₁.mo.get ch) := by
      rw [recorded, modMo_get, hcfg]
    obtain ⟨v, hv, ht, hwork⟩ := honset (by rw [onsetIn, hmRec, hfollows, hbase.following hfollowing]; rfl)
    generalize hupdate : servoUpdate ch (timed ch time s) = t at ht hwork
    have hvsc : v.sc = s.sc := hv.sc.trans hsc
    have hvft : v.ft = s.ft := hv.ft.trans hbase.ft
    have hvsu : v.su = s.su := hv.su.trans hbase.su
    have hvcfg : v.cfg = s.cfg := hv.cfg.trans hbase.cfg
    have hvtk : v.tk = s.tk := hv.tk.trans hbase.tk
    have hvmode : (v.mo.get ch).mode ≠ .off := hv.driven ch (by rw [hmRec, hrecMode]; exact hmode₁)
    have hvaxis : ∀ k, isAxis v k = isAxis s k := fun k => by rw [isAxis, chanCfg, hvcfg]; rfl
    obtain ⟨hlast, hcauses, hmade, hkept⟩ := onset_records ht hvsc hvft hvsu hvtk
    have hunder : underWay s.sc.state = true ↔ s.sc.state = .run ∨ s.sc.state = .releasing := by simp [underWay]
    refine ⟨⟨hlimit, hends⟩, t, (exec_servoUpdate hnext).trans (congrArg _ hupdate), hlast, hcauses, fun h => hmade (hunder.mpr h),
      fun h => hkept (by rwa [← hunder, Bool.not_eq_true] at h), fun hrun => hwork (by rwa [hsc]), fun h => ?cut, fun h hb => ?brake,
      fun h => ?halted⟩
    case cut =>
      obtain ⟨hstate, hoff, hown⟩ := onset_cut ht (by rwa [hvsc]) ((hvaxis ch).trans haxis) hvmode
      refine ⟨hstate, fun k hk => ?_, ?_, ?_⟩
      · have hkoff := hoff k ((hvaxis k).trans hk)
        exact ⟨hkoff, by rw [drvEn, hkoff]; exact Bool.and_false _⟩
      · rw [hown]; exact ⟨rfl, rfl, rfl, rfl, rfl⟩
      · simp [pwmLevel, hown]
    case brake =>
      obtain ⟨-, hreleased, hstop, hrelease, hbrake, -⟩ := raiseCause_cut .following (stationByte v) (BitVec.ofNat 8 ch.number) 0 v rfl
        (by rw [hvsc]; cases hs : s.sc.state <;> simp_all [underWay])
      rw [ht.sc, ht.clock]
      refine ⟨hreleased, hstop, hrelease, hbrake.trans ?_⟩
      rw [raiseChannel, (raiseCause_same _ _ _ _ _).clock, hvcfg]
    case halted =>
      rw [ht.sc, raiseChannel, raiseCause_halted _ _ _ _ _ (by rwa [hvsc])]
      exact ⟨by rw [recordCause_state, hvsc, h], congrArg (fun c => c.brakeReleased) hvsc⟩

end Sys2Proof.Machine
end

section
/-! PROOFS. Operations on one channel: each reads and changes the records of its own channel alone, so that carried out for several
channels in turn it leaves each of them as if it were the only one. -/

namespace Sys2Proof.Machine

/-- Two stations are the same besides the records of their channels. -/
def SameBeside (s t : State) : Prop := t = { s with fb := t.fb, mo := t.mo, rf := t.rf, bd := t.bd }

/-- The records of one channel are the same in two stations. -/
structure SameRecords (ch : Chan) (s t : State) : Prop where
  fb : t.fb.get ch = s.fb.get ch
  mo : t.mo.get ch = s.mo.get ch
  rf : t.rf.get ch = s.rf.get ch
  bd : t.bd.get ch = s.bd.get ch

/-- Two stations that an operation on one channel cannot tell apart. -/
structure SameFor (ch : Chan) (s t : State) : Prop extends SameRecords ch s t where
  beside : SameBeside s t

/-- An operation on one channel: it changes that channel's records alone, and reads of the channels no other's. -/
structure OnChannel (ch : Chan) (f : State → State) : Prop where
  beside : ∀ s, SameBeside s (f s)
  other : ∀ s c, c ≠ ch → SameRecords c s (f s)
  own : ∀ s t, SameFor ch s t → SameRecords ch (f s) (f t)

section
variable {ch c : Chan} {s t u : State} {f g : State → State}

theorem SameBeside.refl (s : State) : SameBeside s s := rfl

theorem SameBeside.trans (h : SameBeside s t) (g : SameBeside t u) : SameBeside s u := by
  unfold SameBeside at *
  rw [g, h]

theorem SameBeside.cfg (h : SameBeside s t) : t.cfg = s.cfg := (congrArg State.cfg h :)
theorem SameBeside.sc (h : SameBeside s t) : t.sc = s.sc := (congrArg State.sc h :)
theorem SameBeside.clock (h : SameBeside s t) : t.clock = s.clock := (congrArg State.clock h :)
theorem SameBeside.su (h : SameBeside s t) : t.su = s.su := (congrArg State.su h :)

theorem SameBeside.chanCfg (h : SameBeside s t) (c : Chan) : chanCfg t c = chanCfg s c := by rw [Machine.chanCfg, h.cfg]; rfl

theorem SameRecords.refl (ch : Chan) (s : State) : SameRecords ch s s := ⟨rfl, rfl, rfl, rfl⟩

theorem SameRecords.trans (h : SameRecords ch s t) (g : SameRecords ch t u) : SameRecords ch s u :=
  ⟨g.fb.trans h.fb, g.mo.trans h.mo, g.rf.trans h.rf, g.bd.trans h.bd⟩

theorem OnChannel.keep (ch : Chan) : OnChannel ch (fun s => s) := ⟨.refl, fun s c _ => .refl c s, fun _ _ h => h.toSameRecords⟩

/-- Stations alike for a channel are alike for it after an operation on it. -/
theorem OnChannel.sameFor (hf : OnChannel ch f) (h : SameFor ch s t) : SameFor ch (f s) (f t) where
  toSameRecords := hf.own s t h
  beside := by
    have hs := hf.beside s
    have ht := hf.beside t
    have hst := h.beside
    unfold SameBeside at *
    rw [ht, hst, hs]

theorem OnChannel.comp (hf : OnChannel ch f) (hg : OnChannel ch g) : OnChannel ch (fun s => f (g s)) where
  beside s := (hg.beside s).trans (hf.beside _)
  other s c hc := (hg.other s c hc).trans (hf.other _ c hc)
  own _ _ h := hf.own _ _ (hg.sameFor h)

/-- A case split that a channel's records decide. -/
theorem OnChannel.ite {p : State → Prop} [DecidablePred p] (hp : ∀ s t, SameFor ch s t → (p t ↔ p s)) (hf : OnChannel ch f)
    (hg : OnChannel ch g) : OnChannel ch (fun s => if p s then f s else g s) where
  beside s := by split; exacts [hf.beside s, hg.beside s]
  other s c hc := by split; exacts [hf.other s c hc, hg.other s c hc]
  own s t h := by simp only [hp s t h]; split; exacts [hf.own s t h, hg.own s t h]

/-- Carried out for several channels in turn, an operation leaves each of them as if it were the only one, by induction on the list. -/
theorem OnChannel.forChans {f : Chan → State → State} (hf : ∀ ch, OnChannel ch (f ch)) (chans : List Chan) (hnodup : chans.Nodup)
    (s : State) :
    SameBeside s (Machine.forChans f chans s)
      ∧ ∀ ch, SameRecords ch (if ch ∈ chans then f ch s else s) (Machine.forChans f chans s) := by
  induction chans generalizing s with
  | nil => exact ⟨.refl s, fun ch => .refl ch s⟩
  | cons c rest ih =>
    obtain ⟨hc, hrest⟩ := List.nodup_cons.mp hnodup
    obtain ⟨hbeside, hrecords⟩ := ih hrest (f c s)
    refine ⟨((hf c).beside s).trans hbeside, fun ch => ?_⟩
    refine SameRecords.trans ?_ (hrecords ch)
    by_cases hch : ch = c
    · subst hch; simpa [hc] using SameRecords.refl ch (f ch s)
    · by_cases hmem : ch ∈ rest
      · simpa [hmem] using (hf ch).own s (f c s) ⟨(hf c).other s ch hch, (hf c).beside s⟩
      · simpa [hmem, hch] using (hf c).other s ch hch

/-! ## Updates of one channel's records -/

theorem OnChannel.modFb {g : State → Feedback → Feedback} (hg : ∀ s t, SameFor ch s t → g t = g s) :
    OnChannel ch (fun s => modFb ch (g s) s) where
  beside _ := rfl
  other s c hc := ⟨modFb_get_ne _ _ _ _ hc, rfl, rfl, rfl⟩
  own s t h := ⟨by simp [hg s t h, h.fb], h.mo, h.rf, h.bd⟩

theorem OnChannel.modMo {g : State → Motion → Motion} (hg : ∀ s t, SameFor ch s t → g t = g s) :
    OnChannel ch (fun s => modMo ch (g s) s) where
  beside _ := rfl
  other s c hc := ⟨rfl, modMo_get_ne _ _ _ _ hc, rfl, rfl⟩
  own s t h := ⟨h.fb, by simp [hg s t h, h.mo], h.rf, h.bd⟩

theorem OnChannel.modRf {g : State → Reference → Reference} (hg : ∀ s t, SameFor ch s t → g t = g s) :
    OnChannel ch (fun s => modRf ch (g s) s) where
  beside _ := rfl
  other s c hc := ⟨rfl, rfl, modRf_get_ne _ _ _ _ hc, rfl⟩
  own s t h := ⟨h.fb, h.mo, by simp [hg s t h, h.rf], h.bd⟩

theorem OnChannel.modBd {g : State → Binding → Binding} (hg : ∀ s t, SameFor ch s t → g t = g s) :
    OnChannel ch (fun s => modBd ch (g s) s) where
  beside _ := rfl
  other s c hc := ⟨rfl, rfl, rfl, modBd_get_ne _ _ _ _ hc⟩
  own s t h := ⟨h.fb, h.mo, h.rf, by simp [hg s t h, h.bd]⟩

/-- R22 reads of a station its stop state, and of the channel its records and its configuration. -/
theorem SameFor.refusal (h : SameFor ch s t) (r : ModeRequest) : refusal r ch t = refusal r ch s := by
  unfold Machine.refusal referenced
  rw [h.beside.sc, h.beside.chanCfg, h.mo, h.rf]

theorem OnChannel.ask {r : State → ModeRequest} (hr : ∀ s t, SameFor ch s t → r t = r s) : OnChannel ch (fun s => ask (r s) ch s) := by
  have hask : (fun s => Machine.ask (r s) ch s)
      = fun s => if refusal (r s) ch s = none then Machine.modMo ch (acceptMode (r s)) s else s := by
    funext s
    obtain ⟨h, hwhy⟩ | ⟨h, hwhy⟩ := ask_cases (r s) ch s <;> simp [h, hwhy]
  rw [hask]
  exact .ite (fun s t h => by rw [hr s t h, h.refusal]) (.modMo fun s t h => by rw [hr s t h]) (.keep ch)

end

theorem chanList_nodup : Chan.list.Nodup := by decide

@[simp] theorem mem_chanList (ch : Chan) : ch ∈ Chan.list := by cases ch <;> decide

end Sys2Proof.Machine
end

section
/-! PROOFS. REFERENCE: what the start of a run makes of its channel's records (R42, R43). -/

namespace Sys2Proof.Machine

variable {ch : Chan} {s t : State}

@[simp] theorem perChan_set_get {α : Type} (t : PerChan α) (ch : Chan) : t.set ch (t.get ch) = t := by cases ch <;> rfl

theorem modFb_eq_self {f : Feedback → Feedback} (h : f (s.fb.get ch) = s.fb.get ch) : modFb ch f s = s := by
  simp [modFb, h]

/-- What a run arms its capture for when it enters SEARCH_1: a back-off waits for the home switch first, and only a quadrature AXIS
channel arms (R7, R43). -/
def runSource (c : ChanCfg) (back : Bool) : Option CaptureSource :=
  if c.kind = .axis && !c.analog then
    match c.refKind with
    | .index => some .index
    | .switch => if back then none else some (homeSource c)
    | .endStops | .absolute => none
  else none

/-- A feedback record with its capture armed, where there is a source to arm for. -/
def armedWith : Option CaptureSource → Feedback → Feedback
  | none, f => f
  | some source, f => { f with capture := .armed source, provisional := none }

@[simp] theorem armedWith_x (source : Option CaptureSource) (f : Feedback) : (armedWith source f).x = f.x := by cases source <;> rfl

theorem armForRun_eq (ch : Chan) (back : Bool) (s : State) :
    armForRun ch back s = modFb ch (armedWith (runSource (chanCfg s ch) back)) s := by
  have hnone : modFb ch (armedWith none) s = s := modFb_eq_self rfl
  have harm : ∀ source, armCapture source ch s
      = modFb ch (armedWith (if (chanCfg s ch).kind = .axis && !(chanCfg s ch).analog then some source else none)) s := by
    intro source
    unfold armCapture isAxis
    split
    · rfl
    · exact hnone.symm
  unfold armForRun runSource
  cases (chanCfg s ch).refKind with
  | index => exact harm _
  | switch =>
    cases back with
    | true => simp [hnone]
    | false => exact harm _
  | endStops => simp [hnone]
  | absolute => simp [hnone]

/-- Whether a run on this channel begins with a back-off (R43). -/
def backsOff (s : State) (ch : Chan) : Bool := beginsBackOff (chanCfg s ch) (s.fb.get ch)

/-- The channel's records as the run enters SEARCH_1: REF in the motion record, the run's own record, the capture armed. -/
def runBegun (ch : Chan) (s : State) : State :=
  modFb ch (armedWith (runSource (chanCfg s ch) (backsOff s ch)))
    (modRf ch (beginRun s.clock (chanCfg s ch) (backsOff s ch)) (modMo ch (acceptMode .ref) s))

/-- A run starts where one is wanted and REF is accepted; elsewhere nothing changes. -/
theorem startRun_eq (ch : Chan) (s : State) :
    startRun ch s = if wantsRun s ch = true ∧ refusal .ref ch s = none then runBegun ch s else s := by
  unfold startRun
  by_cases hwants : wantsRun s ch = true
  · obtain ⟨why, hrefusal, hrequest⟩ | ⟨hrefusal, hrequest⟩ := request_cases .ref ch s <;>
      simp only [hwants, hrefusal, hrequest, if_true, and_true, reduceCtorEq, and_false, if_false]
    rw [armForRun_eq]; rfl
  · simp [hwants]

theorem SameFor.wantsRun (h : SameFor ch s t) : wantsRun t ch = wantsRun s ch := by
  unfold Machine.wantsRun; rw [h.beside.chanCfg, h.rf]

theorem SameFor.backsOff (h : SameFor ch s t) : backsOff t ch = backsOff s ch := by
  unfold Machine.backsOff; rw [h.beside.chanCfg, h.fb]

theorem startRun_onChannel (ch : Chan) : OnChannel ch (startRun ch) := by
  rw [funext (startRun_eq ch)]
  have harm : OnChannel ch fun s => modFb ch (armedWith (runSource (chanCfg s ch) (Machine.backsOff s ch))) s :=
    .modFb fun s t h => by rw [h.beside.chanCfg, h.backsOff]
  have hbegin : OnChannel ch fun s => modRf ch (beginRun s.clock (chanCfg s ch) (Machine.backsOff s ch)) s :=
    .modRf fun s t h => by rw [h.beside.chanCfg, h.beside.clock, h.backsOff]
  have hmode : OnChannel ch fun s => modMo ch (acceptMode .ref) s := .modMo fun _ _ _ => rfl
  exact .ite (fun s t h => by rw [h.wantsRun, h.refusal]) (harm.comp (hbegin.comp hmode)) (.keep ch)

/-- In RUN a channel in HOLD accepts REF (R22). -/
theorem refusal_ref_hold (hrun : s.sc.state = .run) (hmode : (s.mo.get ch).mode = .hold) : refusal .ref ch s = none := by
  simp [refusal, hrun, hmode, acceptedFrom, needsReference]

/-- A channel that is REFERENCED wants no run (R42). -/
theorem wantsRun_referenced (h : referenced s ch = true) : wantsRun s ch = false := by
  have hstate : (s.rf.get ch).state = .referenced := by simpa [referenced] using h
  simp [wantsRun, hstate]

theorem wantsRun_axis (h : wantsRun s ch = true) : (chanCfg s ch).kind = .axis := by
  simp only [wantsRun, Bool.and_eq_true, decide_eq_true_eq] at h
  exact h.1.1

theorem startRun_x (ch : Chan) (s : State) : ((startRun ch s).fb.get ch).x = (s.fb.get ch).x := by
  rw [startRun_eq]
  split
  · exact (congrArg Feedback.x (modFb_get _ _ _)).trans (armedWith_x _ _)
  · rfl

/-- The three records of a channel whose run has begun. -/
theorem startRun_begins (hwants : wantsRun s ch = true) (hrun : s.sc.state = .run) (hmode : (s.mo.get ch).mode = .hold) :
    (startRun ch s).fb.get ch = armedWith (runSource (chanCfg s ch) (backsOff s ch)) (s.fb.get ch)
      ∧ (startRun ch s).rf.get ch = beginRun s.clock (chanCfg s ch) (backsOff s ch) (s.rf.get ch)
      ∧ (startRun ch s).mo.get ch = { s.mo.get ch with mode := .ref } := by
  rw [startRun_eq, if_pos ⟨hwants, refusal_ref_hold hrun hmode⟩]
  exact ⟨modFb_get _ _ _, modRf_get _ _ _, modMo_get _ _ _⟩

/-- A search goes to the far travel of ref_dir, of the negative stop, or of the other direction while it backs off (R43). -/
theorem beginRun_goal (now : Word) (c : ChanCfg) (back : Bool) (r : Reference) (hback : back = true → c.refKind = .switch) :
    (c.refKind = .endStops → (beginRun now c back r).goal = -Config.maxCount)
      ∧ (c.refKind ≠ .endStops →
          (beginRun now c back r).goal = if c.refNegative = back then Config.maxCount else -Config.maxCount) := by
  refine ⟨fun hends => ?_, fun hother => ?_⟩
  · have hgo : back = false := by cases back <;> simp_all
    simp [beginRun, farTravel, searchNegative, hends, hgo]
  · cases hneg : c.refNegative <;> cases back <;> simp [beginRun, farTravel, searchNegative, hother, hneg]

theorem runSource_back (c : ChanCfg) (h : c.refKind = .switch) : runSource c true = none := by
  simp [runSource, h]

theorem runSource_switch {c : ChanCfg} (hkind : c.kind = .axis) (hanalog : c.analog = false) (h : c.refKind = .switch) :
    runSource c false = some (if c.refNegative then .switchNeg else .switchPos) := by
  simp [runSource, hkind, hanalog, h, homeSource]

theorem runSource_index {c : ChanCfg} (back : Bool) (hkind : c.kind = .axis) (hanalog : c.analog = false) (h : c.refKind = .index) :
    runSource c back = some .index := by
  simp [runSource, hkind, hanalog, h]

/-- Settles O26, channel by channel: a start reads and changes its own channel's records alone. -/
theorem referenceStartsRuns : Obligations.ReferenceStartsRuns := by
  intro s hdesk
  have hexec : exec .reference s = .next (referenceCommand s) := by simp [exec, execReference, deskCommand, hdesk]
  refine ⟨fun htakes => ?taken, fun hnot => ?notTaken⟩
  case notTaken =>
    rw [hexec]
    simp [referenceCommand, hnot]
  case taken =>
    have hrun : s.sc.state = .run := by
      simp only [takesReference, Bool.and_eq_true, decide_eq_true_eq] at htakes
      exact htakes.1.1
    obtain ⟨hbeside, hrecords⟩ := OnChannel.forChans startRun_onChannel Chan.list chanList_nodup s
    refine ⟨forChans startRun Chan.list s, hexec.trans (by simp [referenceCommand, htakes]), hbeside.sc,
      (congrArg State.te hbeside :), (congrArg State.ts hbeside :), fun ch => ?_⟩
    have hch := hrecords ch
    rw [if_pos (mem_chanList ch)] at hch
    rw [hch.fb, hch.rf, hch.mo]
    refine ⟨fun hwants hmode => ?starts, fun href => ?referenced, startRun_x ch s⟩
    case referenced => simp [startRun_eq, wantsRun_referenced href]
    case starts =>
      obtain ⟨hfb, hrf, hmo⟩ := startRun_begins hwants hrun hmode
      rw [hfb, hrf, hmo]
      have haxis := wantsRun_axis hwants
      have hback : backsOff s ch = true → (chanCfg s ch).refKind = .switch := fun h => by
        simp only [backsOff, beginsBackOff, Bool.and_eq_true, decide_eq_true_eq] at h
        exact h.1
      obtain ⟨hends, hother⟩ := beginRun_goal s.clock (chanCfg s ch) (backsOff s ch) (s.rf.get ch) hback
      refine ⟨rfl, rfl, rfl, rfl, rfl, rfl, rfl, rfl, rfl, rfl, hends, hother, fun hswitch hanalog hno => ?_, fun hyes => ?_,
        fun hindex hanalog => ?_⟩
      · rw [show backsOff s ch = false from hno, runSource_switch haxis hanalog hswitch]; rfl
      · rw [show backsOff s ch = true from hyes, runSource_back _ (hback hyes)]; rfl
      · rw [runSource_index _ haxis hanalog hindex]; rfl

end Sys2Proof.Machine
end

section
/-! PROOFS. The run timer, the failure of runs at a stop, and the timers of the source records (R48, R49, R52). -/

namespace Sys2Proof.Machine

variable {ch : Chan} {s : State}

/-- The records of a channel whose run has failed, before HOLD is asked for (R47, R48, R50). -/
def runFailed (reason : FailReason) (ch : Chan) (s : State) : State :=
  modFb ch disarm (modRf ch (clearRun (.failed reason) ((chanCfg s ch).refKind = .endStops)) s)

theorem failRun_eq (reason : FailReason) (ch : Chan) (s : State) :
    failRun reason ch s = ask (.holdBySequencer (endPoint ch s)) ch (runFailed reason ch s) := rfl

/-- The failure of a run changes the records of its channel alone. -/
theorem failRun_frame (reason : FailReason) (ch : Chan) (s : State) :
    failRun reason ch s =
      { s with fb := (runFailed reason ch s).fb, rf := (runFailed reason ch s).rf, mo := (failRun reason ch s).mo } :=
  ask_frame _ _ _

theorem failRun_other {c : Chan} (reason : FailReason) (s : State) (h : c ≠ ch) :
    (failRun reason ch s).rf.get c = s.rf.get c ∧ (failRun reason ch s).mo.get c = s.mo.get c
      ∧ (failRun reason ch s).fb.get c = s.fb.get c := by
  have hframe := failRun_frame reason ch s
  exact ⟨(congrArg (·.rf.get c) hframe).trans (modRf_get_ne _ _ _ _ h), ask_other _ _ _ _ h,
    (congrArg (·.fb.get c) hframe).trans (modFb_get_ne _ _ _ _ h)⟩

theorem failRun_own (reason : FailReason) (ch : Chan) (s : State) :
    (failRun reason ch s).rf.get ch = clearRun (.failed reason) ((chanCfg s ch).refKind = .endStops) (s.rf.get ch)
      ∧ (failRun reason ch s).fb.get ch = disarm (s.fb.get ch) := by
  have hframe := failRun_frame reason ch s
  exact ⟨(congrArg (·.rf.get ch) hframe).trans (modRf_get _ _ _), (congrArg (·.fb.get ch) hframe).trans (modFb_get _ _ _)⟩

/-- The run timer stopped at its expiry. -/
def timerStopped (ch : Chan) (time : Word) (s : State) : State := modRf ch (fun r => { r with timer := none }) (advanceTo time s)

theorem exec_runTimerExpiry {time : Word} (h : (s.rf.get ch).timer = some time) :
    exec (.runTimerExpiry ch) s =
      .next (if inRun (s.rf.get ch) then failRun .timeout ch (timerStopped ch time s) else timerStopped ch time s) := by
  have hrun : inRun ((timerStopped ch time s).rf.get ch) = inRun (s.rf.get ch) := by
    rw [timerStopped, modRf_get, advanceTo_rf]; rfl
  rw [← hrun]
  simp only [exec, execRunTimerExpiry, h]
  rfl

theorem timerStopped_own (ch : Chan) (time : Word) (s : State) :
    (timerStopped ch time s).rf.get ch = { s.rf.get ch with timer := none } := by
  rw [timerStopped, modRf_get, advanceTo_rf]

theorem timerStopped_frame (ch : Chan) (time : Word) (s : State) :
    timerStopped ch time s =
      { s with clock := (timerStopped ch time s).clock, rf := s.rf.set ch { s.rf.get ch with timer := none } } := by
  simp [timerStopped, modRf, advanceTo_eq]

theorem exec_wheelStaleExpiry {time : Word} (h : (s.bd.get ch).timer = some time) :
    exec (.wheelStaleExpiry ch) s = .next (modBd ch (fun b => { b with fresh := false, timer := none }) (advanceTo time s)) := by
  simp only [exec, execWheelStaleExpiry, h]

/-- A station after a stop that it met in RUN: RUN is left and every run in progress has failed (R49). -/
def StoppedFrom (s t : State) : Prop := t.sc.state ≠ .run ∧ RunsStopped .run s t

/-- A cause taken in RUN leaves it. -/
theorem raiseCause_leavesRun (kind : CauseKind) (origin channel zone : Byte) (h : s.sc.state = .run) :
    (raiseCause kind origin channel zone s).sc.state ≠ .run := by
  have hact : ∀ (cut : Bool) (t : State), t.sc.state = .run → (actOnCause cut t).sc.state ≠ .run := by
    intro cut t ht
    have hcases : actOnCause cut t = if cut then enterBrakingCut t else enterStopping t := by simp [actOnCause, ht]
    rw [hcases]
    split
    · rw [(enterBrakingCut_sc t).1]; exact fun h => nomatch h
    · obtain ⟨hsc | hsc, -⟩ := enterStopping_sc t <;> rw [hsc] <;> exact fun h => nomatch h
  unfold raiseCause
  exact hact _ _ (by split <;> exact h)

theorem raiseCause_stoppedFrom (kind : CauseKind) (origin channel zone : Byte) (h : s.sc.state = .run) :
    StoppedFrom s (raiseCause kind origin channel zone s) :=
  ⟨raiseCause_leavesRun kind origin channel zone h, h ▸ raiseCause_runs kind origin channel zone s⟩

theorem exec_chainOpens (hheld : s.su.phase ≠ .held) (hclosed : s.sc.estop.level = true) :
    exec (.estopFilteredChange false) s = .next (raiseOwn .estopChain
      { s with sc := { s.sc with estop := { level := false, run := 0 } }, lines := { s.lines with estop := false } }) := by
  simp [exec, execEstopFilteredChange, hheld, hclosed]

theorem exec_stopButtonPress (hactive : deskActive s = true) (hreleased : pressed 9 s = false) :
    exec .stopButtonPress s = .next (raiseOwn .deskStop (setPressed stopPlace s)) := by
  simp [exec, execStopButtonPress, hactive, stopPlace, hreleased]

/-- What the failure with STOPPED leaves of a run's record: the state it began from, qualified (R49). -/
theorem stoppedFrom_origin (origin : RefState) :
    (origin = .notReferenced → stoppedFrom origin = .notReferenced)
      ∧ ∀ why, origin = .failed why → stoppedFrom origin = .failed .stopped :=
  ⟨fun h => by rw [h]; rfl, fun why h => by rw [h]; rfl⟩

/-- Settles O27: the run timer by whether a run is in progress, the stop by what a cause leaves of the runs, the wheel timer. -/
theorem runTimerExpiry : Obligations.RunTimerExpiry := by
  refine ⟨?timeout, ?stale, ?stopped⟩
  case timeout =>
    intro ch time s htimer
    have hexec := exec_runTimerExpiry htimer
    have hframe := timerStopped_frame ch time s
    have hown := timerStopped_own ch time s
    generalize timerStopped ch time s = u at hexec hframe hown
    have hother : ∀ c, c ≠ ch → u.rf.get c = s.rf.get c ∧ u.mo.get c = s.mo.get c ∧ u.fb.get c = s.fb.get c := fun c hc =>
      ⟨(congrArg (·.rf.get c) hframe).trans (PerChan.get_set_ne _ _ _ _ hc), (congrArg (·.mo.get c) hframe :),
        (congrArg (·.fb.get c) hframe :)⟩
    have hmo : u.mo = s.mo := (congrArg State.mo hframe :)
    have hfb : u.fb = s.fb := (congrArg State.fb hframe :)
    have hsc : u.sc = s.sc := (congrArg State.sc hframe :)
    have hte : u.te = s.te := (congrArg State.te hframe :)
    have hcfg : chanCfg u ch = chanCfg s ch := by rw [chanCfg, (congrArg State.cfg hframe :)]; rfl
    by_cases hin : inRun (s.rf.get ch) = true
    · rw [if_pos hin] at hexec
      have hfailed := failRun_frame .timeout ch u
      obtain ⟨hrf, hcapture⟩ := failRun_own .timeout ch u
      refine ⟨_, hexec, ?_⟩
      rw [hrf, hcapture, hown, hfb, hcfg]
      refine ⟨rfl, rfl, (congrArg State.sc hfailed).trans hsc, (congrArg State.te hfailed).trans hte, fun c hc => ?_,
        fun _ => ⟨rfl, rfl, rfl, rfl, rfl, fun hrun hmode => ?_⟩, fun h => absurd hin (by simp [h])⟩
      · obtain ⟨hr, hm, hf⟩ := failRun_other (ch := ch) .timeout u hc
        obtain ⟨hr', hm', hf'⟩ := hother c hc
        exact ⟨hr.trans hr', hm.trans hm', hf.trans hf'⟩
      · rw [failRun_run .timeout (hsc ▸ hrun) (by rw [hmo]; exact hmode), modMo_get, endPoint, hcfg, hfb, hmo]
        exact ⟨rfl, rfl⟩
    · rw [if_neg hin] at hexec
      refine ⟨u, hexec, ?_⟩
      rw [hown, hfb]
      exact ⟨rfl, rfl, hsc, hte, fun c hc => hfb ▸ hother c hc, fun h => absurd h hin, fun _ => ⟨rfl, hmo, rfl⟩⟩
  case stale =>
    intro ch time s htimer
    refine ⟨_, exec_wheelStaleExpiry htimer, ?_⟩
    rw [modBd_get, advanceTo_bd]
    exact ⟨rfl, rfl, rfl, rfl, fun c hc => by rw [modBd_get_ne _ _ _ _ hc, advanceTo_bd], by simp⟩
  case stopped =>
    intro kind origin channel zone s hrun stopped
    have hstopped : ∀ t, StoppedFrom s t → stopped t := fun t ⟨hleft, hruns⟩ => ⟨hleft, fun ch => by
      obtain ⟨hfb, hrf⟩ := hruns ch
      simp only [true_and, if_true] at hfb hrf
      rw [hfb, hrf]
      refine ⟨fun hin => ?_, fun hout => ?_, ?_⟩
      · obtain ⟨hnew, hagain⟩ := stoppedFrom_origin (s.rf.get ch).origin
        simp only [stoppedRun, hin, if_true]
        exact ⟨hnew, hagain, rfl, rfl, rfl, rfl, rfl, rfl, rfl, rfl, rfl⟩
      · simp [stoppedRun, hout]
      · split <;> rfl⟩
    refine ⟨hstopped _ (raiseCause_stoppedFrom kind origin channel zone hrun), fun hheld hclosed => ?_, fun hactive hreleased => ?_⟩
    · exact ⟨_, exec_chainOpens hheld hclosed, hstopped _ (raiseCause_stoppedFrom .estopChain _ 0 0 hrun)⟩
    · exact ⟨_, exec_stopButtonPress hactive hreleased, hstopped _ (raiseCause_stoppedFrom .deskStop _ 0 0 hrun)⟩

end Sys2Proof.Machine
end

section
/-! PROOFS. The ring position of a map: the segment a wheel value lies in, and what it gives there (R53). -/

namespace Sys2Proof.Machine

variable {w : Int} {p q : MapPoint} {points before rest : List MapPoint}

/-- Strictly increasing points rise between any two of them. -/
theorem increasing_iff_pairwise (points : List MapPoint) : increasing points = true ↔ points.Pairwise fun p q => p.w < q.w := by
  have htrans : Trans (fun p q : MapPoint => p.w < q.w) (fun p q : MapPoint => p.w < q.w) (fun p q : MapPoint => p.w < q.w) :=
    ⟨Int.lt_trans⟩
  rw [← List.isChain_iff_pairwise]
  induction points with
  | nil => simp [increasing]
  | cons p rest ih =>
    cases rest with
    | nil => simp [increasing]
    | cons q rest => simp [increasing, ih]

theorem mapFrom_last (w : Int) (p : MapPoint) : mapFrom w p [] = ((p.r : Int), decide (p.w < w)) := rfl

/-- In a segment the ring position lies on the line between its two points. -/
theorem mapFrom_segment (h : w < q.w) :
    mapFrom w p (q :: rest) = (p.r + floorDiv (((q.r : Int) - p.r) * (w - p.w)) (q.w - p.w), false) := by
  simp [mapFrom, h]

/-- The walk passes over the points that do not lie above the wheel value. -/
theorem mapFrom_skip (hbefore : ∀ x ∈ before, x.w ≤ w) (hq : q.w ≤ w) (p : MapPoint) :
    mapFrom w p (before ++ q :: rest) = mapFrom w q rest := by
  induction before generalizing p with
  | nil => simp [mapFrom, Int.not_lt.mpr hq]
  | cons x before ih =>
    have hx : ¬w < x.w := Int.not_lt.mpr (hbefore x List.mem_cons_self)
    simp only [List.cons_append, mapFrom, hx, if_false]
    exact ih (fun y hy => hbefore y (List.mem_cons_of_mem x hy)) x

/-- From any point that does not lie above the wheel value the walk may begin. -/
theorem mapRing_from (hrise : increasing (before ++ p :: rest) = true) (hp : p.w ≤ w) :
    mapRing (before ++ p :: rest) w = mapFrom w p rest := by
  have hbelow : ∀ x ∈ before, x.w ≤ w := fun x hx => by
    have hpair := (List.pairwise_append.mp ((increasing_iff_pairwise _).mp hrise)).2.2 x hx p List.mem_cons_self
    omega
  cases before with
  | nil => simp [mapRing, Int.not_lt.mpr hp]
  | cons x before =>
    simp only [List.cons_append, mapRing, Int.not_lt.mpr (hbelow x List.mem_cons_self), if_false]
    exact mapFrom_skip (fun y hy => hbelow y (List.mem_cons_of_mem x hy)) hp x

/-- A wheel value not below the first point lies at or above a last one, or between two neighbours. -/
theorem exists_segment (hp : p.w ≤ w) (rest : List MapPoint) :
    ∃ before q after, p :: rest = before ++ q :: after ∧ q.w ≤ w ∧ ∀ x ∈ after.head?, w < x.w := by
  induction rest generalizing p with
  | nil => exact ⟨[], p, [], rfl, hp, by simp⟩
  | cons x rest ih =>
    by_cases hx : w < x.w
    · exact ⟨[], p, x :: rest, rfl, hp, by simpa using hx⟩
    · obtain ⟨before, q, after, heq, hq, hafter⟩ := ih (Int.not_lt.mp hx)
      exact ⟨p :: before, q, after, by rw [heq]; rfl, hq, hafter⟩

/-- A part of a difference, rounded toward minus infinity, lies between 0 and the difference. -/
theorem floorDiv_part_bounds (a : Int) {d whole : Int} (hd : 0 ≤ d) (hwhole : d < whole) :
    min 0 a ≤ floorDiv (a * d) whole ∧ floorDiv (a * d) whole ≤ max 0 a := by
  have hpos : 0 < whole := by omega
  rw [floorDiv, Int.fdiv_eq_ediv_of_nonneg _ hpos.le]
  constructor
  · rw [Int.le_ediv_iff_mul_le hpos]
    rcases Int.le_total 0 a with ha | ha
    · rw [min_eq_left ha]; nlinarith
    · rw [min_eq_right ha]; nlinarith
  · refine Int.ediv_le_of_le_mul hpos ?_
    rcases Int.le_total 0 a with ha | ha
    · rw [max_eq_right ha]; nlinarith
    · rw [max_eq_left ha]; nlinarith

/-- Between two points of the ring the position stays on it. -/
theorem segment_bounds (hp : p.r ≤ 65535) (hq : q.r ≤ 65535) (hlow : p.w ≤ w) (hhigh : w < q.w) :
    0 ≤ (p.r : Int) + floorDiv (((q.r : Int) - p.r) * (w - p.w)) (q.w - p.w)
      ∧ (p.r : Int) + floorDiv (((q.r : Int) - p.r) * (w - p.w)) (q.w - p.w) ≤ 65535 := by
  obtain ⟨hmin, hmax⟩ := floorDiv_part_bounds ((q.r : Int) - p.r) (d := w - p.w) (whole := q.w - p.w) (by omega) (by omega)
  omega

/-- The last point of a map that ends in it. -/
theorem getLast_of_split {last : MapPoint} (h : points = before ++ [q]) (hlast : points.getLast? = some last) : last = q := by
  rw [h] at hlast
  simpa using hlast.symm

/-- Settles O29: the walk begins at the point below the wheel value, whose segment decides. -/
theorem mapRingPosition : Obligations.MapRingPosition := by
  intro points w first last hrise hfirst hlast hring
  obtain ⟨rest, rfl⟩ : ∃ rest, points = first :: rest := by
    cases points with
    | nil => simp at hfirst
    | cons p rest => exact ⟨rest, by simpa using hfirst⟩
  have hbelow : w < first.w → mapRing (first :: rest) w = ((first.r : Int), true) := fun h => by simp [mapRing, h]
  have hfrom : ∀ before p after, first :: rest = before ++ p :: after → p.w ≤ w → mapRing (first :: rest) w = mapFrom w p after :=
    fun before p after heq hp => by rw [heq] at hrise ⊢; exact mapRing_from hrise hp
  have hwithin : first.w ≤ w → (0 ≤ (mapRing (first :: rest) w).1 ∧ (mapRing (first :: rest) w).1 ≤ 65535)
      ∧ (w ≤ last.w → (mapRing (first :: rest) w).2 = false) := fun h => by
    obtain ⟨before, q, after, heq, hq, hafter⟩ := exists_segment h rest
    rw [hfrom before q after heq hq]
    have hqr : q.r ≤ 65535 := hring q (by rw [heq]; simp)
    cases after with
    | nil =>
      rw [mapFrom_last, getLast_of_split heq hlast]
      exact ⟨⟨by omega, by simpa using hqr⟩, fun hw => by simpa using hw⟩
    | cons x after =>
      have hx : w < x.w := hafter x rfl
      rw [mapFrom_segment hx]
      exact ⟨segment_bounds hqr (hring x (by rw [heq]; simp)) hq hx, fun _ => rfl⟩
  have hrange : 0 ≤ (mapRing (first :: rest) w).1 ∧ (mapRing (first :: rest) w).1 ≤ 65535 := by
    rcases Int.lt_or_le w first.w with h | h
    · rw [hbelow h]
      have := hring first List.mem_cons_self
      exact ⟨by simp, by simpa using this⟩
    · exact (hwithin h).1
  refine ⟨hrange.1, hrange.2, hbelow, fun habove => ?_, fun h hw => (hwithin h).2 hw, fun p hp hw => ?_,
    fun before after p q heq hp hq => ?_⟩
  · obtain ⟨before, heq⟩ := List.getLast?_eq_some_iff.mp hlast
    rw [hfrom before last [] heq habove.le, mapFrom_last, decide_eq_true habove]
  · obtain ⟨before, after, heq⟩ := List.append_of_mem hp
    rw [hfrom before p after heq hw.ge]
    cases after with
    | nil => rfl
    | cons q after =>
      have hpq : w < q.w := by
        have hpair := (List.pairwise_append.mp ((increasing_iff_pairwise _).mp (heq ▸ hrise))).2.1
        rw [hw]
        exact (List.pairwise_cons.mp hpair).1 q List.mem_cons_self
      rw [mapFrom_segment hpq, hw]
      simp [floorDiv]
  · rw [hfrom before p (q :: after) heq hp, mapFrom_segment hq]

end Sys2Proof.Machine
end

section
/-! PROOFS. The expiries of the stop controller's timers, and the LIVE requests of a station that enters RUN (R55, R122, R123, R133). -/

namespace Sys2Proof.Machine

variable {ch : Chan} {s : State}

/-! ## LIVE requests (R55) -/

/-- A channel that goes LIVE when the binding unit asks for it (R22, R55). -/
abbrev GoesLive (s : State) (ch : Chan) : Prop :=
  s.sc.state = .run ∧ isAxis s ch = true ∧ (chanCfg s ch).bindKind ≠ .none ∧ referenced s ch = true
    ∧ ((s.mo.get ch).mode = .hold ∨ (s.mo.get ch).mode = .live)

theorem goesLive_iff (s : State) (ch : Chan) : GoesLive s ch ↔ isAxis s ch = true ∧ refusal .live ch s = none := by
  have hrefusal : refusal .live ch s = none ↔ s.sc.state = .run ∧ ((s.mo.get ch).mode = .hold ∨ (s.mo.get ch).mode = .live)
      ∧ referenced s ch = true ∧ (chanCfg s ch).bindKind ≠ .none := by
    have haccepted : acceptedFrom .live (s.mo.get ch).mode = true ↔ (s.mo.get ch).mode = .hold ∨ (s.mo.get ch).mode = .live := by
      simp [acceptedFrom]
    unfold refusal
    rw [← haccepted]
    by_cases hrun : s.sc.state = .run <;> cases acceptedFrom .live (s.mo.get ch).mode <;> cases referenced s ch <;>
      simp [needsReference, hrun]
  rw [hrefusal, GoesLive]
  tauto

theorem liveRequests_frame (s : State) : liveRequests s = { s with mo := (liveRequests s).mo } := by
  refine forChans_induct (fun t => t = { s with mo := t.mo }) _ (axisChans s) s (fun ch t ht => ?_) rfl
  split
  · exact ht
  · rw [ask_frame]
    generalize (ask _ ch t).mo = mo
    rw [ht]

/-- After the LIVE requests the channels that could go LIVE are in LIVE, and no other has changed (R55). -/
theorem liveRequests_get (s : State) (ch : Chan) :
    (liveRequests s).mo.get ch = if GoesLive s ch then { s.mo.get ch with mode := .live } else s.mo.get ch := by
  simp only [(liveRequests_mo s).2 ch, goesLive_iff]

/-! ## The stop notice between stops, and at the entry into RUN (R119) -/

/-- A notice that concerns neither RUN left nor RUN entered moves the STOPPED lamp alone. -/
theorem stopNotice_between {old new : StopState} (hold : old ≠ .run) (hnew : new ≠ .run) (s : State) :
    stopNotice old new s = stoppedLamp new s := by
  simp [stopNotice, hold, hnew]

theorem enterHalted_frame (h : s.sc.state ≠ .run) :
    (enterHalted s).te = s.te ∧ (enterHalted s).rf = s.rf ∧ (enterHalted s).fb = s.fb := by
  have hcut := cuts_reads (setStop .halted none none none s)
  have hte := forChans_te cutChannel_te (axisChans (setStop .halted none none none s)) (setStop .halted none none none s)
  unfold enterHalted
  simp only [stopNotice_between h (show StopState.halted ≠ .run by decide)]
  obtain ⟨-, hrf, hfb, hlampTe, -⟩ := stoppedLamp_mo .halted
    (forChans cutChannel (axisChans (setStop .halted none none none s)) (setStop .halted none none none s))
  exact ⟨hlampTe.trans hte, hrf.trans hcut.rf, hfb.trans hcut.fb⟩

/-- Entry into RUN: the LIVE requests are made there, and the lamp follows. -/
theorem enterRun_eq (s : State) : enterRun s = stoppedLamp .run (liveRequests (setStop .run none none none s)) := by
  simp [enterRun, stopNotice]

theorem enterRun_frame (s : State) :
    (∀ ch, (enterRun s).mo.get ch =
        if GoesLive (setStop .run none none none s) ch then { s.mo.get ch with mode := .live } else s.mo.get ch)
      ∧ (enterRun s).te = s.te ∧ (enterRun s).rf = s.rf ∧ (enterRun s).fb = s.fb := by
  have hlive := liveRequests_frame (setStop .run none none none s)
  obtain ⟨hmo, hrf, hfb, hte, -⟩ := stoppedLamp_mo .run (liveRequests (setStop .run none none none s))
  rw [← enterRun_eq] at hmo hrf hfb hte
  exact ⟨fun ch => by rw [hmo]; exact liveRequests_get _ ch, hte.trans (congrArg State.te hlive :), hrf.trans (congrArg State.rf hlive :),
    hfb.trans (congrArg State.fb hlive :)⟩

/-! ## The three expiries -/

/-- The station that meets STOP_TIMEOUT: its stop timer has run out. -/
def stopTimedOut (time : Word) (s : State) : State :=
  { advanceTo time s with sc := { (advanceTo time s).sc with stopTimer := none } }

theorem exec_stopTimerExpiry {time : Word} (h : s.sc.stopTimer = some time) :
    exec .stopTimerExpiry s = .next (raiseOwn .stopTimeout (stopTimedOut time s)) := by
  simp only [exec, execStopTimerExpiry, h]
  rfl

theorem exec_brakeTimerExpiry {time : Word} (h : s.sc.brakeTimer = some time) :
    exec .brakeTimerExpiry s = .next (enterHalted (advanceTo time s)) := by
  simp only [exec, execBrakeTimerExpiry, h]

theorem exec_releaseTimerExpiry {time : Word} (h : s.sc.releaseTimer = some time) :
    exec .releaseTimerExpiry s = .next (enterRun (advanceTo time s)) := by
  simp only [exec, execReleaseTimerExpiry, h]

theorem stopTimedOut_frame (time : Word) (s : State) :
    stopTimedOut time s = { s with clock := (stopTimedOut time s).clock, sc := { s.sc with stopTimer := none } } := by
  simp [stopTimedOut, advanceTo_eq]

/-- STOP_TIMEOUT in STOPPING cuts the drives; met in a stop, it leaves the first-cause record and the STOP slot alone (R121, R122). -/
theorem stopTimeout_cuts {u : State} (hstopping : u.sc.state = .stopping) :
    let t := raiseOwn .stopTimeout u
    t.sc.state = .braking ∧ t.sc.brakeReleased = false ∧ t.sc.stopTimer = none
      ∧ t.sc.brakeTimer = some (after t.clock (u.cfg.brakeEngage * 1000)) ∧ t.sc.first = u.sc.first
      ∧ t.sc.last = some
          { kind := .stopTimeout, origin := stationByte u, channel := 0, zone := 0, frame := u.ft.count, met := .stopping }
      ∧ t.sc.causes = satIncr 255 u.sc.causes ∧ t.sc.stopSerial = u.sc.stopSerial ∧ t.tk = u.tk
      ∧ (∀ ch, isAxis u ch = true → (t.mo.get ch).mode = .off) ∧ ∀ ch, (t.fb.get ch).x = (u.fb.get ch).x := by
  have hunder : underWay u.sc.state = false := by simp [underWay, hstopping]
  obtain ⟨hstate, hbrake, hstop, -, htimer, hmo⟩ :=
    raiseCause_cut .stopTimeout (stationByte u) 0 0 u rfl (.inr hstopping)
  obtain ⟨hlast, hfirst, hcauses⟩ := raiseCause_records .stopTimeout (stationByte u) 0 0 u
  obtain ⟨hserial, htk⟩ := raiseCause_notUnderWay (kind := .stopTimeout) (stationByte u) 0 0 hunder
  have hsame := raiseCause_same .stopTimeout (stationByte u) 0 0 u
  refine ⟨hstate, hbrake, hstop, by rw [raiseOwn, hsame.clock]; exact htimer, hfirst.trans (by simp [hunder]),
    hlast.trans (by rw [hstopping]), hcauses, hserial, htk, fun ch haxis => ?_, hsame.x⟩
  rw [raiseOwn, hmo ch, if_pos haxis]
  exact cutChannel_mode ch u

/-- Settles O43, timer by timer: a cut in STOPPING, the entry into HALTED, the entry into RUN. -/
theorem stopTimersExpire : Obligations.StopTimersExpire := by
  intro time s
  refine ⟨fun htimer hstate => ?stop, fun htimer hstate => ?brake, fun htimer hstate => ?release⟩
  case stop =>
    have hframe := stopTimedOut_frame time s
    refine ⟨_, exec_stopTimerExpiry htimer, ?_⟩
    have hcut := stopTimeout_cuts (u := stopTimedOut time s) (by rw [hframe]; exact hstate)
    generalize raiseOwn .stopTimeout (stopTimedOut time s) = t at hcut ⊢
    rw [hframe] at hcut
    obtain ⟨hstate', hbrake, hstop, hengage, hfirst, hlast, hrest⟩ := hcut
    exact ⟨hstate', hbrake, hstop, hengage, hfirst, by rw [hlast]; rfl, hrest⟩
  case brake =>
    have hmo := enterHalted_mo (advanceTo time s)
    obtain ⟨hsc, htk⟩ := enterHalted_sc (advanceTo time s)
    obtain ⟨hte, hrf, hfb⟩ := enterHalted_frame (s := advanceTo time s) (by simp [hstate])
    have hcfg := (enterHalted_same (advanceTo time s)).cfg
    have haxis : ∀ ch, isAxis (enterHalted (advanceTo time s)) ch = isAxis s ch := fun ch => by
      rw [isAxis, chanCfg, hcfg, advanceTo_cfg]; rfl
    refine ⟨_, exec_brakeTimerExpiry htimer, by simpa using hsc, fun ch => ?_, by simpa using htk, by simpa using hte,
      by simpa using hrf, by simpa using hfb⟩
    have hoff : isAxis s ch = true → ((enterHalted (advanceTo time s)).mo.get ch).mode = .off := fun h => by
      have h' : isAxis (advanceTo time s) ch = true := by rwa [isAxis, chanCfg, advanceTo_cfg]
      rw [hmo ch, if_pos h']
      exact cutChannel_mode ch _
    refine ⟨hoff, ?_⟩
    rw [drvEn, haxis]
    cases h : isAxis s ch with
    | false => rfl
    | true => simp [hoff h]
  case release =>
    obtain ⟨hsc, htk⟩ := enterRun_sc (advanceTo time s)
    obtain ⟨hmo, hte, hrf, hfb⟩ := enterRun_frame (advanceTo time s)
    refine ⟨_, exec_releaseTimerExpiry htimer, by simpa using hsc, fun ch => ?_, by simpa using htk, by simpa using hte,
      by simpa using hrf, by simpa using hfb⟩
    rw [hmo ch, advanceTo_eq]
    refine if_congr ?_ rfl rfl
    exact ⟨fun ⟨_, h⟩ => h, fun h => ⟨rfl, h⟩⟩

end Sys2Proof.Machine
end

section
/-! PROOFS. ERASE, PROTECT and LIVE: what the store's requests answer, and what the take engine makes of the answers (R147, R148, R165,
R166). -/

namespace Sys2Proof.Machine

variable {s : State} {ts ts' : Store} {e : Entry} {k : Nat} {fault : TakeFault}

/-! ## Adopted take commands (R98, R150) -/

/-- The station with the serial of an adopted take command in its report. -/
def withSerial (serial : Byte) (s : State) : State := { s with te := { s.te with serial := serial } }

theorem takeCommand_capable (serial : Byte) (f : State → State) (h : takeCapable s = true) :
    takeCommand serial f s = f (withSerial serial s) := if_pos h

/-- A desk command for the take engine, on a station that executes desk commands and is take-capable. -/
theorem deskCommand_take (serial : Byte) (f : State → State) (hdesk : executesDesk s = true) (hcapable : takeCapable s = true) :
    deskCommand (takeCommand serial f) s = f (withSerial serial s) := by
  rw [deskCommand, if_pos hdesk, takeCommand_capable serial f hcapable]

/-! ## The directory (R146 to R148) -/

theorem lookupTake_isSome (dir : List Entry) (k : Nat) : (lookupTake dir k).isSome = true ↔ ∃ e ∈ dir, e.take = k := by
  simp [lookupTake]

theorem storeErase_missing (h : lookupTake ts.dir k = none) : storeErase k ts = (.takeMissing, ts) := by
  simp [storeErase, h]

theorem storeErase_protected (h : lookupTake ts.dir k = some e) (hprotect : e.protect = true) :
    storeErase k ts = (.takeProtected, ts) := by
  simp [storeErase, h, hprotect]

/-- An unprotected take that is neither recorded nor checked gives its pages back to the tail of the free list (R147). -/
theorem storeErase_erases (h : lookupTake ts.dir k = some e) (hprotect : e.protect = false) (hstatus : e.status ≠ .recording)
    (hcheck : ts.check = none) :
    storeErase k ts = (.none, { ts with free := ts.free ++ e.pages, dir := ts.dir.filter fun x => x.take ≠ k }) := by
  simp [storeErase, h, hprotect, hstatus, hcheck]

theorem storeProtect_found (h : ∃ e ∈ ts.dir, e.take = k) :
    storeProtect k ts = (.none, { ts with dir := changeTake k (fun x => { x with protect := !x.protect }) ts.dir }) :=
  if_pos ((lookupTake_isSome _ _).mpr h)

theorem storeProtect_missing (h : ∀ e ∈ ts.dir, e.take ≠ k) : storeProtect k ts = (.takeMissing, ts) :=
  if_neg fun hsome => by
    obtain ⟨e, hmem, htake⟩ := (lookupTake_isSome _ _).mp hsome
    exact h e hmem htake

/-- A new entry begins unprotected, and every other entry was there before (R140, R148). -/
theorem storeCreate_unprotected {mask kinds : PerChan Bool} {rate : Nat} {samples : List Word}
    (h : storeCreate k mask kinds rate samples ts = (.none, ts')) : ∀ e ∈ ts'.dir, e ∈ ts.dir ∨ e.protect = false := by
  unfold storeCreate at h
  split at h
  · simp at h
  split at h
  · simp at h
  split at h
  · simp at h
  split at h
  · simp at h
  · obtain rfl : _ = ts' := (Prod.mk.inj h).2
    intro e he
    rcases List.mem_append.mp he with hold | hnew
    · exact .inl hold
    · rw [List.mem_singleton.mp hnew]
      exact .inr rfl

/-! ## The take engine's part (R165, R166) -/

theorem eraseTake_busy (h : s.te.phase ≠ .idle) : eraseTake k s = refuseTake .busy s := if_pos h

theorem eraseTake_done (hidle : s.te.phase = .idle) (h : storeErase k s.ts = (.none, ts)) :
    eraseTake k s = { s with ts := ts, te := { s.te with take := k, length := 0, result := .done, fault := .none } } := by
  simp [eraseTake, hidle, h]

theorem eraseTake_refused (hidle : s.te.phase = .idle) (h : (storeErase k s.ts).1 = fault) (hfault : fault ≠ .none) :
    eraseTake k s = refuseTake fault s := by
  unfold eraseTake
  rw [if_neg (not_not.mpr hidle)]
  split
  · next heq => exact absurd (h.symm.trans (congrArg Prod.fst heq)) hfault
  · next answer _ _ heq => rw [show answer = fault from (congrArg Prod.fst heq).symm.trans h]

/-- ERASE is refused with the store as it was, or carried out by it (R165). -/
theorem eraseTake_cases (k : Nat) (s : State) :
    (∃ fault, eraseTake k s = refuseTake fault s) ∨
      ∃ ts, storeErase k s.ts = (.none, ts) ∧
        eraseTake k s = { s with ts := ts, te := { s.te with take := k, length := 0, result := .done, fault := .none } } := by
  by_cases hidle : s.te.phase = .idle
  · by_cases h : (storeErase k s.ts).1 = .none
    · exact .inr ⟨_, Prod.ext h rfl, eraseTake_done hidle (Prod.ext h rfl)⟩
    · exact .inl ⟨_, eraseTake_refused hidle rfl h⟩
  · exact .inl ⟨_, eraseTake_busy hidle⟩

theorem eraseTake_frame (k : Nat) (s : State) :
    eraseTake k s = { s with te := (eraseTake k s).te, ts := (eraseTake k s).ts }
      ∧ (eraseTake k s).te.serial = s.te.serial ∧ (eraseTake k s).ts.slots = s.ts.slots := by
  obtain ⟨fault, h⟩ | ⟨ts, herase, h⟩ := eraseTake_cases k s <;> rw [h]
  · exact ⟨rfl, rfl, rfl⟩
  · exact ⟨rfl, rfl, by rw [← storeErase_slots k s.ts, herase]⟩

theorem protectTake_found (h : ∃ e ∈ s.ts.dir, e.take = k) :
    protectTake k s = { s with ts := { s.ts with dir := changeTake k (fun x => { x with protect := !x.protect }) s.ts.dir } } := by
  unfold protectTake
  rw [storeProtect_found h]

theorem protectTake_missing (h : ∀ e ∈ s.ts.dir, e.take ≠ k) : protectTake k s = refuseTake .takeMissing s := by
  unfold protectTake
  rw [storeProtect_missing h]

theorem liveOrder_idle (h : s.te.phase = .idle) : liveOrder s = liveRequests s := if_pos h

theorem liveOrder_held (h : s.te.phase ≠ .idle) : liveOrder s = { s with te := { s.te with liveHeld := true } } := if_neg h

/-- Settles O51, command by command, from what the store answers. -/
theorem eraseLiveAndProtect : Obligations.EraseLiveAndProtect := by
  refine ⟨fun serial take s hdesk hcapable => ⟨?erase, ?live⟩, fun serial take s hdesk hcapable => ?protect⟩
  case erase =>
    obtain ⟨hframe, hserial, hslots⟩ := eraseTake_frame take.toNat (withSerial serial s)
    refine ⟨eraseTake take.toNat (withSerial serial s), congrArg _ (deskCommand_take serial _ hdesk hcapable), hserial, hframe, hslots,
      fun hbusy => ?_, fun hidle hmissing => ?_, fun e hidle hfound => ⟨fun hprotect => ?_, fun hfree hstatus hcheck => ?_⟩⟩
    · rw [eraseTake_busy (s := withSerial serial s) hbusy]; exact ⟨rfl, rfl, rfl⟩
    · rw [eraseTake_refused (s := withSerial serial s) (fault := .takeMissing) hidle
        (congrArg Prod.fst (storeErase_missing hmissing)) (by decide)]
      exact ⟨rfl, rfl, rfl⟩
    · rw [eraseTake_refused (s := withSerial serial s) (fault := .takeProtected) hidle
        (congrArg Prod.fst (storeErase_protected hfound hprotect)) (by decide)]
      exact ⟨rfl, rfl, rfl⟩
    · rw [eraseTake_done (s := withSerial serial s) hidle (storeErase_erases hfound hfree hstatus hcheck)]
      exact ⟨rfl, rfl, rfl, rfl, rfl, rfl⟩
  case live =>
    refine ⟨liveOrder (withSerial serial s), congrArg _ (deskCommand_take serial _ hdesk hcapable), ?_⟩
    by_cases hidle : s.te.phase = .idle
    · have hframe := liveRequests_frame (withSerial serial s)
      rw [liveOrder_idle (s := withSerial serial s) hidle]
      have hte : (liveRequests (withSerial serial s)).te = { s.te with serial := serial } := (congrArg State.te hframe :)
      exact ⟨by rw [hte], (congrArg State.ts hframe :), (congrArg State.sc hframe :),
        by rw [hte], fun hbusy => absurd hidle hbusy,
        fun _ => ⟨by rw [hte], liveRequests_get (withSerial serial s)⟩⟩
    · rw [liveOrder_held (s := withSerial serial s) hidle]
      exact ⟨rfl, rfl, rfl, rfl, fun _ => ⟨rfl, rfl⟩, fun h => absurd h hidle⟩
  case protect =>
    refine ⟨protectTake take.toNat (withSerial serial s), congrArg _ (deskCommand_take serial _ hdesk hcapable), ?_⟩
    by_cases hfound : ∃ e ∈ s.ts.dir, e.take = take.toNat
    · rw [protectTake_found (s := withSerial serial s) hfound]
      refine ⟨rfl, rfl, rfl, rfl, rfl, fun _ => ⟨rfl, rfl, rfl, rfl, rfl, fun e => storeErase_protected⟩, fun hmissing => ?_,
        fun k mask kinds rate samples ts' => storeCreate_unprotected⟩
      obtain ⟨e, hmem, htake⟩ := hfound
      exact absurd htake (hmissing e hmem)
    · rw [protectTake_missing (s := withSerial serial s) fun e hmem htake => hfound ⟨e, hmem, htake⟩]
      exact ⟨rfl, rfl, rfl, rfl, rfl, fun h => absurd h hfound, fun _ => ⟨rfl, rfl⟩,
        fun k mask kinds rate samples ts' => storeCreate_unprotected⟩

end Sys2Proof.Machine
end

section
/-! PROOFS. END and ABORT: the end of take work by its phase, and the failure of the reference runs (R50, R155, R164, R166). -/

namespace Sys2Proof.Machine

variable {ch : Chan} {s : State}

/-! ## END (R155, R166) -/

/-- A phase that ends with DONE hands on a held live order, and makes no other mode request (R166). -/
theorem endDone_frame (fault : TakeFault) (s : State) :
    endDone fault s = { endPhase .done fault s with mo := (endDone fault s).mo } := by
  simp only [endDone]
  split
  · exact liveRequests_frame (endPhase .done fault s)
  · rfl

theorem endDone_mo (fault : TakeFault) (s : State) (ch : Chan) :
    (endDone fault s).mo.get ch =
      if s.te.liveHeld = true ∧ GoesLive s ch then { s.mo.get ch with mode := .live } else s.mo.get ch := by
  simp only [endDone]
  cases s.te.liveHeld with
  | false => simp [endPhase]
  | true =>
    simp only [if_true, true_and]
    exact liveRequests_get (endPhase .done fault s) ch

/-! ## ABORT in the take engine (R164) -/

/-- What ABORT does to the take work, by the phase it finds. -/
theorem abortTake_cases (s : State) :
    (s.te.phase = .idle ∧ abortTake s = s) ∨
      (s.te.phase = .armedRec ∧ abortTake s = endPhase .aborted .none s) ∨
      (s.te.phase = .recording ∧ abortTake s = endPhase .aborted .none (finishTake .interrupted s)) ∨
      (s.te.phase = .checking ∧ abortTake s = endPhase .aborted .none { s with ts := storeAbandon s.ts }) ∨
      ((s.te.phase = .cueing ∨ s.te.phase = .cued ∨ s.te.phase = .playing)
        ∧ abortTake s = endPhase .aborted .none (holdAtSetpoint (axisChans s) s)) := by
  cases h : s.te.phase <;> simp [abortTake, h]

/-- A channel that the engine's HOLD reaches (R22, R164). -/
abbrev TakesHold (s : State) (ch : Chan) : Prop :=
  s.sc.state = .run ∧ isAxis s ch = true
    ∧ ((s.mo.get ch).mode = .live ∨ (s.mo.get ch).mode = .cue ∨ (s.mo.get ch).mode = .play ∨ (s.mo.get ch).mode = .hold)

theorem holdAtSetpoint_get (s : State) (ch : Chan) :
    (holdAtSetpoint (axisChans s) s).mo.get ch = if TakesHold s ch then heldRecord (s.mo.get ch) else s.mo.get ch := by
  by_cases hrun : s.sc.state = .run
  · rw [holdAtSetpoint_mo hrun]
    refine if_congr ?_ rfl rfl
    cases hmode : (s.mo.get ch).mode <;> simp [TakesHold, hrun, hmode]
  · have hnone : holdAtSetpoint (axisChans s) s = s :=
      forChans_induct (fun t => t = s) _ (axisChans s) s (fun k t ht => by rw [ht]; exact ask_stopped _ _ hrun) rfl
    rw [hnone, if_neg fun h => hrun h.1]

/-- A channel that ABORT holds because the engine cues or plays it (R164). -/
abbrev EngineHolds (s : State) (ch : Chan) : Prop :=
  (s.te.phase = .cueing ∨ s.te.phase = .cued ∨ s.te.phase = .playing) ∧ TakesHold s ch

/-- What ABORT leaves of the report, whatever the phase it ends (R164, R166). -/
def abortedReport (te : TakeEngine) : TakeEngine :=
  if te.phase = .idle then te else { te with phase := .idle, start := none, result := .aborted, fault := .none, liveHeld := false }

/-- What ABORT makes of the store: a recording is interrupted, a check run abandoned (R142, R145, R164). -/
def abortedStore (phase : Phase) (ts : Store) : Store :=
  match phase with
  | .recording => storeFinish .interrupted ts
  | .checking => storeAbandon ts
  | .idle | .armedRec | .cueing | .cued | .playing => ts

theorem abortedReport_idle {te : TakeEngine} (h : te.phase = .idle) : abortedReport te = te := if_pos h

theorem abortedReport_busy {te : TakeEngine} (h : te.phase ≠ .idle) :
    abortedReport te = { te with phase := .idle, start := none, result := .aborted, fault := .none, liveHeld := false } := if_neg h

@[simp] theorem abortedReport_serial (te : TakeEngine) : (abortedReport te).serial = te.serial := by
  unfold abortedReport; split <;> rfl

@[simp] theorem abortedReport_phase (te : TakeEngine) : (abortedReport te).phase = .idle := by
  by_cases h : te.phase = .idle
  · rw [abortedReport_idle h, h]
  · rw [abortedReport_busy h]

theorem abortedStore_keeps {phase : Phase} (ts : Store) (hrecording : phase ≠ .recording) (hchecking : phase ≠ .checking) :
    abortedStore phase ts = ts := by
  cases phase with
  | recording => exact absurd rfl hrecording
  | checking => exact absurd rfl hchecking
  | idle | armedRec | cueing | cued | playing => rfl

theorem abortTake_frame (s : State) :
    abortTake s = { s with te := abortedReport s.te, ts := abortedStore s.te.phase s.ts, mo := (abortTake s).mo } := by
  obtain ⟨hphase, h⟩ | ⟨hphase, h⟩ | ⟨hphase, h⟩ | ⟨hphase, h⟩ | ⟨hphase, h⟩ := abortTake_cases s <;> rw [h]
  · simp [abortedReport, abortedStore, hphase]
  · simp [abortedReport, abortedStore, hphase, endPhase]
  · simp [abortedReport, abortedStore, hphase, endPhase, finishTake]
  · simp [abortedReport, abortedStore, hphase, endPhase]
  · rw [holdAtSetpoint_frame]
    rcases hphase with hphase | hphase | hphase <;> simp [abortedReport, abortedStore, hphase, endPhase]

theorem abortTake_mo (s : State) (ch : Chan) :
    (abortTake s).mo.get ch = if EngineHolds s ch then heldRecord (s.mo.get ch) else s.mo.get ch := by
  obtain ⟨hphase, h⟩ | ⟨hphase, h⟩ | ⟨hphase, h⟩ | ⟨hphase, h⟩ | ⟨hphase, h⟩ := abortTake_cases s <;> rw [h]
  · simp [hphase]
  · simp [hphase, endPhase]
  · simp [hphase, endPhase, finishTake]
  · simp [hphase, endPhase]
  · refine (holdAtSetpoint_get s ch).trans (if_congr ?_ rfl rfl)
    exact ⟨fun hold => ⟨hphase, hold⟩, fun hold => hold.2⟩

/-! ## ABORT in the reference sequencer (R50) -/

/-- The end point is not touched by the failure that comes before it. -/
theorem endPoint_runFailed (reason : FailReason) (ch : Chan) (s : State) : endPoint ch (runFailed reason ch s) = endPoint ch s := by
  rw [endPoint, runFailed, modFb_get]
  rfl

theorem SameFor.endPoint {t : State} (h : SameFor ch s t) : endPoint ch t = endPoint ch s := by
  rw [Machine.endPoint, Machine.endPoint, h.beside.chanCfg, h.fb, h.mo]

theorem failRun_onChannel (reason : FailReason) (ch : Chan) : OnChannel ch (failRun reason ch) := by
  have hask : OnChannel ch fun s => ask (.holdBySequencer (Machine.endPoint ch s)) ch s := .ask fun s t h => by rw [h.endPoint]
  have hdisarm : OnChannel ch fun s => modFb ch disarm s := .modFb fun _ _ _ => rfl
  have hclear : OnChannel ch fun s => modRf ch (clearRun (.failed reason) ((chanCfg s ch).refKind = .endStops)) s :=
    .modRf fun s t h => by rw [h.beside.chanCfg]
  have hfail := hask.comp (hdisarm.comp hclear)
  simp only [show ∀ s, modFb ch disarm (modRf ch (clearRun (.failed reason) ((chanCfg s ch).refKind = .endStops)) s)
    = runFailed reason ch s from fun _ => rfl, endPoint_runFailed] at hfail
  exact hfail

theorem abortRun_onChannel (ch : Chan) : OnChannel ch (abortRun ch) := by
  have hdrop : OnChannel ch fun s => modRf ch dropEnds s := .modRf fun _ _ _ => rfl
  exact .ite (fun s t h => by rw [h.rf]) ((failRun_onChannel .aborted ch).comp hdrop) (.keep ch)

/-- The sequencer's HOLD is accepted in RUN from REF and from HOLD (R22). -/
theorem refusal_holdBySequencer (point : Int) (ch : Chan) (s : State) :
    refusal (.holdBySequencer point) ch s = none ↔ s.sc.state = .run ∧ ((s.mo.get ch).mode = .ref ∨ (s.mo.get ch).mode = .hold) := by
  by_cases hrun : s.sc.state = .run <;> cases hmode : (s.mo.get ch).mode <;>
    simp [refusal, acceptedFrom, needsReference, hrun, hmode]

/-- The records of a channel whose run ABORT has failed: the measured ends discarded with the run's own fields, the capture disarmed, and
HOLD at the end point where R22 accepts it. -/
theorem abortRun_fails (hin : inRun (s.rf.get ch) = true) :
    (abortRun ch s).rf.get ch = clearRun (.failed .aborted) ((chanCfg s ch).refKind = .endStops) (dropEnds (s.rf.get ch))
      ∧ (abortRun ch s).fb.get ch = disarm (s.fb.get ch)
      ∧ (abortRun ch s).mo.get ch =
        if s.sc.state = .run ∧ ((s.mo.get ch).mode = .ref ∨ (s.mo.get ch).mode = .hold) then
          { s.mo.get ch with mode := .hold, hold := endPoint ch s }
        else s.mo.get ch := by
  have habort : abortRun ch s = failRun .aborted ch (modRf ch dropEnds s) := if_pos hin
  obtain ⟨hrf, hfb⟩ := failRun_own .aborted ch (modRf ch dropEnds s)
  rw [habort]
  refine ⟨hrf.trans (by rw [modRf_get]; rfl), hfb, ?_⟩
  rw [failRun_eq, ask_get]
  simp only [refusal_holdBySequencer]
  rfl

theorem abortRun_idle (hout : inRun (s.rf.get ch) = false) : abortRun ch s = s := by simp [abortRun, hout]

theorem abortRuns_frame (s : State) :
    abortRuns s = { s with fb := (abortRuns s).fb, mo := (abortRuns s).mo, rf := (abortRuns s).rf } := by
  refine forChans_induct (fun t => t = { s with fb := t.fb, mo := t.mo, rf := t.rf }) _ Chan.list s (fun ch t ht => ?_) rfl
  unfold abortRun
  split
  · rw [failRun_frame]
    generalize (failRun _ ch _).mo = mo
    rw [ht]
    rfl
  · exact ht

/-- The records of each channel after ABORT are those its own run leaves. -/
theorem abortRuns_records (s : State) (ch : Chan) : SameRecords ch (abortRun ch s) (abortRuns s) := by
  have h := (OnChannel.forChans abortRun_onChannel Chan.list chanList_nodup s).2 ch
  rwa [if_pos (mem_chanList ch)] at h

/-- A channel whose run ABORT fails, with what the engine has made of it before: held at the end point wherever HOLD was accepted. -/
theorem abortRuns_abortTake_mo (hin : inRun (s.rf.get ch) = true) (ends : Bool)
    (hends : ends = decide ((chanCfg s ch).refKind = .endStops)) :
    (abortRuns (abortTake s)).mo.get ch =
      if EngineHolds s ch ∨ (s.sc.state = .run ∧ ((s.mo.get ch).mode = .ref ∨ (s.mo.get ch).mode = .hold)) then
        { s.mo.get ch with
          mode := .hold, hold := if ends then (s.fb.get ch).x else floorDiv (s.mo.get ch).p 256 }
      else s.mo.get ch := by
  have hframe := abortTake_frame s
  have hmo := abortTake_mo s ch
  rw [(abortRuns_records _ ch).mo]
  generalize abortTake s = u at hframe hmo
  have hrf : u.rf = s.rf := (congrArg State.rf hframe :)
  have hfb : u.fb = s.fb := (congrArg State.fb hframe :)
  have hsc : u.sc = s.sc := (congrArg State.sc hframe :)
  have hcfg : chanCfg u ch = chanCfg s ch := by rw [chanCfg, (congrArg State.cfg hframe :)]; rfl
  obtain ⟨-, -, hfails⟩ := abortRun_fails (s := u) (ch := ch) (by rw [hrf]; exact hin)
  have hpoint : endPoint ch u = if ends then (s.fb.get ch).x else floorDiv (s.mo.get ch).p 256 := by
    have hp : (u.mo.get ch).p = (s.mo.get ch).p := by rw [hmo]; split <;> rfl
    rw [endPoint, hcfg, hfb, hp, hends]
    exact if_congr decide_eq_true_iff.symm rfl rfl
  rw [hfails, hpoint, hsc, hmo]
  generalize (if ends then (s.fb.get ch).x else floorDiv (s.mo.get ch).p 256) = point
  by_cases hold : EngineHolds s ch
  · have hrun : s.sc.state = .run := hold.2.1
    rw [if_pos hold, if_pos ⟨hrun, .inr rfl⟩, if_pos (.inl hold)]
    rfl
  · rw [if_neg hold]
    exact if_congr (by rw [or_iff_right hold]) rfl rfl

/-- Settles O47: END and ABORT by the phase they find, and ABORT's failure of the runs channel by channel. -/
theorem endAndAbort : Obligations.EndAndAbort := by
  intro serial s hdesk hcapable
  refine ⟨⟨endTake (withSerial serial s), congrArg _ (deskCommand_take serial _ hdesk hcapable), ?ends⟩,
    abortRuns (abortTake (withSerial serial s)), ?exec, ?aborts⟩
  case exec => simp [exec, execAbort, deskCommand, hdesk, takeCommand_capable serial _ hcapable]
  case ends =>
    have hfilled := filledNow_iff (withSerial serial s)
    obtain ⟨hphase, h⟩ | ⟨hphase, h⟩ | ⟨hphase, hfull, h⟩ | ⟨hrecording, harmed, hnot, h⟩ := endTake_cases (withSerial serial s) <;>
      rw [h]
    · have hframe := endDone_frame .none (finishTake .complete (withSerial serial s))
      have hmo := endDone_mo .none (finishTake .complete (withSerial serial s))
      generalize endDone .none (finishTake .complete (withSerial serial s)) = t at hframe hmo
      replace hphase : s.te.phase = .recording := hphase
      refine ⟨by rw [hframe]; rfl, by rw [hframe]; rfl, fun _ => ?_, fun h => by simp [hphase] at h, fun h => absurd hphase h⟩
      exact ⟨by rw [hframe]; rfl, by rw [hframe]; rfl, by rw [hframe]; rfl, by rw [hframe]; rfl, by rw [hframe]; rfl,
        by rw [hframe]; rfl, hmo⟩
    · replace hphase : s.te.phase = .armedRec := hphase
      exact ⟨rfl, rfl, fun h => by simp [hphase] at h, fun _ => ⟨rfl, rfl, rfl, rfl, rfl⟩, fun _ h => absurd hphase h⟩
    · replace hphase : s.te.phase = .idle := hphase
      exact ⟨rfl, rfl, fun h => by simp [hphase] at h, fun h => by simp [hphase] at h,
        fun _ _ => ⟨fun _ => rfl, fun hnot => absurd ⟨hphase, hfilled.mp hfull⟩ hnot⟩⟩
    · exact ⟨rfl, rfl, fun h => absurd h hrecording, fun h => absurd h harmed,
        fun _ _ => ⟨fun ⟨hidle, hfull⟩ => absurd ⟨hidle, hfilled.mpr hfull⟩ hnot, fun _ => rfl⟩⟩
  case aborts =>
    have htake := abortTake_frame (withSerial serial s)
    have hmo := abortTake_mo (withSerial serial s)
    have hin := fun ch => abortRuns_abortTake_mo (s := withSerial serial s) (ch := ch)
    generalize abortTake (withSerial serial s) = u at htake hmo hin
    have hframe := abortRuns_frame u
    have hrecords := abortRuns_records u
    generalize abortRuns u = t at hframe hrecords hin
    have hte : t.te = abortedReport (withSerial serial s).te := by rw [hframe, htake]
    have hts : t.ts = abortedStore s.te.phase s.ts := by rw [hframe, htake]; rfl
    have hrf : u.rf = s.rf := by rw [htake]; rfl
    have hfb : u.fb = s.fb := by rw [htake]; rfl
    have hcfg : ∀ ch, chanCfg u ch = chanCfg s ch := fun ch => by rw [htake]; rfl
    refine ⟨by rw [hframe, htake]; rfl, ?_, ?_, fun hidle => ⟨?_, ?_⟩, fun hbusy => ?_, fun hphase => ?_, fun hphase => ?_,
      fun hrecording hchecking => ?_, fun ch => ⟨fun hrun => ?_, fun hout => ?_⟩⟩
    · rw [hte, abortedReport_serial]; rfl
    · rw [hte, abortedReport_phase]
    · exact hte.trans (abortedReport_idle hidle)
    · rw [hts, hidle]; rfl
    · rw [hte.trans (abortedReport_busy hbusy)]; exact ⟨rfl, rfl, rfl, rfl⟩
    · rw [hts, hphase]; rfl
    · rw [hts, hphase]; rfl
    · rw [hts, abortedStore_keeps s.ts hrecording hchecking]
    · obtain ⟨hfails, hcapture, -⟩ := abortRun_fails (s := u) (ch := ch) (by rw [hrf]; exact hrun)
      rw [(hrecords ch).rf, (hrecords ch).fb, hfails, hcapture, hrf, hfb, hcfg ch]
      exact ⟨rfl, rfl, hin ch hrun _ rfl⟩
    · have hrecord := hrecords ch
      rw [abortRun_idle (by rw [hrf]; exact hout)] at hrecord
      exact ⟨by rw [hrecord.rf, hrf], by rw [hrecord.fb, hfb], hrecord.mo.trans (hmo ch)⟩

end Sys2Proof.Machine
end

section
/-! PROOFS. WHEEL and STOP frames of other stations (R52, R84, R120, R121, R127, R128). -/

namespace Sys2Proof.Machine

variable {ch : Chan} {s u : State} {b : List Byte}

/-! ## A frame handed on at the quiet (R72, R83, R84) -/

/-- The station at slot 0 of the access cycle that ends a frame. -/
def quietDeclared (s : State) : State := declareQuiet (advanceTo (after s.tk.lastTransition 4) s)

theorem quietDeclared_frame (s : State) :
    quietDeclared s =
      { s with
        clock := (quietDeclared s).clock
        tk := { s.tk with quietAt := (quietDeclared s).tk.quietAt, rx := .idle, heard := [] } } := by
  simp [quietDeclared, declareQuiet, advanceTo_eq]

/-- A gathered frame that passes every check and comes from another station is handed on. -/
theorem exec_lineQuiet_handsOn {heard : List Bool} (hstarted : started s = true) (hquiet : s.tk.quietAt = none)
    (hflight : s.tk.flight = none) (hrx : s.tk.rx = .gathering) (hlength : (gather heard).length < 145)
    (hchecks : failedCheck (gather heard) = none) (hother : byteAt (gather heard) 4 ≠ stationByte s) :
    exec (.lineQuiet heard) s = .next (handOn (gather heard) (quietDeclared s)) := by
  have hstation : stationByte (quietDeclared s) = stationByte s := by rw [quietDeclared_frame]; rfl
  have hreceive : receive heard (quietDeclared s) = handOn (gather heard) (quietDeclared s) := by
    simp only [receive, frameEnd, hchecks, hstation, hother, Nat.not_le.mpr hlength, if_false]
  rw [← hreceive]
  simp [exec, execLineQuiet, hstarted, hquiet, hflight, hrx, quietDeclared]

theorem stationByte_toNat (s : State) : (stationByte s).toNat = s.su.station.toNat := by
  have hlt := s.su.station.isLt
  rw [stationByte, BitVec.toNat_setWidth]
  omega

/-- A frame's source is another station when its byte is not the own number. -/
theorem source_ne (h : byteAt b 4 ≠ stationByte s) : natAt b 4 ≠ s.su.station.toNat := fun heq =>
  h (BitVec.eq_of_toNat_eq (heq.trans (stationByte_toNat s).symm))

/-! ## WHEEL frames (R52, R84) -/

/-- What one source record makes of a WHEEL frame: a bound one takes its channel's value, any other stays as it is. -/
def wheelRecord (source : Nat) (seq : Byte) (values : PerChan Int) (s : State) (ch : Chan) (old : Binding) : Binding :=
  if boundTo s ch source && source ≠ s.su.station.toNat then
    match Chan.ofNumber? (chanCfg s ch).srcChannel with
    | some src => takeWheel s.clock (chanCfg s ch).wheelTimeout seq (values.get src) old
    | none => old
  else old

theorem wheelArrival_eq (source : Nat) (seq : Byte) (values : PerChan Int) (s : State) :
    wheelArrival source seq values s = forChans (fun ch t => modBd ch (wheelRecord source seq values t ch) t) Chan.list s := by
  have hkeep : ∀ (ch : Chan) (t : State), modBd ch (fun old => old) t = t := fun ch t => by simp [modBd]
  unfold wheelArrival
  congr 1
  funext ch t
  unfold wheelRecord
  by_cases hbound : (boundTo t ch source && decide (source ≠ t.su.station.toNat)) = true
  · simp only [hbound, if_true]
    cases Chan.ofNumber? (chanCfg t ch).srcChannel with
    | some src => rfl
    | none => exact (hkeep ch t).symm
  · simp only [hbound]
    exact (hkeep ch t).symm

theorem wheelRecord_onChannel (source : Nat) (seq : Byte) (values : PerChan Int) (ch : Chan) :
    OnChannel ch fun s => modBd ch (wheelRecord source seq values s ch) s :=
  .modBd fun s t h => funext fun old => by
    rw [wheelRecord, wheelRecord, boundTo, boundTo, isAxis, isAxis, h.beside.chanCfg, h.beside.su, h.beside.clock]

/-- A WHEEL frame changes the source records alone, each as the frame says. -/
theorem wheelArrival_spec (source : Nat) (seq : Byte) (values : PerChan Int) (s : State) :
    wheelArrival source seq values s = { s with bd := (wheelArrival source seq values s).bd }
      ∧ ∀ ch, (wheelArrival source seq values s).bd.get ch = wheelRecord source seq values s ch (s.bd.get ch) := by
  rw [wheelArrival_eq]
  refine ⟨forChans_induct (fun t => t = { s with bd := t.bd }) _ Chan.list s (fun ch t ht => ?_) rfl, fun ch => ?_⟩
  · rw [ht]; rfl
  · have h := ((OnChannel.forChans (wheelRecord_onChannel source seq values) Chan.list chanList_nodup s).2 ch).bd
    rwa [if_pos (mem_chanList ch), modBd_get] at h

theorem newerWheel_iff (held : Option Byte) (seq : Byte) :
    newerWheel held seq = true ↔ ∀ last, held = some last → 1 ≤ (seq - last).toNat ∧ (seq - last).toNat ≤ 127 := by
  cases held <;> simp [newerWheel]

theorem boundTo_iff (s : State) (ch : Chan) (station : Nat) :
    boundTo s ch station = true ↔
      isAxis s ch = true ∧ (chanCfg s ch).bindKind ≠ .none ∧ (chanCfg s ch).srcStation = station := by
  simp [boundTo, and_assoc]

theorem wheelRecord_takes {source : Nat} {seq : Byte} {values : PerChan Int} {old : Binding} {k : Chan}
    (hbound : boundTo s ch source = true) (hother : source ≠ s.su.station.toNat) (hnewer : newerWheel old.seq seq = true)
    (hk : Chan.ofNumber? (chanCfg s ch).srcChannel = some k) :
    wheelRecord source seq values s ch old =
      { old with
        held := some (values.get k), seq := some seq, fresh := true
        timer := some (after s.clock ((chanCfg s ch).wheelTimeout * 1000)) } := by
  simp [wheelRecord, hbound, hother, hk, takeWheel, hnewer]

theorem wheelRecord_keeps {source : Nat} {seq : Byte} {values : PerChan Int} {old : Binding}
    (h : boundTo s ch source = false ∨ newerWheel old.seq seq = false) : wheelRecord source seq values s ch old = old := by
  unfold wheelRecord
  rcases h with h | h
  · simp [h]
  · split
    · split
      · simp [takeWheel, h]
      · rfl
    · rfl

/-- The wheel value of channel 1 to 3 in a WHEEL body. -/
theorem wheelValue_at (body : List Byte) (k : Chan) :
    PerChan.get { a := intAt body 1, b := intAt body 5, c := intAt body 9 } k = intAt body (4 * k.number - 3) := by
  cases k <;> rfl

/-! ## STOP frames (R128) -/

/-- The station with the serial of a STOP frame remembered for its source. -/
def stopRemembered (source : Nat) (serial : Byte) (s : State) : State :=
  { s with sc := { s.sc with remembered := s.sc.remembered.set (source - 1) (some serial) } }

theorem stopRemembered_same (source : Nat) (serial : Byte) (s : State) : SameStation s (stopRemembered source serial s) :=
  ⟨rfl, rfl, rfl, rfl, rfl, rfl, rfl, rfl, rfl, rfl, rfl, rfl, rfl, fun _ => rfl⟩

/-- The cause that a STOP frame raises: PEER_STOP with the body's origin, channel and zone. -/
def peerStopped (source : Nat) (body : List Byte) (s : State) : State :=
  raiseCause .peerStop (byteAt body 0) (byteAt body 2) (byteAt body 3) (stopRemembered source (byteAt body 8) s)

/-- A STOP frame known by its serial, one from before the release, and one that stops the station. -/
theorem stopArrival_cases (source : Nat) (body : List Byte) (s : State) :
    (s.sc.remembered.getD (source - 1) none = some (byteAt body 8) ∧ stopArrival source body s = s) ∨
      (s.sc.remembered.getD (source - 1) none ≠ some (byteAt body 8) ∧ (word32At body 4).toNat < s.sc.releaseFrame.toNat
        ∧ stopArrival source body s = stopRemembered source (byteAt body 8) s) ∨
      (s.sc.remembered.getD (source - 1) none ≠ some (byteAt body 8) ∧ s.sc.releaseFrame.toNat ≤ (word32At body 4).toNat
        ∧ stopArrival source body s = peerStopped source body s) := by
  unfold stopArrival
  by_cases hknown : s.sc.remembered.getD (source - 1) none = some (byteAt body 8)
  · exact .inl ⟨hknown, if_pos hknown⟩
  · by_cases hframe : s.sc.releaseFrame.toNat ≤ (word32At body 4).toNat
    · exact .inr (.inr ⟨hknown, hframe, by simp only [hknown, if_false]; exact if_pos hframe⟩)
    · exact .inr (.inl ⟨hknown, Nat.not_le.mp hframe, by simp only [hknown, if_false]; exact if_neg hframe⟩)

/-! ## A cause of another station (R121, R127) -/

theorem raiseCause_peerStop (origin channel zone : Byte) (s : State) :
    raiseCause .peerStop origin channel zone s = actOnCause false (recordCause .peerStop origin channel zone s) := by
  simp [raiseCause, isCut]

/-- A RAMP cause leaves the remembered serials. -/
theorem actOnCause_ramp_remembered (s : State) : (actOnCause false s).sc.remembered = s.sc.remembered := by
  obtain ⟨-, h⟩ | ⟨-, h⟩ | ⟨-, h⟩ | ⟨-, h⟩ := actOnCause_cases false s <;> rw [h]
  · obtain ⟨hsc | hsc, -⟩ := enterStopping_sc s <;> rw [if_neg (by decide), hsc]
  · rfl
  · rfl

/-- A cause of another station is not sent on, and keeps the serials (R127). -/
theorem peerStop_keeps (origin channel zone : Byte) (s : State) :
    (raiseCause .peerStop origin channel zone s).sc.stopSerial = s.sc.stopSerial
      ∧ (raiseCause .peerStop origin channel zone s).tk = s.tk
      ∧ (raiseCause .peerStop origin channel zone s).sc.remembered = s.sc.remembered := by
  rw [raiseCause_peerStop]
  obtain ⟨hserial, htk⟩ := actOnCause_keeps false (recordCause .peerStop origin channel zone s)
  exact ⟨hserial, htk, actOnCause_ramp_remembered _⟩

/-- Whether every channel is at rest is read from the channels' kinds, modes and velocities alone. -/
theorem allAtRest_congr {t : State} (haxis : ∀ k, isAxis t k = isAxis s k)
    (hmode : ∀ k, (t.mo.get k).mode = .off ↔ (s.mo.get k).mode = .off) (hv : ∀ k, (t.mo.get k).v = (s.mo.get k).v) :
    allAtRest t = allAtRest s := by
  rw [Bool.eq_iff_iff, allAtRest_iff, allAtRest_iff]
  simp only [haxis, ne_eq, hmode, hv]

/-- Entry into STOPPING from RUN ends the take work, and ends in BRAKING at once when all channels are at rest (R121, R122, R167). -/
theorem enterStopping_fromRun (hrun : s.sc.state = .run) :
    workingPhase (enterStopping s).te.phase = false
      ∧ (enterStopping s).sc.state = if allAtRest s then .braking else .stopping := by
  let s₁ := setStop .stopping (some (after s.clock (s.cfg.stopTimeout * 1000))) none none s
  let s₂ := stopNotice s.sc.state .stopping (forChans requestStopping (axisChans s₁) s₁)
  have hstops := stopAll (axisChans s₁) (axisChans_nodup s₁) s₁
  have hmo : s₂.mo = (forChans requestStopping (axisChans s₁) s₁).mo := stopNotice_mo _ _ _ (by decide)
  have hsc : s₂.sc = s₁.sc := (stopNotice_sc _ _ _).1.trans hstops.1.sc
  have haxis : ∀ k, isAxis s₂ k = isAxis s k := fun k => by
    have hcfg : s₂.cfg = s.cfg := (stopNotice_same _ _ _).cfg.trans hstops.1.cfg
    rw [isAxis, chanCfg, hcfg]; rfl
  have hchan : ∀ k, ((s₂.mo.get k).mode = .off ↔ (s.mo.get k).mode = .off) ∧ (s₂.mo.get k).v = (s.mo.get k).v := fun k => by
    rw [hmo, hstops.2 k]
    split
    · rw [requestStopping, modMo_get]
      split
      · exact ⟨Iff.rfl, rfl⟩
      · next hoff => exact ⟨iff_of_false (fun h => nomatch h) hoff, rfl⟩
    · exact ⟨Iff.rfl, rfl⟩
  have hrest : allAtRest s₂ = allAtRest s := allAtRest_congr haxis (fun k => (hchan k).1) fun k => (hchan k).2
  have hphase : workingPhase s₂.te.phase = false := by
    show workingPhase (stopNotice s.sc.state .stopping _).te.phase = false
    rw [hrun]
    exact stopNotice_phase _ _ (by decide)
  have hstopping : s₂.sc.state = .stopping := by rw [hsc]; rfl
  have henter : enterStopping s = if allAtRest s₂ then enterBraking s₂ else s₂ := rfl
  rw [henter, hrest]
  split
  · rw [enterBraking_stopping hstopping]; exact ⟨hphase, rfl⟩
  · exact ⟨hphase, hstopping⟩

/-- A RAMP cause of another station met in RUN (R121, R122, R167). -/
theorem peerStop_fromRun (origin channel zone : Byte) (hrun : s.sc.state = .run) :
    let t := raiseCause .peerStop origin channel zone s
    workingPhase t.te.phase = false ∧ t.sc.state = (if allAtRest s then .braking else .stopping)
      ∧ ∀ ch, isAxis s ch = true → (s.mo.get ch).mode ≠ .off →
          (t.mo.get ch).mode = .hold ∧ (t.mo.get ch).hold = floorDiv (s.mo.get ch).p 256 := by
  have hact : raiseCause .peerStop origin channel zone s = enterStopping (recordCause .peerStop origin channel zone s) := by
    rw [raiseCause_peerStop, actOnCause, recordCause_state, hrun]
    rfl
  obtain ⟨hphase, hstate⟩ := enterStopping_fromRun (s := recordCause .peerStop origin channel zone s) hrun
  rw [hact]
  refine ⟨hphase, hstate, fun ch haxis hmode => ?_⟩
  have hmo := enterStopping_mo (recordCause .peerStop origin channel zone s) ch
  have hrecord : (requestStopping ch (recordCause .peerStop origin channel zone s)).mo.get ch = heldRecord (s.mo.get ch) :=
    (modMo_get _ _ _).trans (if_neg hmode)
  rw [if_pos (show isAxis (recordCause .peerStop origin channel zone s) ch = true from haxis), hrecord] at hmo
  rw [hmo]
  exact ⟨rfl, rfl⟩

/-- What the PEER_STOP of a STOP frame leaves and sets: it is recorded and remembered, not sent on, and ramps a station in RUN to rest. -/
theorem peerStopped_spec (source : Nat) (body : List Byte) (s : State) :
    let t := peerStopped source body s
    SameStation s t ∧ t.tk = s.tk ∧ t.sc.stopSerial = s.sc.stopSerial
      ∧ t.sc.remembered = s.sc.remembered.set (source - 1) (some (byteAt body 8))
      ∧ t.sc.last = some
          { kind := .peerStop, origin := byteAt body 0, channel := byteAt body 2, zone := byteAt body 3
            frame := s.ft.count, met := s.sc.state }
      ∧ t.sc.causes = satIncr 255 s.sc.causes
      ∧ (s.sc.state = .run → t.sc.first = t.sc.last ∧ workingPhase t.te.phase = false
          ∧ t.sc.state = (if allAtRest s then .braking else .stopping)
          ∧ ∀ ch, isAxis s ch = true → (s.mo.get ch).mode ≠ .off →
              (t.mo.get ch).mode = .hold ∧ (t.mo.get ch).hold = floorDiv (s.mo.get ch).p 256) := by
  let v := stopRemembered source (byteAt body 8) s
  obtain ⟨hserial, htk, hremembered⟩ := peerStop_keeps (byteAt body 0) (byteAt body 2) (byteAt body 3) v
  obtain ⟨hlast, hfirst, hcauses⟩ := raiseCause_records .peerStop (byteAt body 0) (byteAt body 2) (byteAt body 3) v
  refine ⟨(stopRemembered_same _ _ s).trans (raiseCause_same _ _ _ _ v), htk, hserial, hremembered, hlast, hcauses, fun hrun => ?_⟩
  obtain ⟨hphase, hstate, hchans⟩ := peerStop_fromRun (s := v) (byteAt body 0) (byteAt body 2) (byteAt body 3) hrun
  refine ⟨?_, hphase, hstate, hchans⟩
  have hunder : underWay v.sc.state = true := by rw [show v.sc.state = .run from hrun]; rfl
  exact (hfirst.trans (if_pos hunder)).trans hlast.symm

/-- Settles O34: a frame handed on at the quiet is taken by the source records, or by the stop controller. -/
theorem wheelAndStopFrames : Obligations.WheelAndStopFrames := by
  intro heard s hstarted hquiet hflight hrx b body hlength hchecks hother
  have hexec := exec_lineQuiet_handsOn hstarted hquiet hflight hrx hlength hchecks hother
  have hframe := quietDeclared_frame s
  generalize quietDeclared s = u at hexec hframe
  have hsc : u.sc = s.sc := by rw [hframe]
  have hmo : u.mo = s.mo := by rw [hframe]
  have hsource : natAt b 4 ≠ u.su.station.toNat := by rw [hframe]; exact source_ne hother
  refine ⟨fun hwheel => ?wheel, fun hstop => ?stop⟩
  case wheel =>
    have hhand : handOn b u = wheelArrival (natAt b 4) (byteAt body 0) { a := intAt body 1, b := intAt body 5, c := intAt body 9 } u := by
      rw [handOn, if_neg (by rw [hwheel]; decide), if_pos hwheel]
    obtain ⟨ht, hbd⟩ := wheelArrival_spec (natAt b 4) (byteAt body 0) { a := intAt body 1, b := intAt body 5, c := intAt body 9 } u
    rw [← hhand] at ht hbd
    refine ⟨handOn b u, hexec, ?_⟩
    generalize handOn b u = t at ht hbd
    have hclock : t.clock = u.clock := by rw [ht]
    refine ⟨by rw [ht, hframe], by rw [ht, hmo], by rw [ht, hsc], by rw [ht, hframe], by rw [ht, hframe], by rw [ht, hframe],
      by rw [ht, hframe], by rw [ht, hframe], by rw [ht, hframe], fun ch => ?_⟩
    have hcfg : chanCfg u ch = chanCfg s ch := by rw [hframe]; rfl
    have hold : u.bd.get ch = s.bd.get ch := by rw [hframe]
    have hbound : boundTo u ch (natAt b 4) = true ↔ _ := boundTo_iff u ch (natAt b 4)
    have hnewer := newerWheel_iff (s.bd.get ch).seq (byteAt body 0)
    rw [isAxis, hcfg] at hbound
    rw [hbd ch, hold, hclock]
    refine ⟨fun k hb hn hk => ?_, fun hnot => wheelRecord_keeps ?_⟩
    · rw [wheelRecord_takes (hbound.mpr hb) hsource (hnewer.mpr hn) (by rw [hcfg]; exact hk), wheelValue_at, hcfg]
    · exact hnot.imp (fun h => Bool.eq_false_iff.mpr fun h' => h (hbound.mp h')) fun h =>
        Bool.eq_false_iff.mpr fun h' => h (hnewer.mp h')
  case stop =>
    have hhand : handOn b u = stopArrival (natAt b 4) body u := by
      rw [handOn, if_neg (by rw [hstop]; decide), if_neg (by rw [hstop]; decide)]
    rw [hhand] at hexec
    have hrest : ∀ t, t.sc.stopSerial = u.sc.stopSerial → t.tk = u.tk → SameStation u t →
        t.tk.counters = s.tk.counters ∧ t.pt = s.pt ∧ t.bd = s.bd ∧ t.zm = s.zm ∧ t.ft = s.ft ∧ t.tk.stopSlot = s.tk.stopSlot
          ∧ t.sc.stopSerial = s.sc.stopSerial := fun t hserial htk hsame => by
      rw [hserial, htk, hsame.pt, hsame.bd, hsame.zm, hsame.ft, hframe]
      exact ⟨rfl, rfl, rfl, rfl, rfl, rfl, rfl⟩
    have hmoved : u.mo = s.mo ∧ u.te = s.te := by rw [hframe]; exact ⟨rfl, rfl⟩
    refine ⟨stopArrival (natAt b 4) body u, hexec, ?_⟩
    obtain ⟨hknown, h⟩ | ⟨hknown, hbefore, h⟩ | ⟨hknown, hfrom, h⟩ := stopArrival_cases (natAt b 4) body u <;>
      rw [h] <;> rw [hsc] at hknown
    case inl =>
      obtain ⟨hcounters, hpt, hbd, hzm, hft, hslot, hserial⟩ := hrest u rfl rfl (.refl u)
      exact ⟨hcounters, hpt, hbd, hzm, hft, hslot, hserial, fun _ => ⟨hsc, hmoved⟩, fun hnot => absurd hknown hnot,
        fun hnot => absurd hknown hnot, fun hnot => absurd hknown hnot⟩
    case inr.inl =>
      rw [hsc] at hbefore
      obtain ⟨hcounters, hpt, hbd, hzm, hft, hslot, hserial⟩ :=
        hrest (stopRemembered (natAt b 4) (byteAt body 8) u) rfl rfl (stopRemembered_same _ _ u)
      exact ⟨hcounters, hpt, hbd, hzm, hft, hslot, hserial, fun hyes => absurd hyes hknown,
        fun _ => by rw [stopRemembered, hsc], fun _ _ => ⟨by rw [stopRemembered, hsc], hmoved⟩,
        fun _ hfrom => absurd hbefore (Nat.not_lt.mpr hfrom)⟩
    case inr.inr =>
      obtain ⟨hsame, htk, hkeepSerial, hremembered, hlast, hcauses, hfromRun⟩ := peerStopped_spec (natAt b 4) body u
      obtain ⟨hcounters, hpt, hbd, hzm, hft, hslot, hserial⟩ := hrest _ hkeepSerial htk hsame
      have huft : u.ft = s.ft := by rw [hframe]
      have haxis : ∀ k, isAxis u k = isAxis s k := fun k => by rw [hframe]; rfl
      have hrestful : allAtRest u = allAtRest s := allAtRest_congr haxis (by simp [hmo]) (by simp [hmo])
      simp only [hsc, huft, hrestful, haxis, hmo] at hremembered hlast hcauses hfromRun hfrom
      exact ⟨hcounters, hpt, hbd, hzm, hft, hslot, hserial, fun hyes => absurd hyes hknown, fun _ => hremembered,
        fun _ hbefore => absurd hfrom (Nat.not_le.mpr hbefore), fun _ _ => ⟨hlast, hcauses, hfromRun⟩⟩

end Sys2Proof.Machine
end

section
/-! PROOFS. O60, the layer below it: what the invariants of the frame timer and of the tables read, and the operations of the stop
controller, the sequencer and the take engine, which leave it (R60 to R64, R89, R104, R128). -/

namespace Sys2Proof.Machine

/-! ## What the invariants read -/

/-- What `LockInv` reads of a station. -/
def timerFields (s : State) : Lock × Nat × Nat × Nat × Option Word × Nat × StartPhase :=
  (s.ft.lock, s.ft.period, s.ft.lockCount, s.ft.holdCount, s.ft.deadline, s.cfg.frameRate, s.su.phase)

/-- The sizes of the five tables. -/
def tableSizes (s : State) : List Nat :=
  [s.pt.peers.length, s.sc.remembered.length, s.zm.presence.length, s.dk.buttons.length, s.dk.selects.length]

/-- The sizes of R89, R104, R128 and section 11.1. -/
def fullSizes : List Nat := [30, 30, 4, 10, 9]

theorem tablesInv_iff (s : State) : TablesInv s ↔ tableSizes s = fullSizes := by
  constructor
  · rintro ⟨hpeers, hremembered, hpresence, hbuttons, hselects⟩
    simp [tableSizes, fullSizes, hpeers, hremembered, hpresence, hbuttons, hselects]
  · intro h
    simp only [tableSizes, fullSizes, List.cons.injEq, and_true] at h
    obtain ⟨hpeers, hremembered, hpresence, hbuttons, hselects⟩ := h
    exact ⟨hpeers, hremembered, hpresence, hbuttons, hselects⟩

/-- The frame timer's counts and the sizes of the tables agree with the spec. -/
structure TimerInv (s : State) : Prop where
  lock : LockInv s
  tables : TablesInv s

/-- What the invariants read is left as it was, and full tables stay full. -/
structure TimerKept (s t : State) : Prop where
  timer : timerFields t = timerFields s
  sizes : tableSizes s = fullSizes → tableSizes t = fullSizes

/-- An operation that leaves what the invariants read. -/
def KeepsTimer (f : State → State) : Prop := ∀ s, TimerKept s (f s)

variable {s t u : State} {ch : Chan}

theorem LockInv.congr (h : LockInv s) (g : timerFields t = timerFields s) : LockInv t := by
  simp only [timerFields, Prod.mk.injEq] at g
  obtain ⟨hlock, hperiod, hlockCount, hholdCount, hdeadline, hrate, hphase⟩ := g
  obtain ⟨hgood, hcount, hlocking, hhold, hholding, hbefore⟩ := h
  refine ⟨?_, ?_, ?_, ?_, ?_, ?_⟩
  · rwa [hlock, hperiod, hrate]
  · rwa [hlockCount]
  · rwa [hlock, hlockCount]
  · rwa [hholdCount]
  · rwa [hlock, hholdCount]
  · rwa [started, hphase, hlock, hdeadline]

theorem TimerInv.congr (h : TimerInv s) (g : TimerKept s t) : TimerInv t :=
  ⟨h.lock.congr g.timer, (tablesInv_iff t).mpr (g.sizes ((tablesInv_iff s).mp h.tables))⟩

theorem TimerKept.refl (s : State) : TimerKept s s := ⟨rfl, id⟩

theorem TimerKept.trans (h : TimerKept s t) (g : TimerKept t u) : TimerKept s u :=
  ⟨g.timer.trans h.timer, g.sizes ∘ h.sizes⟩

theorem TimerKept.after (g : TimerKept t u) (h : TimerKept s t) : TimerKept s u := h.trans g

theorem KeepsTimer.comp {f g : State → State} (hf : KeepsTimer f) (hg : KeepsTimer g) : KeepsTimer (fun s => f (g s)) :=
  fun s => (hg s).trans (hf _)

theorem KeepsTimer.ite {f g : State → State} {p : State → Prop} [DecidablePred p] (hf : KeepsTimer f) (hg : KeepsTimer g) :
    KeepsTimer (fun s => if p s then f s else g s) := fun s => by
  show TimerKept s (if p s then f s else g s)
  split
  · exact hf s
  · exact hg s

theorem KeepsTimer.chans {f : Chan → State → State} (h : ∀ ch, KeepsTimer (f ch)) (chans : List Chan) :
    KeepsTimer (forChans f chans) :=
  fun s => forChans_induct (TimerKept s) f chans s (fun ch t ht => ht.trans (h ch t)) (.refl s)

theorem KeepsTimer.anyOrder {events : List (State → State)} (h : ∀ f ∈ events, KeepsTimer f) : KeepsTimer (inAnyOrder events) :=
  fun s => inAnyOrder_induct (TimerKept s) events s (fun _ _ _ ht => ht.trans ⟨rfl, id⟩)
    (fun f hf t ht => ht.trans (h f hf t)) (.refl s)

theorem KeepsTimer.foldl {α : Type} {f : State → α → State} (h : ∀ x, KeepsTimer (fun s => f s x)) (xs : List α) :
    KeepsTimer (fun s => xs.foldl f s) := fun s => by
  induction xs generalizing s with
  | nil => exact .refl s
  | cons x xs ih => exact (h x s).trans (ih _)

theorem KeepsTimer.desk {f : State → State} (h : KeepsTimer f) : KeepsTimer (deskCommand f) :=
  fun s => deskCommand_induct (TimerKept s) f s (.refl s) (h s)

theorem advanceTo_timer (time : Word) : KeepsTimer (advanceTo time) := fun s => by
  rw [advanceTo_eq]; exact ⟨rfl, id⟩

/-! ## Mode requests and the ends of take phases -/

theorem ask_timer (r : ModeRequest) (ch : Chan) : KeepsTimer (ask r ch) := fun s => by
  rw [ask_frame]; exact ⟨rfl, id⟩

theorem holdAtSetpoint_timer (chans : List Chan) : KeepsTimer (holdAtSetpoint chans) := fun s => by
  rw [holdAtSetpoint_frame]; exact ⟨rfl, id⟩

theorem liveRequests_timer : KeepsTimer liveRequests := fun s => by
  rw [liveRequests_frame]; exact ⟨rfl, id⟩

theorem requestAll_timer (r : ModeRequest) (chans : List Chan) : KeepsTimer (fun s => (requestAll r chans s).2) := fun s => by
  induction chans generalizing s with
  | nil => exact .refl s
  | cons ch rest ih => exact (ask_timer r ch s).trans (ih _)

theorem endPhase_timer (result : TakeResult) (fault : TakeFault) : KeepsTimer (endPhase result fault) := fun _ => ⟨rfl, id⟩

theorem endDone_timer (fault : TakeFault) : KeepsTimer (endDone fault) := fun s => by
  rw [endDone_frame]; exact ⟨rfl, id⟩

theorem loseTake_timer (fault : TakeFault) : KeepsTimer (loseTake fault) := fun s => by
  unfold loseTake
  split
  · exact ⟨rfl, id⟩
  · exact ⟨rfl, id⟩
  · exact (endPhase_timer _ _ _).after (holdAtSetpoint_timer _ s)
  · exact (endPhase_timer _ _ _).after (holdAtSetpoint_timer _ s)
  all_goals exact .refl s

theorem lockNotice_timer (new : Lock) : KeepsTimer (lockNotice new) := fun s => by
  obtain ⟨hn, -⟩ | hn | ⟨hn, -⟩ := lockNotice_cases new s <;> rw [hn]
  · exact loseTake_timer _ s
  · exact .refl s
  · exact ⟨rfl, id⟩

/-! ## Entries into stop states and causes -/

theorem failRunStopped_timer (ch : Chan) : KeepsTimer (failRunStopped ch) := fun s => by
  simp only [failRunStopped]
  split
  · exact ⟨rfl, id⟩
  · exact .refl s

theorem takeStopped_timer : KeepsTimer takeStopped := fun s => by
  unfold takeStopped; split <;> exact ⟨rfl, id⟩

theorem stoppedLamp_timer (new : StopState) : KeepsTimer (stoppedLamp new) := fun s => by
  rw [stoppedLamp_frame]; exact ⟨rfl, id⟩

theorem stopNotice_timer (old new : StopState) : KeepsTimer (stopNotice old new) := fun s => by
  have hleft : TimerKept s (if old = .run && new ≠ .run then takeStopped (forChans failRunStopped Chan.list s) else s) := by
    split
    · exact (KeepsTimer.chans failRunStopped_timer _ s).trans (takeStopped_timer _)
    · exact .refl s
  simp only [stopNotice]
  generalize (if old = .run && new ≠ .run then takeStopped (forChans failRunStopped Chan.list s) else s) = u at hleft ⊢
  refine TimerKept.trans ?_ (stoppedLamp_timer new _)
  split
  · exact hleft.trans (liveRequests_timer u)
  · exact hleft

theorem cutChannel_timer (ch : Chan) : KeepsTimer (cutChannel ch) := fun s => by
  unfold cutChannel; split <;> exact ⟨rfl, id⟩

theorem enterBraking_timer : KeepsTimer enterBraking := fun s => by
  unfold enterBraking
  exact (stopNotice_timer _ _ _).after ⟨rfl, id⟩

theorem enterBrakingCut_timer : KeepsTimer enterBrakingCut := fun s => by
  unfold enterBrakingCut
  exact (stopNotice_timer _ _ _).after ((KeepsTimer.chans cutChannel_timer _ _).after ⟨rfl, id⟩)

theorem enterStopping_timer : KeepsTimer enterStopping := fun s => by
  simp only [enterStopping]
  have hramp : TimerKept s (stopNotice s.sc.state .stopping
      (forChans requestStopping (axisChans (setStop .stopping (some (after s.clock (s.cfg.stopTimeout * 1000))) none none s))
        (setStop .stopping (some (after s.clock (s.cfg.stopTimeout * 1000))) none none s))) :=
    (stopNotice_timer _ _ _).after ((KeepsTimer.chans (f := requestStopping) (fun _ _ => ⟨rfl, id⟩) _ _).after ⟨rfl, id⟩)
  split
  · exact hramp.trans (enterBraking_timer _)
  · exact hramp

theorem enterHalted_timer : KeepsTimer enterHalted := fun s => by
  unfold enterHalted
  exact (stopNotice_timer _ _ _).after ((KeepsTimer.chans cutChannel_timer _ _).after ⟨rfl, id⟩)

theorem enterRun_timer : KeepsTimer enterRun := fun s => by
  unfold enterRun
  exact (stopNotice_timer _ _ _).after ⟨rfl, id⟩

/-- The release forgets the serials of every station, so that the table has its 30 entries again (R133). -/
theorem enterReleasing_timer : KeepsTimer enterReleasing := fun s => by
  unfold enterReleasing
  refine (stopNotice_timer _ _ _).after
    ((KeepsTimer.chans (f := requestRelease) (fun _ _ => ⟨rfl, id⟩) _ _).after ⟨rfl, fun h => ?_⟩)
  simp only [tableSizes, fullSizes, List.cons.injEq, and_true] at h ⊢
  exact ⟨h.1, List.length_replicate, h.2.2⟩

theorem actOnCause_timer (cut : Bool) : KeepsTimer (actOnCause cut) := fun s => by
  obtain ⟨-, h⟩ | ⟨-, h⟩ | ⟨-, h⟩ | ⟨-, h⟩ := actOnCause_cases cut s <;> rw [h]
  · split
    · exact enterBrakingCut_timer s
    · exact enterStopping_timer s
  · split
    · exact enterBrakingCut_timer s
    · exact .refl s
  · split
    · exact KeepsTimer.chans cutChannel_timer _ s
    · exact .refl s
  · exact .refl s

theorem raiseCause_timer (kind : CauseKind) (origin channel zone : Byte) : KeepsTimer (raiseCause kind origin channel zone) :=
  fun s => by
  unfold raiseCause
  refine TimerKept.trans ?_ (actOnCause_timer _ _)
  split <;> exact ⟨rfl, id⟩

theorem raiseOwn_timer (kind : CauseKind) : KeepsTimer (raiseOwn kind) := fun s => raiseCause_timer _ _ _ _ s

theorem feedbackOnset_timer (ch : Chan) : KeepsTimer (feedbackOnset ch) := fun s => by
  unfold feedbackOnset
  split
  · exact raiseCause_timer _ _ _ _ s
  · exact ⟨rfl, id⟩
  · exact .refl s

/-! ## The release and the stop controller's part of a frame event (R131, R132) -/

theorem executeRelease_timer : KeepsTimer executeRelease := fun s => by
  unfold executeRelease
  split
  · split
    · exact ⟨rfl, id⟩
    · exact enterReleasing_timer s
  all_goals exact ⟨rfl, id⟩

theorem stopFrameEvent_timer : KeepsTimer stopFrameEvent := fun s => by
  unfold stopFrameEvent
  have hrelease : TimerKept s
      (if s.sc.pendingRelease then
        executeRelease { s with sc := { s.sc with dupWindow := s.sc.dupWindow - 1, pendingRelease := false } }
      else { s with sc := { s.sc with dupWindow := s.sc.dupWindow - 1 } }) := by
    split
    · exact (executeRelease_timer _).after ⟨rfl, id⟩
    · exact ⟨rfl, id⟩
  exact hrelease.trans ⟨rfl, id⟩

/-! ## The reference sequencer and a servo update -/

theorem armCapture_timer (source : CaptureSource) (ch : Chan) : KeepsTimer (armCapture source ch) := fun s => by
  unfold armCapture; split <;> exact ⟨rfl, id⟩

theorem capture_timer (count : Int) (ch : Chan) : KeepsTimer (capture count ch) := fun s => by
  rw [capture_frame]; exact ⟨rfl, id⟩

theorem armForRun_timer (ch : Chan) (back : Bool) : KeepsTimer (armForRun ch back) := fun s => by
  rw [armForRun_eq]; exact ⟨rfl, id⟩

theorem startRun_timer (ch : Chan) : KeepsTimer (startRun ch) := fun s => by
  unfold startRun
  split
  · obtain ⟨why, -, hreq⟩ | ⟨-, hreq⟩ := request_cases .ref ch s <;> rw [hreq]
    · exact .refl s
    · exact (armForRun_timer ch _ _).after ⟨rfl, id⟩
  · exact .refl s

theorem referenceCommand_timer : KeepsTimer referenceCommand :=
  KeepsTimer.ite (.chans startRun_timer _) .refl

theorem failRun_timer (reason : FailReason) (ch : Chan) : KeepsTimer (failRun reason ch) := fun s => by
  rw [failRun_frame]; exact ⟨rfl, id⟩

theorem abortRuns_timer : KeepsTimer abortRuns := fun s => by
  rw [abortRuns_frame]; exact ⟨rfl, id⟩

theorem turnBackOff_timer (ch : Chan) : KeepsTimer (turnBackOff ch) := fun s => by
  simp only [turnBackOff]
  split
  · exact (armCapture_timer _ _ _).after ⟨rfl, id⟩
  · exact .refl s

theorem applyOffset_timer (ch : Chan) : KeepsTimer (applyOffset ch) := fun s => by
  cases h : (s.rf.get ch).offset with
  | none => rw [applyOffset_none h]; exact .refl s
  | some δ =>
    have hshifted : TimerKept s (shifted ch δ s) := ⟨rfl, id⟩
    rw [applyOffset_some h]
    split
    · exact hshifted.trans (feedbackOnset_timer ch _)
    · exact hshifted

theorem realign_timer (ch : Chan) : KeepsTimer (realign ch) := fun s => by
  unfold realign; split <;> exact ⟨rfl, id⟩

theorem prepared_timer (ch : Chan) : KeepsTimer (prepared ch) := fun s => by
  have hlocal : TimerKept s (refreshLocal ch s) := by rw [refreshLocal_frame]; exact ⟨rfl, id⟩
  refine TimerKept.trans
    (hlocal.trans ((turnBackOff_timer ch _).trans ((applyOffset_timer ch _).trans (realign_timer ch _)))) ?_
  show TimerKept _ (noteMapClamped ch _)
  rw [noteMapClamped_frame]; exact ⟨rfl, id⟩

theorem secondStall_timer (pos : Int) (ch : Chan) : KeepsTimer (secondStall pos ch) := fun s => by
  simp only [secondStall]
  split
  · exact (failRun_timer _ ch _).after ⟨rfl, id⟩
  · exact ⟨rfl, id⟩

theorem afterUpdate_timer (ch : Chan) : KeepsTimer (afterUpdate ch) := fun s => by
  unfold afterUpdate
  split
  · simp only [parkCheck]
    split
    · exact (ask_timer _ ch _).after ⟨rfl, id⟩
    · exact .refl s
  · simp only [stallCheck]
    repeat' split
    all_goals first
      | exact secondStall_timer _ ch s
      | exact ⟨rfl, id⟩

theorem enterCued_timer : KeepsTimer enterCued := fun s => by
  unfold enterCued
  split
  · exact (endPhase_timer _ _ _).after ((holdAtSetpoint_timer _ _).after ⟨rfl, id⟩)
  all_goals exact ⟨rfl, id⟩

theorem takeAfterUpdate_timer (ch : Chan) : KeepsTimer (takeAfterUpdate ch) := fun s => by
  unfold takeAfterUpdate
  split
  · simp only []
    split
    · exact (enterCued_timer _).after ⟨rfl, id⟩
    · exact ⟨rfl, id⟩
  · split <;> exact ⟨rfl, id⟩
  all_goals exact .refl s

theorem velocityReport_timer : KeepsTimer velocityReport :=
  KeepsTimer.ite enterBraking_timer .refl

theorem servoUpdate_timer (ch : Chan) : KeepsTimer (servoUpdate ch) := fun s => by
  rw [servoUpdate_eq]
  refine (prepared_timer ch s).trans (TimerKept.trans (t := recorded ch (prepared ch s)) ⟨rfl, id⟩ ?_)
  refine (KeepsTimer.anyOrder (fun f hf => ?_) _).trans (velocityReport_timer _)
  simp only [recordTakers, List.mem_cons, List.not_mem_nil, or_false] at hf
  rcases hf with rfl | rfl | rfl
  · exact .ite (p := fun _ => _ = true) (raiseCause_timer _ _ _ _ · ) .refl
  · exact afterUpdate_timer ch
  · exact takeAfterUpdate_timer ch

end Sys2Proof.Machine
end

section
/-! PROOFS. O60: the take engine, desk commands, received frames and a microsecond leave what the invariants of the frame timer and of the
tables read; a frame event moves the lock state within them; and the step (R60 to R64, R89, R104, R128). -/

namespace Sys2Proof.Machine

variable {s t u : State} {ch : Chan}

/-! ## The take engine and desk commands -/

theorem takeCommand_timer (serial : Byte) {f : State → State} (hf : KeepsTimer f) : KeepsTimer (takeCommand serial f) := fun s => by
  unfold takeCommand
  split
  · exact (hf _).after ⟨rfl, id⟩
  · exact .refl s

theorem recordTake_timer (take : Nat) (start : Word) : KeepsTimer (recordTake take start) := fun s => by
  unfold recordTake; split <;> exact ⟨rfl, id⟩

theorem endTake_timer : KeepsTimer endTake := fun s => by
  obtain ⟨-, h⟩ | ⟨-, h⟩ | ⟨-, -, h⟩ | ⟨-, -, -, h⟩ := endTake_cases s <;> rw [h]
  · exact (endDone_timer _ _).after ⟨rfl, id⟩
  all_goals exact ⟨rfl, id⟩

theorem cueTake_timer (take : Nat) : KeepsTimer (cueTake take) := fun s => by
  unfold cueTake
  split
  · simp only []; split <;> exact ⟨rfl, id⟩
  · exact ⟨rfl, id⟩

theorem startCueing_timer : KeepsTimer startCueing := fun s => by
  unfold startCueing
  simp only []
  have hall : TimerKept s (requestAll .cue (axisChans s) { s with te := { s.te with phase := .cueing, marks := .all false } }).2 :=
    (requestAll_timer _ _ _).after ⟨rfl, id⟩
  split
  · next heq => rwa [heq] at hall
  · next heq =>
    rw [heq] at hall
    exact (endPhase_timer _ _ _).after ((holdAtSetpoint_timer _ _).after hall)

theorem checkAnswer_timer (intact : Bool) : KeepsTimer (checkAnswer intact) := fun s => by
  unfold checkAnswer
  split
  · exact .refl s
  · split
    · exact ⟨rfl, id⟩
    · split
      · exact ⟨rfl, id⟩
      · exact startCueing_timer s

theorem runTake_timer (take : Nat) (start : Word) (rate length : Nat) : KeepsTimer (runTake take start rate length) := fun s => by
  unfold runTake; split <;> exact ⟨rfl, id⟩

theorem startRecording_timer : KeepsTimer startRecording := fun s => by
  unfold startRecording; split <;> exact ⟨rfl, id⟩

theorem appendFrame_timer : KeepsTimer appendFrame := fun s => by
  unfold appendFrame
  split
  · exact ⟨rfl, id⟩
  · exact (endDone_timer _ _).after ⟨rfl, id⟩
  · exact ⟨rfl, id⟩

theorem startPlay_timer : KeepsTimer startPlay := fun s => by
  have hall : TimerKept s (requestAll .play (axisChans s) s).2 := requestAll_timer _ _ s
  unfold startPlay
  split
  · next heq =>
    rw [heq] at hall
    exact (endPhase_timer _ _ _).after ((holdAtSetpoint_timer _ _).after hall)
  · next heq =>
    rw [heq] at hall
    exact hall.trans ⟨rfl, id⟩

theorem advancePlay_timer : KeepsTimer advancePlay := fun s => by
  simp only [advancePlay]
  split
  · exact (endDone_timer _ _).after ((KeepsTimer.chans (fun ch t => ask_timer _ ch t) _ _).after ⟨rfl, id⟩)
  · exact ⟨rfl, id⟩

theorem takeFrameEvent_timer : KeepsTimer takeFrameEvent := fun s => by
  unfold takeFrameEvent
  split
  · split
    · exact startRecording_timer s
    · exact .refl s
  · exact appendFrame_timer s
  · split
    · exact startPlay_timer s
    · exact .refl s
  · exact advancePlay_timer s
  all_goals exact .refl s

theorem abortTake_timer : KeepsTimer abortTake := fun s => by
  rw [abortTake_frame]; exact ⟨rfl, id⟩

theorem eraseTake_timer (take : Nat) : KeepsTimer (eraseTake take) := fun s => by
  rw [(eraseTake_frame take s).1]; exact ⟨rfl, id⟩

theorem protectTake_timer (take : Nat) : KeepsTimer (protectTake take) := fun s => by
  unfold protectTake; split <;> exact ⟨rfl, id⟩

theorem liveOrder_timer : KeepsTimer liveOrder := .ite liveRequests_timer fun _ => ⟨rfl, id⟩

theorem holdRelease_timer : KeepsTimer holdRelease := fun _ => ⟨rfl, id⟩

theorem executeDesk_timer (c : DeskContent) : KeepsTimer (executeDesk c) := fun s => by
  unfold executeDesk
  split
  · exact .refl s
  · exact takeCommand_timer _ (recordTake_timer _ _) s
  · exact takeCommand_timer _ endTake_timer s
  · exact takeCommand_timer _ (cueTake_timer _) s
  · exact takeCommand_timer _ (runTake_timer _ _ _ _) s
  · exact (abortRuns_timer _).after (takeCommand_timer _ abortTake_timer s)
  · exact takeCommand_timer _ (eraseTake_timer _) s
  · exact takeCommand_timer _ (protectTake_timer _) s
  · exact takeCommand_timer _ liveOrder_timer s
  · exact referenceCommand_timer s
  · exact holdRelease_timer s

theorem handConfirmed_timer : KeepsTimer handConfirmed := fun s => by
  obtain ⟨hc, -⟩ | ⟨c, -, hc⟩ := handConfirmed_cases s <;> rw [hc]
  · exact .refl s
  · exact (executeDesk_timer c _).after ⟨rfl, id⟩

/-! ## The tasks of a frame event (R66) -/

theorem stopPart_timer : KeepsTimer stopPart := fun s => by
  refine (stopFrameEvent_timer _).after ?_
  obtain hr | ⟨hr, -⟩ := handRelease_cases s <;> rw [hr]
  · exact .refl s
  · exact handConfirmed_timer s

theorem agePeers_timer : KeepsTimer agePeers := fun s =>
  ⟨rfl, fun h => by simpa only [tableSizes, agePeers, List.length_map] using h⟩

theorem ageFrameEvent_timer : KeepsTimer ageFrameEvent := fun s =>
  (KeepsTimer.foldl (f := fun t n => raiseCause .peerSilent (BitVec.ofNat 8 n) 0 0 t)
    (fun _ => raiseCause_timer _ _ _ _) _ _).after (agePeers_timer s)

theorem completeBuild_timer : KeepsTimer completeBuild := fun s => by
  unfold completeBuild; split <;> exact ⟨rfl, id⟩

theorem frameTasks_timer (stamp : Word) (old new : Lock) : ∀ f ∈ frameTasks stamp old new, KeepsTimer f := by
  intro f hf
  unfold frameTasks at hf
  rcases List.mem_append.mp hf with hf | hf
  · simp only [List.mem_cons, List.not_mem_nil, or_false] at hf
    rcases hf with rfl | rfl | rfl | rfl | rfl
    · exact fun _ => ⟨rfl, id⟩
    · exact ageFrameEvent_timer
    · exact handConfirmed_timer
    · exact stopPart_timer
    · exact takeFrameEvent_timer
  · split at hf
    · exact absurd hf List.not_mem_nil
    · rw [List.mem_singleton.mp hf]; exact lockNotice_timer new

/-- What the tasks of a frame event are handed, they leave. -/
theorem frameEvent_timer (pulse : Bool) (stamp : Word) (next : FrameTimer → FrameTimer) (s : State) :
    TimerKept { s with ft := stampEvent s.cfg.frameRate pulse stamp (next s.ft) } (frameEvent pulse stamp next s) :=
  (completeBuild_timer _).after (KeepsTimer.anyOrder (frameTasks_timer _ _ _) _)

/-! ## The lock state (R60 to R63) -/

/-- The counts and the measured period of a frame timer in their ranges, for a frame-rate code: `LockInv` without its last part. -/
structure LockCounts (code : Nat) (t : FrameTimer) : Prop where
  period : t.lock = .locked ∨ t.lock = .holdover → goodInterval code t.period = true
  lockCount : t.lockCount ≤ 8
  locking : t.lock = .locking → t.lockCount ≤ 7
  holdCount : t.holdCount ≤ 2
  holding : 1 ≤ t.holdCount ↔ t.lock = .holdover

theorem LockInv.counts (h : LockInv s) : LockCounts s.cfg.frameRate s.ft :=
  ⟨h.period, h.lockCount, h.locking, h.holdCount, h.holding⟩

theorem LockCounts.lockInv (h : LockCounts s.cfg.frameRate s.ft) (hstarted : started s = true) : LockInv s :=
  ⟨h.period, h.lockCount, h.locking, h.holdCount, h.holding, fun hnot => by simp [hstarted] at hnot⟩

theorem startLocking_counts (code : Nat) (t : FrameTimer) : LockCounts code (startLocking t) :=
  ⟨by simp [startLocking], by simp [startLocking], by simp [startLocking], by simp [startLocking], by simp [startLocking]⟩

theorem LockCounts.stamped {code : Nat} {f : FrameTimer} (h : LockCounts code f) (pulse : Bool) (stamp : Word) :
    LockCounts code (stampEvent code pulse stamp f) := ⟨h.period, h.lockCount, h.locking, h.holdCount, h.holding⟩

/-- A pulse event accepts a good interval as the measured period, counts toward LOCKED, or begins LOCKING anew (R60 to R63). -/
theorem pulseLock_counts {code : Nat} {f : FrameTimer} (interval : Option Nat) (h : LockCounts code f) :
    LockCounts code (pulseLock code interval f) := by
  obtain ⟨hperiod, hcount, hlocking, hhold, hholding⟩ := id h
  unfold pulseLock
  split
  · exact startLocking_counts code f
  · exact startLocking_counts code f
  · next d hlock =>
    have hnone : ¬1 ≤ f.holdCount := by simp [hholding, hlock]
    have hseven := hlocking hlock
    split
    · exact h
    · split
      · next hgood =>
        refine ⟨fun _ => hgood, ?_, ?_, hhold, ?_⟩
        · show f.lockCount + 1 ≤ 8; omega
        · show (if f.lockCount + 1 = 8 then Lock.locked else .locking) = .locking → f.lockCount + 1 ≤ 7
          split
          · exact fun hl => by cases hl
          · exact fun _ => by omega
        · refine iff_of_false hnone ?_
          show ¬(if f.lockCount + 1 = 8 then Lock.locked else .locking) = .holdover
          split <;> simp
      · exact ⟨by simp [hlock], Nat.zero_le _, fun _ => Nat.zero_le _, hhold, hholding⟩
  · next d hlock =>
    split
    · next hgood => exact ⟨fun _ => hgood, hcount, hlocking, hhold, hholding⟩
    · exact startLocking_counts code f
  · next d hlock =>
    split
    · exact ⟨fun _ => hperiod (.inr hlock), hcount, by simp, Nat.zero_le _, by simp⟩
    · exact startLocking_counts code f

/-- A synthetic event falls back by one state, HOLDOVER at its third (R60 to R63). -/
theorem expiryLock_counts {code : Nat} {f : FrameTimer} (h : LockCounts code f) : LockCounts code (expiryLock f) := by
  obtain ⟨hperiod, hcount, hlocking, hhold, hholding⟩ := id h
  unfold expiryLock
  split
  · exact h
  · next hlock =>
    exact ⟨by simp, Nat.zero_le _, by simp, hhold, by simp [hholding, hlock]⟩
  · next hlock =>
    exact ⟨fun _ => hperiod (.inl hlock), hcount, by simp, by simp, by simp⟩
  · next hlock =>
    have hone : 1 ≤ f.holdCount := hholding.mpr hlock
    split
    · exact ⟨by simp, hcount, by simp, Nat.zero_le _, by simp⟩
    · refine ⟨fun _ => hperiod (.inr hlock), hcount, hlocking, ?_, ?_⟩
      · show f.holdCount + 1 ≤ 2; omega
      · exact iff_of_true (Nat.le_add_left _ _) hlock

/-- A frame event of a station that has started keeps the invariants when its change of the lock state keeps the counts. -/
theorem TimerInv.frameEvent (h : TimerInv s) (hstarted : started s = true) (pulse : Bool) (stamp : Word)
    {next : FrameTimer → FrameTimer} (hnext : LockCounts s.cfg.frameRate (next s.ft)) :
    TimerInv (frameEvent pulse stamp next s) := by
  have hstamped : TimerInv { s with ft := stampEvent s.cfg.frameRate pulse stamp (next s.ft) } :=
    ⟨LockCounts.lockInv (hnext.stamped pulse stamp) hstarted,
      ⟨h.tables.peers, h.tables.remembered, h.tables.presence, h.tables.buttons, h.tables.selects⟩⟩
  exact hstamped.congr (frameEvent_timer pulse stamp next s)

end Sys2Proof.Machine
end

section
/-! PROOFS. O60: received frames, the desk unit and a microsecond leave what the invariants of the frame timer and of the tables read; the
finish starts the timer; and the step (R59 to R64, R89, R104, R128). -/

namespace Sys2Proof.Machine

variable {s t u : State} {ch : Chan}

/-! ## Received frames (R84, R86, R91, R92) -/

theorem modPeer_timer (n : Nat) (f : PeerRecord → PeerRecord) : KeepsTimer (modPeer n f) := fun s => by
  unfold modPeer
  split
  · exact .refl s
  · exact ⟨rfl, fun h => by simpa only [tableSizes, List.length_set] using h⟩

theorem peerStopNotice_timer (source : Nat) (body : List Byte) : KeepsTimer (peerStopNotice source body) :=
  .ite (fun s => raiseCause_timer _ _ _ _ s) .refl

/-- An alignment correction moves the count, which is no part of the invariants (R69). -/
theorem alignmentReading_timer (seq : Byte) (count : Word) : KeepsTimer (alignmentReading seq count) := fun s => by
  simp only [alignmentReading]
  split
  · exact ⟨rfl, id⟩
  · split
    · exact (loseTake_timer .alignLost s).trans ⟨rfl, id⟩
    · exact ⟨rfl, id⟩

theorem adoptArrival_timer (seq : Byte) (c : DeskContent) : KeepsTimer (adoptArrival seq c) := fun s => by
  simp only [adoptArrival]
  split
  · exact (executeDesk_timer c _).after ⟨rfl, id⟩
  · exact ⟨rfl, id⟩

theorem stateArrival_timer (source : Nat) (body : List Byte) : KeepsTimer (stateArrival source body) := fun s => by
  have hpeer := modPeer_timer source (takeState body) s
  have hpresence : ∀ b, KeepsTimer (presenceNotice source body b) := fun b t => ⟨rfl, id⟩
  have hnotices : ∀ b, ∀ f ∈ [presenceNotice source body b, peerStopNotice source body], KeepsTimer f := by
    intro b f hf
    simp only [List.mem_cons, List.not_mem_nil, or_false] at hf
    rcases hf with rfl | rfl
    · exact hpresence b
    · exact peerStopNotice_timer _ _
  simp only [stateArrival]
  split
  · refine (KeepsTimer.anyOrder (fun f hf => ?_) _).after (hpeer.trans ⟨rfl, id⟩)
    rcases List.mem_append.mp hf with hf | hf
    · exact hnotices _ f hf
    · simp only [List.mem_cons, List.not_mem_nil, or_false] at hf
      rcases hf with rfl | rfl
      · exact alignmentReading_timer _ _
      · exact adoptArrival_timer _ _
  · exact (KeepsTimer.anyOrder (hnotices _) _).after hpeer

theorem wheelArrival_timer (source : Nat) (seq : Byte) (values : PerChan Int) : KeepsTimer (wheelArrival source seq values) :=
  fun s => by
  rw [(wheelArrival_spec source seq values s).1]; exact ⟨rfl, id⟩

theorem stopArrival_timer (source : Nat) (body : List Byte) : KeepsTimer (stopArrival source body) := fun s => by
  have hremembered : TimerKept s (stopRemembered source (byteAt body 8) s) :=
    ⟨rfl, fun h => by simpa only [tableSizes, stopRemembered, List.length_set] using h⟩
  obtain ⟨-, h⟩ | ⟨-, -, h⟩ | ⟨-, -, h⟩ := stopArrival_cases source body s <;> rw [h]
  · exact .refl s
  · exact hremembered
  · exact (raiseCause_timer _ _ _ _ _).after hremembered

theorem receive_timer (heard : List Bool) : KeepsTimer (receive heard) := fun s => by
  simp only [receive]
  split
  · exact ⟨rfl, id⟩
  · unfold frameEnd
    split
    · exact ⟨rfl, id⟩
    · split
      · exact (raiseOwn_timer _ _).after ⟨rfl, id⟩
      · simp only [handOn]
        split
        · exact stateArrival_timer _ _ s
        · split
          · exact wheelArrival_timer _ _ _ s
          · exact stopArrival_timer _ _ s

theorem slotAfterSend_timer (f : Flight) (success : Bool) : KeepsTimer (slotAfterSend f success) := fun s => by
  have hnotice : TimerKept s (sentNotice f.seq f.desk s) := by
    unfold sentNotice; split <;> exact ⟨rfl, id⟩
  unfold slotAfterSend
  split
  · split
    · exact hnotice
    · exact .refl s
  · exact .refl s
  · split <;> exact ⟨rfl, id⟩

/-! ## The desk unit and the scans -/

theorem setPressed_timer (place : Nat) : KeepsTimer (setPressed place) := fun s =>
  ⟨rfl, fun h => by simpa only [tableSizes, setPressed, List.length_set] using h⟩

theorem publishButton_timer (b : Button) : KeepsTimer (publishButton b) := fun s => by
  unfold publishButton; cases b <;> exact ⟨rfl, id⟩

theorem panelScan_timer : KeepsTimer panelScan := fun s => by
  have hwatch : TimerKept s (abortWatch s) := by
    unfold abortWatch
    split
    · exact .refl s
    · split <;> exact ⟨rfl, id⟩
  exact hwatch.trans ⟨rfl, id⟩

theorem zoneScan_timer : KeepsTimer zoneScan := fun s =>
  (KeepsTimer.foldl (f := fun t id => raiseCause .zoneBreach (stationByte t) 0 (BitVec.ofNat 8 id) t)
    (fun _ t => raiseCause_timer _ _ _ _ t) _ (writeStatuses (armSilent s))).after ⟨rfl, id⟩

/-! ## A microsecond -/

theorem tickPresence_timer (i : Fin 4) : KeepsTimer (tickPresence i) := fun s => by
  rw [tickPresence_frame]
  exact ⟨rfl, fun h => by simpa only [tableSizes, List.length_set] using h⟩

theorem tickChannel_timer (old : Lines) (x : LineSample) (ch : Chan) : KeepsTimer (tickChannel old x ch) := fun s => by
  rw [tickChannel_frame]; exact ⟨rfl, id⟩

theorem tickButton_timer (i : Nat) : KeepsTimer (tickButton i) := fun s => by
  rw [tickButton_frame]
  exact ⟨rfl, fun h => by simpa only [tableSizes, List.length_set] using h⟩

theorem tickDesk_timer : KeepsTimer tickDesk := .ite (fun s => by
  have hbuttons := KeepsTimer.foldl (f := fun t i => tickButton i t) tickButton_timer (List.range 10) s
  have hkey : ∀ t, TimerKept t (tickKey t) := fun t => by rw [tickKey_frame]; exact ⟨rfl, id⟩
  have hselects : ∀ t, TimerKept t (tickSelects t) := fun t =>
    ⟨rfl, fun h => by simpa only [tableSizes, tickSelects, List.length_mapIdx] using h⟩
  exact (hselects _).after ((hkey _).after hbuttons)) .refl

theorem sampleLines_timer (before : Word) (old : Lines) (x : LineSample) : KeepsTimer (sampleLines before old x) := fun s => by
  have hchain : TimerKept s (tickChain s) := by rw [tickChain_frame]; exact ⟨rfl, id⟩
  have hpresence := (tickPresence_timer 3 _).after ((tickPresence_timer 2 _).after ((tickPresence_timer 1 _).after
    ((tickPresence_timer 0 _).after hchain)))
  have hchannels := (KeepsTimer.chans (tickChannel_timer old x) Chan.list _).after hpresence
  have htrunk : ∀ t, TimerKept t (tickTrunk before x.trunk t) := fun t => by rw [tickTrunk_frame]; exact ⟨rfl, id⟩
  have hfref : ∀ t, TimerKept t (tickFref t) := fun t => by rw [tickFref_frame]; exact ⟨rfl, id⟩
  exact (tickDesk_timer _).after ((hfref _).after ((htrunk _).after hchannels))

theorem idle_timer : KeepsTimer idle := fun s => by
  by_cases hdue : s.sampled.flatten ++ dueEvents s = []
  · obtain ⟨hfound, hdue⟩ := List.append_eq_nil_iff.mp hdue
    rw [idle_ticks hfound hdue]
    by_cases hheld : s.su.phase = .held
    · rw [tick_held hheld]; exact ⟨rfl, id⟩
    · rw [tick_runs hheld]; exact (sampleLines_timer _ _ _ _).after ⟨rfl, id⟩
  · obtain ⟨c, -, sampled, order, draws, hidle, -⟩ := idle_takes hdue
    rw [hidle]; exact ⟨rfl, id⟩

/-! ## The start-up unit (R178, R180) -/

/-- After a reset the timer is FREE without a deadline, and every table has its size (R70, R90, R117, R134, R177). -/
theorem resetTo_timerInv (byPower : Bool) (store : Store) (s : State) : TimerInv (resetTo byPower store s) :=
  ⟨⟨by simp [FrameTimer.initial], by simp [FrameTimer.initial], by simp [FrameTimer.initial], by simp [FrameTimer.initial],
    by simp [FrameTimer.initial], fun _ => ⟨rfl, rfl⟩⟩, ⟨rfl, rfl, rfl, rfl, rfl⟩⟩

/-- A timer in FREE may be given any deadline and any period. -/
theorem finishFrameTimer_counts {code : Nat} {f : FrameTimer} (hfree : f.lock = .free) (h : LockCounts code f) (now : Word)
    (fref aligned : Bool) (rate : Nat) : LockCounts rate (finishFrameTimer now fref rate aligned f) :=
  ⟨by simp [finishFrameTimer, hfree], h.lockCount, h.locking, h.holdCount, h.holding⟩

theorem finishValid_timerInv (c : Cfg) (zones : List ZoneCfg) (h : TimerInv s) (hfree : s.ft.lock = .free) :
    TimerInv (finishValid c zones s) := by
  refine ⟨LockCounts.lockInv (finishFrameTimer_counts hfree h.lock.counts _ _ _ _) (by simp [started, finishValid]), ?_⟩
  obtain ⟨hpeers, hremembered, hpresence, hbuttons, hselects⟩ := h.tables
  refine ⟨hpeers, hremembered, ?_, ?_, ?_⟩
  · simpa [finishValid, finishZones, resamplePresence] using hpresence
  · simp only [finishValid]; split
    · simpa [finishDesk] using hbuttons
    · exact hbuttons
  · simp only [finishValid]; split
    · simpa [finishDesk] using hselects
    · exact hselects

theorem finishInvalid_timerInv (h : TimerInv s) (hfree : s.ft.lock = .free) : TimerInv (finishInvalid s) :=
  ⟨LockCounts.lockInv (s := finishInvalid s) (finishFrameTimer_counts hfree h.lock.counts _ _ _ _) rfl,
    ⟨h.tables.peers, h.tables.remembered, h.tables.presence, h.tables.buttons, h.tables.selects⟩⟩

/-! ## Every command -/

/-- An outcome that, if it is a next state, leaves what the invariants read. -/
def AnswersKept (s : State) (o : Host.Outcome State Fault Refusal) : Prop := ∀ t, o = .next t → TimerKept s t

/-- An outcome that, if it is a next state, meets the invariants. -/
def AnswersTimer (o : Host.Outcome State Fault Refusal) : Prop := ∀ t, o = .next t → TimerInv t

theorem TimerInv.answers (h : TimerInv s) : AnswersTimer (.next s) := by rintro _ ⟨⟩; exact h

theorem TimerKept.answers (h : TimerKept s t) : AnswersKept s (.next t) := by rintro _ ⟨⟩; exact h

theorem AnswersKept.inv {o : Host.Outcome State Fault Refusal} (h : AnswersKept s o) (hs : TimerInv s) : AnswersTimer o :=
  fun t ht => hs.congr (h t ht)

theorem execResetRelease_timer (straps : BitVec 5) (h : TimerInv s) : AnswersTimer (execResetRelease straps s) := by
  unfold execResetRelease
  split
  · next hheld =>
    obtain ⟨hfree, hdeadline⟩ := h.lock.beforeFinish (by simp [started, hheld])
    obtain ⟨hpeers, hremembered, hpresence, hbuttons, hselects⟩ := h.tables
    refine TimerInv.answers ⟨⟨h.lock.period, h.lock.lockCount, h.lock.locking, h.lock.holdCount, h.lock.holding,
      fun _ => ⟨hfree, hdeadline⟩⟩, ⟨hpeers, hremembered, ?_, hbuttons, hselects⟩⟩
    simpa [resamplePresence] using hpresence
  · exact h.answers

/-- Before the finish the timer is FREE, so that the finish may set its period. -/
theorem execStartUpFinish_timer (memory : Option (List Byte)) (h : TimerInv s) : AnswersTimer (execStartUpFinish memory s) := by
  unfold execStartUpFinish
  split
  · next hreading =>
    obtain ⟨hfree, -⟩ := h.lock.beforeFinish (by simp [started, hreading])
    have hread : TimerKept s (imageRead memory s) := (advanceTo_timer _ _).after ⟨rfl, id⟩
    have hfree' : (imageRead memory s).ft.lock = .free := by rw [imageRead, advanceTo_ft]; exact hfree
    refine TimerInv.answers ?_
    split
    · exact finishValid_timerInv _ _ (h.congr hread) hfree'
    · exact finishInvalid_timerInv (h.congr hread) hfree'
  · exact h.answers

theorem execFrefArrival_timer (h : TimerInv s) : AnswersTimer (execFrefArrival s) := by
  unfold execFrefArrival
  split
  · next hruns =>
    have hstarted : started s = true := (Bool.and_eq_true _ _ ▸ hruns).1
    have hline : TimerKept s { s with lines := { s.lines with fref := true }, ft := { s.ft with frefLow := false } } := ⟨rfl, id⟩
    refine TimerInv.answers ?_
    split
    · exact h.congr (hline.trans ⟨rfl, id⟩)
    · exact (h.congr hline).frameEvent hstarted _ _ (pulseLock_counts _ (h.congr hline).lock.counts)
  · exact h.answers

/-- A deadline runs after the finish alone. -/
theorem execFrameDeadlineExpiry_timer (h : TimerInv s) : AnswersTimer (execFrameDeadlineExpiry s) := by
  unfold execFrameDeadlineExpiry
  split
  · exact h.answers
  · next time hdeadline =>
    have hstarted : started s = true := by
      by_contra hnot
      obtain ⟨-, hnone⟩ := h.lock.beforeFinish (Bool.eq_false_iff.mpr hnot)
      simp [hdeadline] at hnone
    have hadvance := h.congr (advanceTo_timer time s)
    refine TimerInv.answers (hadvance.frameEvent ?_ _ _ (expiryLock_counts hadvance.lock.counts))
    rw [started, advanceTo_su]; exact hstarted

/-! ## The other commands: each leaves what the invariants read -/

theorem followQuad_timer (ch : Chan) : KeepsTimer (followQuad ch) := fun _ => ⟨rfl, id⟩

theorem execLegalTransition_timer (ch : Chan) (line : QuadLine) (s : State) : AnswersKept s (execLegalTransition ch line s) := by
  unfold execLegalTransition
  split
  · refine TimerKept.answers ?_
    split
    · exact (feedbackOnset_timer ch _).after ((followQuad_timer ch _).after ⟨rfl, id⟩)
    · exact (followQuad_timer ch _).after ⟨rfl, id⟩
  · exact (TimerKept.refl s).answers

theorem execIllegalTransition_timer (ch : Chan) (s : State) : AnswersKept s (execIllegalTransition ch s) := by
  unfold execIllegalTransition
  split
  · refine TimerKept.answers ?_
    split
    · exact (feedbackOnset_timer ch _).after ((followQuad_timer ch _).after ⟨rfl, id⟩)
    · exact (followQuad_timer ch _).after ⟨rfl, id⟩
  · exact (TimerKept.refl s).answers

theorem execLeakEvent_timer (ch : Chan) (s : State) : AnswersKept s (execLeakEvent ch s) := by
  unfold execLeakEvent
  split
  · exact (TimerKept.refl s).answers
  · exact TimerKept.answers ((advanceTo_timer _ s).trans ⟨rfl, id⟩)

theorem execIndexRise_timer (ch : Chan) (s : State) : AnswersKept s (execIndexRise ch s) := by
  have hrise : TimerKept s (riseIndex ch s) := by rw [riseIndex_eq]; exact ⟨rfl, id⟩
  unfold execIndexRise
  simp only []
  split
  · refine TimerKept.answers ?_
    split
    · exact (capture_timer _ ch _).after hrise
    · exact hrise
  · exact (TimerKept.refl s).answers

theorem execAnalogConversion_timer (ch : Chan) (reading : BitVec 16) (s : State) :
    AnswersKept s (execAnalogConversion ch reading s) := by
  unfold execAnalogConversion
  split
  · exact (TimerKept.refl s).answers
  · next time _ =>
    have hrecord : ∀ (f g : Feedback → Feedback) (c : Bool), TimerKept s (modFb ch g
        (if c then feedbackOnset ch (modFb ch f (advanceTo time s)) else modFb ch f (advanceTo time s))) := fun f g c => by
      have htrack : TimerKept s (modFb ch f (advanceTo time s)) := (advanceTo_timer time s).trans ⟨rfl, id⟩
      split
      · exact ((feedbackOnset_timer ch _).after htrack).trans ⟨rfl, id⟩
      · exact htrack.trans ⟨rfl, id⟩
    exact (hrecord _ _ _).answers

theorem execLimitFilteredChange_timer (ch : Chan) (sw : Switch) (active : Bool) (s : State) :
    AnswersKept s (execLimitFilteredChange ch sw active s) := by
  have hactive : ∀ t, TimerKept t (switchActive ch sw t) := fun t => by
    have hnoted : TimerKept t (captureNoted ch sw t) := by rw [captureNoted_frame]; exact ⟨rfl, id⟩
    show TimerKept t (if !homeSignal t ch sw && movingToward (t.mo.get ch).v sw then
      raiseChannel .hardLimit ch (captureNoted ch sw t) else captureNoted ch sw t)
    split
    · exact (raiseCause_timer _ _ _ _ _).after hnoted
    · exact hnoted
  unfold execLimitFilteredChange
  split
  · refine TimerKept.answers ?_
    split
    · exact (hactive _).after ⟨rfl, id⟩
    · exact ⟨rfl, id⟩
  · exact (TimerKept.refl s).answers

theorem execProvisionalCountNoted_timer (ch : Chan) (sw : Switch) (active : Bool) (s : State) :
    AnswersKept s (execProvisionalCountNoted ch sw active s) := by
  unfold execProvisionalCountNoted
  split
  · refine TimerKept.answers ?_
    split <;> exact ⟨rfl, id⟩
  · exact (TimerKept.refl s).answers

theorem execServoUpdate_timer (ch : Chan) (s : State) : AnswersKept s (execServoUpdate ch s) := by
  unfold execServoUpdate
  split
  · exact (TimerKept.refl s).answers
  · exact TimerKept.answers ((servoUpdate_timer ch _).after ((advanceTo_timer _ s).trans ⟨rfl, id⟩))

theorem execPwmPeriodStart_timer (ch : Chan) (s : State) : AnswersKept s (execPwmPeriodStart ch s) := by
  unfold execPwmPeriodStart
  split <;> exact TimerKept.answers ⟨rfl, id⟩

theorem execRunTimerExpiry_timer (ch : Chan) (s : State) : AnswersKept s (execRunTimerExpiry ch s) := by
  unfold execRunTimerExpiry
  split
  · exact (TimerKept.refl s).answers
  · next time _ =>
    have htimer : TimerKept s (timerStopped ch time s) := (advanceTo_timer time s).trans ⟨rfl, id⟩
    refine TimerKept.answers ?_
    split
    · exact (failRun_timer _ ch _).after htimer
    · exact htimer

theorem execWheelStaleExpiry_timer (ch : Chan) (s : State) : AnswersKept s (execWheelStaleExpiry ch s) := by
  unfold execWheelStaleExpiry
  split
  · exact (TimerKept.refl s).answers
  · exact TimerKept.answers ((advanceTo_timer _ s).trans ⟨rfl, id⟩)

theorem execFrameStart_timer (s : State) : AnswersKept s (execFrameStart s) := by
  unfold execFrameStart; split <;> exact TimerKept.answers ⟨rfl, id⟩

theorem execLineQuiet_timer (heard : List Bool) (s : State) : AnswersKept s (execLineQuiet heard s) := by
  have hquiet : TimerKept s (quietDeclared s) := (advanceTo_timer _ s).trans ⟨rfl, id⟩
  unfold execLineQuiet
  split
  · exact (TimerKept.refl s).answers
  · refine TimerKept.answers ?_
    split
    · exact (receive_timer heard _).after hquiet
    · exact hquiet

theorem execFrameOversize_timer (s : State) : AnswersKept s (execFrameOversize s) := by
  unfold execFrameOversize; split <;> exact TimerKept.answers ⟨rfl, id⟩

theorem execPublishTimeExpiry_timer (s : State) : AnswersKept s (execPublishTimeExpiry s) := by
  unfold execPublishTimeExpiry
  split
  · exact TimerKept.answers ((advanceTo_timer _ s).trans ⟨rfl, id⟩)
  all_goals exact (TimerKept.refl s).answers

theorem execWheelTimerExpiry_timer (s : State) : AnswersKept s (execWheelTimerExpiry s) := by
  unfold execWheelTimerExpiry
  split
  · exact (TimerKept.refl s).answers
  · exact TimerKept.answers ((advanceTo_timer _ s).trans ⟨rfl, id⟩)

theorem execSendStart_timer (cls : FrameClass) (s : State) : AnswersKept s (execSendStart cls s) := by
  unfold execSendStart
  split
  · split <;> exact TimerKept.answers ⟨rfl, id⟩
  · exact (TimerKept.refl s).answers

theorem execSendEnd_timer (others : List Bool) (s : State) : AnswersKept s (execSendEnd others s) := by
  unfold execSendEnd
  split
  · exact (TimerKept.refl s).answers
  · have hcount : ∀ success t, TimerKept t (countCollision success t) := fun success t => by
      unfold countCollision; split <;> exact ⟨rfl, id⟩
    have hend : ∀ f t, TimerKept t (endFlight f others t) := fun _ _ => ⟨rfl, id⟩
    exact TimerKept.answers ((slotAfterSend_timer _ _ _).after ((hcount _ _).after ((hend _ _).after (advanceTo_timer _ s))))

theorem execPresenceFilteredChange_timer (line : Fin 4) (occupied : Bool) (s : State) :
    AnswersKept s (execPresenceFilteredChange line occupied s) := by
  unfold execPresenceFilteredChange
  split
  · exact (TimerKept.refl s).answers
  · exact TimerKept.answers ⟨rfl, fun h => by simpa only [tableSizes, mapZones, setPresenceLine, List.length_set] using h⟩

theorem execClearHoldExpiry_timer (zone : Nat) (s : State) : AnswersKept s (execClearHoldExpiry zone s) := by
  unfold execClearHoldExpiry
  split
  · exact (TimerKept.refl s).answers
  · exact TimerKept.answers ((advanceTo_timer _ s).trans ⟨rfl, id⟩)

theorem execZoneScan_timer (s : State) : AnswersKept s (execZoneScan s) := by
  unfold execZoneScan
  split
  · exact (TimerKept.refl s).answers
  · exact TimerKept.answers ((zoneScan_timer _).after ((advanceTo_timer _ s).trans ⟨rfl, id⟩))

theorem execEstopFilteredChange_timer (closed : Bool) (s : State) : AnswersKept s (execEstopFilteredChange closed s) := by
  unfold execEstopFilteredChange
  split
  · exact (TimerKept.refl s).answers
  · refine TimerKept.answers ?_
    split
    · exact ⟨rfl, id⟩
    · exact (raiseOwn_timer _ _).after ⟨rfl, id⟩

theorem execStopTimerExpiry_timer (s : State) : AnswersKept s (execStopTimerExpiry s) := by
  unfold execStopTimerExpiry
  split
  · exact (TimerKept.refl s).answers
  · exact TimerKept.answers ((raiseOwn_timer _ _).after ((advanceTo_timer _ s).trans ⟨rfl, id⟩))

theorem execBrakeTimerExpiry_timer (s : State) : AnswersKept s (execBrakeTimerExpiry s) := by
  unfold execBrakeTimerExpiry
  split
  · exact (TimerKept.refl s).answers
  · exact TimerKept.answers ((enterHalted_timer _).after (advanceTo_timer _ s))

theorem execReleaseTimerExpiry_timer (s : State) : AnswersKept s (execReleaseTimerExpiry s) := by
  unfold execReleaseTimerExpiry
  split
  · exact (TimerKept.refl s).answers
  · exact TimerKept.answers ((enterRun_timer _).after (advanceTo_timer _ s))

theorem execStopButtonPress_timer (s : State) : AnswersKept s (execStopButtonPress s) := by
  unfold execStopButtonPress
  split
  · exact TimerKept.answers ((raiseOwn_timer _ _).after (setPressed_timer _ s))
  · exact (TimerKept.refl s).answers

theorem execCheckRunCompletion_timer (s : State) : AnswersKept s (execCheckRunCompletion s) := by
  unfold execCheckRunCompletion
  split
  · exact (TimerKept.refl s).answers
  · exact TimerKept.answers ((checkAnswer_timer _ _).after ((advanceTo_timer _ s).trans ⟨rfl, id⟩))

theorem execButtonPress_timer (b : Button) (s : State) : AnswersKept s (execButtonPress b s) := by
  unfold execButtonPress
  split
  · refine TimerKept.answers ?_
    split
    · exact (publishButton_timer b _).after (setPressed_timer _ s)
    · exact (setPressed_timer (buttonPlace b) s).trans ⟨rfl, id⟩
  · exact (TimerKept.refl s).answers

theorem execReleaseKeyPress_timer (s : State) : AnswersKept s (execReleaseKeyPress s) := by
  unfold execReleaseKeyPress; split <;> exact TimerKept.answers ⟨rfl, id⟩

theorem execReleaseKeyLetgo_timer (s : State) : AnswersKept s (execReleaseKeyLetgo s) := by
  unfold execReleaseKeyLetgo; split <;> exact TimerKept.answers ⟨rfl, id⟩

theorem execReleaseHoldExpiry_timer (s : State) : AnswersKept s (execReleaseHoldExpiry s) := by
  unfold execReleaseHoldExpiry
  split
  · exact (TimerKept.refl s).answers
  · exact TimerKept.answers ((advanceTo_timer _ s).trans ⟨rfl, id⟩)

theorem execRefusalLampExpiry_timer (s : State) : AnswersKept s (execRefusalLampExpiry s) := by
  unfold execRefusalLampExpiry
  split
  · exact (TimerKept.refl s).answers
  · exact TimerKept.answers ((advanceTo_timer _ s).trans ⟨rfl, id⟩)

theorem execPanelScan_timer (s : State) : AnswersKept s (execPanelScan s) := by
  unfold execPanelScan
  split
  · exact (TimerKept.refl s).answers
  · exact TimerKept.answers ((panelScan_timer _).after ((advanceTo_timer _ s).trans ⟨rfl, id⟩))

/-- A desk command given from outside. -/
theorem deskCommand_answersKept {f : State → State} (hf : KeepsTimer f) (s : State) :
    AnswersKept s (.next (deskCommand f s)) := (hf.desk s).answers

/-! ## Every command, and every step -/

theorem exec_timer (c : Instr) (h : TimerInv s) : AnswersTimer (exec c s) := by
  cases c with
  | powerReset => exact (resetTo_timerInv _ _ s).answers
  | warmReset => exact (resetTo_timerInv _ _ s).answers
  | resetRelease straps => exact execResetRelease_timer straps h
  | startUpFinish memory => exact execStartUpFinish_timer memory h
  | frefArrival => exact execFrefArrival_timer h
  | frameDeadlineExpiry => exact execFrameDeadlineExpiry_timer h
  | legalTransition ch line => exact (execLegalTransition_timer ch line s).inv h
  | illegalTransition ch => exact (execIllegalTransition_timer ch s).inv h
  | leakEvent ch => exact (execLeakEvent_timer ch s).inv h
  | indexRise ch => exact (execIndexRise_timer ch s).inv h
  | analogConversion ch reading => exact (execAnalogConversion_timer ch reading s).inv h
  | limitFilteredChange ch sw active => exact (execLimitFilteredChange_timer ch sw active s).inv h
  | servoUpdate ch => exact (execServoUpdate_timer ch s).inv h
  | frameStart => exact (execFrameStart_timer s).inv h
  | lineQuiet heard => exact (execLineQuiet_timer heard s).inv h
  | publishTimeExpiry => exact (execPublishTimeExpiry_timer s).inv h
  | wheelTimerExpiry => exact (execWheelTimerExpiry_timer s).inv h
  | sendStart cls => exact (execSendStart_timer cls s).inv h
  | sendEnd others => exact (execSendEnd_timer others s).inv h
  | wheelStaleExpiry ch => exact (execWheelStaleExpiry_timer ch s).inv h
  | runTimerExpiry ch => exact (execRunTimerExpiry_timer ch s).inv h
  | presenceFilteredChange line occupied => exact (execPresenceFilteredChange_timer line occupied s).inv h
  | clearHoldExpiry zone => exact (execClearHoldExpiry_timer zone s).inv h
  | zoneScan => exact (execZoneScan_timer s).inv h
  | estopFilteredChange closed => exact (execEstopFilteredChange_timer closed s).inv h
  | stopTimerExpiry => exact (execStopTimerExpiry_timer s).inv h
  | brakeTimerExpiry => exact (execBrakeTimerExpiry_timer s).inv h
  | releaseTimerExpiry => exact (execReleaseTimerExpiry_timer s).inv h
  | checkRunCompletion => exact (execCheckRunCompletion_timer s).inv h
  | record serial take start => exact (deskCommand_answersKept (takeCommand_timer serial (recordTake_timer _ _)) s).inv h
  | endTake serial => exact (deskCommand_answersKept (takeCommand_timer serial endTake_timer) s).inv h
  | cue serial take => exact (deskCommand_answersKept (takeCommand_timer serial (cueTake_timer _)) s).inv h
  | run serial take start rate length =>
    exact (deskCommand_answersKept (takeCommand_timer serial (runTake_timer _ _ _ _)) s).inv h
  | abort serial => exact (deskCommand_answersKept (abortRuns_timer.comp (takeCommand_timer serial abortTake_timer)) s).inv h
  | erase serial take => exact (deskCommand_answersKept (takeCommand_timer serial (eraseTake_timer _)) s).inv h
  | protect serial take => exact (deskCommand_answersKept (takeCommand_timer serial (protectTake_timer _)) s).inv h
  | live serial => exact (deskCommand_answersKept (takeCommand_timer serial liveOrder_timer) s).inv h
  | reference => exact (deskCommand_answersKept referenceCommand_timer s).inv h
  | release => exact (deskCommand_answersKept holdRelease_timer s).inv h
  | buttonPress button => exact (execButtonPress_timer button s).inv h
  | stopButtonPress => exact (execStopButtonPress_timer s).inv h
  | releaseKeyPress => exact (execReleaseKeyPress_timer s).inv h
  | releaseKeyLetgo => exact (execReleaseKeyLetgo_timer s).inv h
  | releaseHoldExpiry => exact (execReleaseHoldExpiry_timer s).inv h
  | refusalLampExpiry => exact (execRefusalLampExpiry_timer s).inv h
  | panelScan => exact (execPanelScan_timer s).inv h
  | pwmPeriodStart ch => exact (execPwmPeriodStart_timer ch s).inv h
  | provisionalCountNoted ch sw active => exact (execProvisionalCountNoted_timer ch sw active s).inv h
  | frameOversize => exact (execFrameOversize_timer s).inv h

/-- Settles O60: a step is one command, or the station's own doing on an empty queue; each keeps the frame timer's counts in their ranges
and every table its size. -/
theorem frameTimerKept : Obligations.FrameTimerKept := by
  intro s t hlock htables hstep
  have h : TimerInv s := ⟨hlock, htables⟩
  suffices htimer : AnswersTimer (step s) from ⟨(htimer t hstep).lock, (htimer t hstep).tables⟩
  unfold step
  split
  · exact (h.congr (idle_timer s)).answers
  · exact exec_timer _ (h.congr ⟨rfl, id⟩)

/-- Settles O55: after reset the station is HALTED, every channel is in OFF without a run, no take is worked on, the store is empty and every
page free, the timer FREE without a deadline, and every table has its size (R70, R117, R134, R149). -/
theorem resetMeetsInvariants : Obligations.ResetMeetsInvariants := by
  have htimer : TimerInv State.reset := resetTo_timerInv true .initial State.reset
  have hstop : StopInv State.reset :=
    ⟨by simp [State.reset, StopCtl.initial], by simp [State.reset, StopCtl.initial], by simp [State.reset, StopCtl.initial], rfl,
      by simp [State.reset, StopCtl.initial, underWay], by simp [State.reset, StopCtl.initial],
      fun _ => Nat.le_refl 1, fun _ => ⟨rfl, rfl⟩⟩
  have hmo : ∀ ch, State.reset.mo.get ch = .initial := PerChan.get_all _
  have hrf : ∀ ch, State.reset.rf.get ch = .initial := PerChan.get_all _
  have hwork : WorkInv State.reset :=
    workInv_of_idle (fun ch => .inl (by rw [hmo]; exact ⟨rfl, rfl, rfl, rfl⟩)) (fun ch => by rw [hrf]; exact ⟨rfl, rfl⟩) rfl
  refine ⟨hstop, hwork.modes, hwork.take, by simp [ZoneInv, State.reset, ZoneMonitor.initial], ?caps, ?store, ?record, htimer.lock,
    htimer.tables⟩
  case caps => intro ch; cases ch <;> rfl
  case store =>
    exact ⟨rfl, by simp [State.reset, Store.initial], Nat.zero_le _, List.nodup_nil, Nat.zero_le _,
      by simp [State.reset, Store.initial], by simp [State.reset, Store.initial]⟩
  case record =>
    exact ⟨by simp [State.reset, Store.initial, TakeEngine.initial, recordings],
      by simp [State.reset, Store.initial, TakeEngine.initial]⟩

end Sys2Proof.Machine
end

section
/-! PROOFS. The configuration image: what its checks give of the fields that a valid image hands out (R58, R78, R80, R89, R109, R180, R182). -/

namespace Sys2Proof.Machine

variable {b : List Byte} {o : Nat}

/-! ## Fields and their defaults -/

theorem inRange_iff (lo hi n : Nat) : inRange lo hi n = true ↔ lo ≤ n ∧ n ≤ hi := by simp [inRange]

theorem zeroOr_iff (lo hi n : Nat) : zeroOr lo hi n = true ↔ n = 0 ∨ (lo ≤ n ∧ n ≤ hi) := by simp [zeroOr, inRange_iff]

/-- A field that passes its check lies in the range with its default, when the default lies there (R180). -/
theorem orDefault_inRange {lo hi default n : Nat} (h : zeroOr lo hi n = true) (hlo : lo ≤ default) (hhi : default ≤ hi) :
    lo ≤ orDefault default n ∧ orDefault default n ≤ hi := by
  unfold orDefault
  split
  · exact ⟨hlo, hhi⟩
  · next hne => exact ((zeroOr_iff lo hi n).mp h).resolve_left hne

theorem n16_lt (b : List Byte) (i : Nat) : n16 b i < 65536 := (word16At b i).isLt

theorem intAt_le (b : List Byte) (i : Nat) : intAt b i ≤ Config.maxCount := by
  have h := BitVec.toInt_lt (x := word32At b i)
  simp only [intAt, Config.maxCount]
  omega

theorem inCounts_iff (b : List Byte) (i : Nat) :
    inCounts b i = true ↔ -Config.maxCount ≤ intAt b i ∧ intAt b i ≤ Config.maxCount := by simp [inCounts]

theorem nominalPeriod_ge (code : Nat) : 16667 ≤ Config.nominalPeriod code := by
  unfold Config.nominalPeriod; split <;> decide

/-! ## The walk over the zone records (R182) -/

theorem zoneWalk_length (b : List Byte) (count o : Nat) : (zoneWalk b count o).1.length = count := by
  induction count generalizing o with
  | zero => rfl
  | succ count ih => simp [zoneWalk, ih]

/-- The walk ends behind its records, each of 10 bytes and 10 for each term. -/
theorem zoneWalk_end (b : List Byte) (count o : Nat) :
    (zoneWalk b count o).2 = o + ((zoneWalk b count o).1.map fun i => 10 + 10 * natAt b (i + 9)).sum := by
  induction count generalizing o with
  | zero => rfl
  | succ count ih =>
    simp only [zoneWalk, List.map_cons, List.sum_cons]
    rw [ih]
    omega

theorem uniqueIds_iff (ids : List Nat) : uniqueIds ids = true ↔ ids.Nodup := by
  induction ids with
  | nil => simp [uniqueIds]
  | cons id rest ih => simp [uniqueIds, ih]

/-! ## Channel blocks -/

@[simp] theorem imageCfg_chans (b : List Byte) (ch : Chan) : (imageCfg b).chans.get ch = blockCfg b (blockAt b ch) := by
  cases ch <;> rfl

@[simp] theorem kindsOf_get (b : List Byte) (ch : Chan) : (kindsOf b).get ch = kindAt b (blockAt b ch) := by cases ch <;> rfl

theorem blockCfg_kind (b : List Byte) (o : Nat) : (blockCfg b o).kind = kindAt b o := by
  unfold blockCfg
  split <;> simp_all [ChanCfg.unused, wheelBlock, axisBlock]

theorem blockCfg_axis (h : (blockCfg b o).kind = .axis) : blockCfg b o = axisBlock b o := by
  rw [blockCfg_kind] at h
  simp [blockCfg, h]

/-- What the check of a block gives on an AXIS channel: the check of each group of fields. -/
theorem blockOk_axis (hok : blockOk b o = true) (h : (blockCfg b o).kind = .axis) :
    feedbackOk b o = true ∧ limitsOk b o = true ∧ motionOk b o = true ∧ referenceOk b o = true ∧ bindingOk b o = true
      ∧ n32 b (o + 70) ≤ 1048576 := by
  rw [blockCfg_kind] at h
  simp only [blockOk, h, Bool.and_eq_true, decide_eq_true_eq, and_assoc] at hok
  exact hok.2

/-- An AXIS or WHEEL channel's feedback fields (R1, R2). -/
theorem blockCfg_feedback (hok : blockOk b o = true) (h : (blockCfg b o).kind ≠ .unused) :
    natAt b (o + 1) ≤ 1 ∧ natAt b (o + 2) ≤ 1 ∧ (blockCfg b o).qfilt ≤ 31 := by
  rw [blockCfg_kind] at h
  cases hk : kindAt b o with
  | unused => exact absurd hk h
  | wheel => simp_all [blockOk, feedbackOk, blockCfg, wheelBlock]
  | axis => simp_all [blockOk, feedbackOk, blockCfg, axisBlock]

theorem blockOk_noPoints (hok : blockOk b o = true) (h : (blockCfg b o).kind ≠ .axis) : natAt b (o + 86) = 0 := by
  rw [blockCfg_kind] at h
  cases hk : kindAt b o with
  | axis => exact absurd hk h
  | wheel => simp_all [blockOk]
  | unused => simp_all [blockOk]

/-- The motion parameters (section 2.1.1). -/
theorem axisBlock_motion (h : motionOk b o = true) :
    let c := axisBlock b o
    1 ≤ c.vmax ∧ c.vmax ≤ 8388607 ∧ 1 ≤ c.amax ∧ c.amax ≤ c.astop ∧ c.astop ≤ 65535 ∧ c.sh ≤ 24 ∧ c.imax ≤ 1073741824
      ∧ 1 ≤ c.feLimit ∧ c.feLimit ≤ 1048576 ∧ 200 ≤ c.pwmPeriod ∧ c.pwmPeriod ≤ 2000 := by
  simp only [motionOk, Bool.and_eq_true, inRange_iff, decide_eq_true_eq] at h
  obtain ⟨⟨⟨⟨⟨⟨⟨hv, hv'⟩, ha, -⟩, hstop⟩, hsh⟩, himax⟩, hfe, hfe'⟩, hpwm, hpwm'⟩ := h
  exact ⟨hv, hv', ha, hstop, Nat.le_of_lt_succ (n16_lt b _), hsh, himax, hfe, hfe', hpwm, hpwm'⟩

/-- The limit fields. -/
theorem axisBlock_limits (h : limitsOk b o = true) :
    natAt b (o + 6) ≤ 1 ∧ ((axisBlock b o).limits = true → natAt b (o + 7) ≤ 1) := by
  simp only [limitsOk, Bool.and_eq_true, Bool.or_eq_true, decide_eq_true_eq] at h
  refine ⟨h.1, fun hl => h.2.resolve_left fun hzero => ?_⟩
  have hone : natAt b (o + 6) = 1 := of_decide_eq_true hl
  omega

theorem runOk_iff (b : List Byte) (o : Nat) :
    runOk b o = true ↔ (1 ≤ n32 b (o + 35) ∧ n32 b (o + 35) ≤ n32 b (o + 8)) ∧ zeroOr 1 120 (natAt b (o + 55)) = true := by
  simp [runOk, inRange_iff]

/-- ref_speed and ref_timeout, its default among the values (section 3.1). -/
theorem axisBlock_run (h : runOk b o = true) :
    let c := axisBlock b o
    1 ≤ c.refSpeed ∧ c.refSpeed ≤ c.vmax ∧ 1 ≤ c.refTimeout ∧ c.refTimeout ≤ 120 := by
  obtain ⟨⟨hlo, hhi⟩, htime⟩ := (runOk_iff b o).mp h
  obtain ⟨htlo, hthi⟩ := orDefault_inRange (default := 60) htime (by decide) (by decide)
  exact ⟨hlo, hhi, htlo, hthi⟩

/-- The reference fields that the kind uses (section 3.1). -/
theorem axisBlock_reference (h : referenceOk b o = true) :
    let c := axisBlock b o
    natAt b (o + 33) ≤ 3
      ∧ (c.refKind ≠ .absolute → 1 ≤ c.refSpeed ∧ c.refSpeed ≤ c.vmax ∧ 1 ≤ c.refTimeout ∧ c.refTimeout ≤ 120)
      ∧ (c.refKind = .index ∨ c.refKind = .switch →
          c.analog = false ∧ natAt b (o + 34) ≤ 1 ∧ -Config.maxCount ≤ c.refPosition ∧ c.refPosition ≤ Config.maxCount
            ∧ -Config.maxCount ≤ c.parkPosition ∧ c.parkPosition ≤ Config.maxCount)
      ∧ (c.refKind = .endStops →
          1 ≤ c.stallThreshold ∧ 1 ≤ c.minSpan ∧ c.minSpan ≤ 2147483647 ∧ c.endMargin ≤ 1048576 ∧ 1 ≤ c.refDrive
            ∧ c.refDrive ≤ 32767)
      ∧ (c.refKind = .absolute → c.analog = true) ∧ (c.refKind ≠ .endStops → c.softLo < c.softHi) := by
  have hindexed : ∀ h' : natAt b (o + 1) = 0 ∧ natAt b (o + 34) ≤ 1 ∧ runOk b o = true ∧ inCounts b (o + 39) = true
      ∧ inCounts b (o + 43) = true ∧ softOk b o = true,
      (axisBlock b o).analog = false ∧ natAt b (o + 34) ≤ 1 ∧ -Config.maxCount ≤ (axisBlock b o).refPosition
        ∧ (axisBlock b o).refPosition ≤ Config.maxCount ∧ -Config.maxCount ≤ (axisBlock b o).parkPosition
        ∧ (axisBlock b o).parkPosition ≤ Config.maxCount := by
    rintro ⟨hzero, hdir, -, hpos, hpark, -⟩
    obtain ⟨hplo, hphi⟩ := (inCounts_iff b _).mp hpos
    obtain ⟨hklo, hkhi⟩ := (inCounts_iff b _).mp hpark
    exact ⟨by simp [axisBlock, hzero], hdir, hplo, hphi, hklo, hkhi⟩
  have hkind : (axisBlock b o).refKind = refKindAt b o := rfl
  intro c
  simp only [referenceOk, Bool.and_eq_true, decide_eq_true_eq] at h
  obtain ⟨hcode, h⟩ := h
  refine ⟨hcode, ?_⟩
  simp only [c, hkind]
  cases hk : refKindAt b o with
  | index | switch =>
    simp only [hk, Bool.and_eq_true, decide_eq_true_eq, and_assoc] at h
    obtain ⟨-, -, hrun, -, -, hsoft⟩ := id h
    exact ⟨fun _ => axisBlock_run hrun, fun _ => hindexed h, by simp, by simp, fun _ => of_decide_eq_true hsoft⟩
  | endStops =>
    simp only [hk, Bool.and_eq_true, decide_eq_true_eq, inRange_iff, and_assoc] at h
    obtain ⟨hrun, hfields⟩ := h
    exact ⟨fun _ => axisBlock_run hrun, by simp, fun _ => hfields, by simp, by simp⟩
  | absolute =>
    simp only [hk, Bool.and_eq_true, decide_eq_true_eq] at h
    obtain ⟨hanalog, hsoft⟩ := h
    exact ⟨by simp, by simp, by simp, fun _ => decide_eq_true hanalog, fun _ => of_decide_eq_true hsoft⟩

/-- The source of a binding, wheel_timeout with its default (section 3.7). -/
theorem axisBlock_source (h : sourceOk b o = true) :
    let c := axisBlock b o
    1 ≤ c.srcStation ∧ c.srcStation ≤ 30 ∧ 1 ≤ c.srcChannel ∧ c.srcChannel ≤ 3 ∧ 5 ≤ c.wheelTimeout ∧ c.wheelTimeout ≤ 100 := by
  simp only [sourceOk, Bool.and_eq_true, inRange_iff] at h
  obtain ⟨⟨⟨hst, hst'⟩, hch, hch'⟩, htime⟩ := h
  obtain ⟨htlo, hthi⟩ := orDefault_inRange (default := 20) htime (by decide) (by decide)
  exact ⟨hst, hst', hch, hch', htlo, hthi⟩

/-- The binding fields that the kind uses, the points of a map strictly rising (section 3.7). -/
theorem axisBlock_binding (h : bindingOk b o = true) :
    let c := axisBlock b o
    natAt b (o + 74) ≤ 2
      ∧ (c.bindKind ≠ .none →
          1 ≤ c.srcStation ∧ c.srcStation ≤ 30 ∧ 1 ≤ c.srcChannel ∧ c.srcChannel ≤ 3 ∧ 5 ≤ c.wheelTimeout
            ∧ c.wheelTimeout ≤ 100)
      ∧ (c.bindKind = .map →
          c.points.length = natAt b (o + 86) ∧ 2 ≤ c.points.length ∧ c.points.Pairwise (fun p q => p.w < q.w)
            ∧ (c.refKind = .endStops ∨ c.refKind = .absolute))
      ∧ (c.bindKind ≠ .map → natAt b (o + 86) = 0) := by
  intro c
  have hkind : c.bindKind = bindKindAt b o := rfl
  simp only [bindingOk, Bool.and_eq_true, decide_eq_true_eq] at h
  obtain ⟨hcode, h⟩ := h
  refine ⟨hcode, ?_⟩
  simp only [hkind]
  cases hk : bindKindAt b o with
  | none =>
    simp only [hk, decide_eq_true_eq] at h
    exact ⟨by simp, by simp, fun _ => h⟩
  | rate =>
    simp only [hk, Bool.and_eq_true, decide_eq_true_eq] at h
    exact ⟨fun _ => axisBlock_source h.1, by simp, fun _ => h.2⟩
  | map =>
    simp only [hk, Bool.and_eq_true, Bool.or_eq_true, decide_eq_true_eq] at h
    obtain ⟨⟨⟨hsource, htwo⟩, hrise⟩, href⟩ := h
    have hpoints : c.points = pointsAt b o := if_pos hk
    have hlength : c.points.length = natAt b (o + 86) := by simp [hpoints, pointsAt]
    exact ⟨fun _ => axisBlock_source hsource,
      fun _ => ⟨hlength, by rw [hlength]; exact htwo, by rw [hpoints]; exact (increasing_iff_pairwise _).mp hrise, href⟩, by simp⟩

/-! ## Zone records (R109) -/

theorem termsAt_length (b : List Byte) (o : Nat) : (termsAt b o).length = natAt b (o + 9) := by simp [termsAt]

/-- A term that passes its conditions; its upper end is a count as every signed field is. -/
theorem termOk_spec {station : Nat} {t : Term} (ht : t ∈ termsAt b o) (h : termOk station (kindsOf b) t = true) :
    1 ≤ t.station ∧ t.station ≤ 30 ∧ 1 ≤ t.channel ∧ t.channel ≤ 3 ∧ t.lo ≤ t.hi ∧ -Config.maxCount ≤ t.lo
      ∧ t.hi ≤ Config.maxCount
      ∧ (t.station = station → ∀ ch, Chan.ofNumber? t.channel = some ch → ((imageCfg b).chans.get ch).kind ≠ .unused) := by
  simp only [termOk, Bool.and_eq_true, Bool.or_eq_true, inRange_iff, decide_eq_true_eq, and_assoc] at h
  obtain ⟨hst, hst', hch, hch', hle, hlo, hused⟩ := h
  refine ⟨hst, hst', hch, hch', hle, hlo, ?_, fun hown ch hnumber => ?_⟩
  · obtain ⟨j, -, rfl⟩ := List.mem_map.mp ht
    exact intAt_le _ _
  · have hany := hused.resolve_left (not_not.mpr hown)
    rw [hnumber, Option.any_some, kindsOf_get] at hany
    rw [imageCfg_chans, blockCfg_kind]
    exact of_decide_eq_true hany

theorem zoneAt_spec {station : Nat} (h : zoneOk station (kindsOf b) b o = true) (hterms : inRange 1 4 (natAt b (o + 9)) = true) :
    let z := zoneAt b o
    1 ≤ z.id ∧ z.id ≤ 16 ∧ z.cap ≤ 100 ∧ z.clearHold ≤ 10000 ∧ 1 ≤ z.terms.length ∧ z.terms.length ≤ 4
      ∧ (∀ st line, z.source = .line st line → 1 ≤ st ∧ st ≤ 30 ∧ 1 ≤ line ∧ line ≤ 4)
      ∧ ∀ t ∈ z.terms, 1 ≤ t.station ∧ t.station ≤ 30 ∧ 1 ≤ t.channel ∧ t.channel ≤ 3 ∧ t.lo ≤ t.hi
          ∧ -Config.maxCount ≤ t.lo ∧ t.hi ≤ Config.maxCount
          ∧ (t.station = station → ∀ ch, Chan.ofNumber? t.channel = some ch → ((imageCfg b).chans.get ch).kind ≠ .unused) := by
  intro z
  have hlength : z.terms.length = natAt b (o + 9) := termsAt_length b o
  simp only [zoneOk, Bool.and_eq_true, Bool.or_eq_true, inRange_iff, decide_eq_true_eq, List.all_eq_true, and_assoc] at h
  obtain ⟨hid, hid', -, hcap, -, hsource, hhold, -, hall⟩ := h
  obtain ⟨hone, hfour⟩ := (inRange_iff _ _ _).mp hterms
  refine ⟨hid, hid', hcap, ?_, hlength ▸ hone, hlength ▸ hfour, fun st line hline => ?_, fun t ht => termOk_spec ht (hall t ht)⟩
  · show (if n16 b (o + 6) = 65535 then 2000 else n16 b (o + 6)) ≤ 10000
    split
    · decide
    · next hne => exact hhold.resolve_right hne
  · have hsrc : z.source = if natAt b (o + 3) = 1 then .line (natAt b (o + 4)) (natAt b (o + 5)) else .always := rfl
    rw [hsrc] at hline
    split at hline
    · next hone =>
      obtain ⟨rfl, rfl⟩ := ArmSource.line.inj hline
      exact hsource.resolve_left (by omega)
    · cases hline

/-! ## The image -/

/-- Where the zone records begin, by the sizes of the three channel blocks (R182). -/
theorem zonesAt_eq (b : List Byte) :
    zonesAt b = 23 + (87 + 6 * natAt b (blockAt b .A + 86)) + (87 + 6 * natAt b (blockAt b .B + 86))
      + (87 + 6 * natAt b (blockAt b .C + 86)) := by
  simp only [zonesAt, blockAt, blockSize]

/-- The header fields of a valid image, the defaults among them. -/
theorem imageCfg_header {station : Nat} (h : headerOk station b = true) :
    let c := imageCfg b
    natAt b 2 = 1 ∧ natAt b 3 = station ∧ 1 ≤ station ∧ station ≤ 30
      ∧ c.desk ≤ 30 ∧ c.frameRate ≤ 7 ∧ 1000 ≤ c.publishDelay ∧ c.publishDelay + 4000 ≤ Config.nominalPeriod c.frameRate
      ∧ 2 ≤ c.peerTimeout ∧ c.peerTimeout ≤ 8 ∧ c.required.getLsbD 0 = false ∧ c.required.getLsbD 31 = false
      ∧ 10 ≤ c.cuePercent ∧ c.cuePercent ≤ 100 ∧ 100 ≤ c.stopTimeout ∧ c.stopTimeout ≤ 5000 ∧ c.brakeEngage ≤ 500
      ∧ c.brakeRelease ≤ 500 ∧ 1 ≤ c.wheelPeriod ∧ c.wheelPeriod ≤ 8 := by
  intro c
  simp only [headerOk, Bool.and_eq_true, Bool.not_eq_true', inRange_iff, decide_eq_true_eq, and_assoc] at h
  obtain ⟨hversion, hstation, hone, hthirty, hdesk, hrate, hpublish, hpeer, hreq, hreq', hcue, hstop, hengage, hrelease, hwheel⟩ := h
  have hnominal := nominalPeriod_ge (natAt b 5)
  obtain ⟨hpub, hpub'⟩ := orDefault_inRange (default := 2000) hpublish (by decide) (by omega)
  obtain ⟨htime, htime'⟩ := orDefault_inRange (default := 3) hpeer (by decide) (by decide)
  obtain ⟨hcueLo, hcueHi⟩ := orDefault_inRange (default := 25) hcue (by decide) (by decide)
  obtain ⟨hstopLo, hstopHi⟩ := orDefault_inRange (default := 1000) hstop (by decide) (by decide)
  have hzero : zeroOr 1 8 (natAt b 20) = true := (zeroOr_iff _ _ _).mpr (by omega)
  obtain ⟨hwheelLo, hwheelHi⟩ := orDefault_inRange (default := 2) hzero (by decide) (by decide)
  have hsum : c.publishDelay + 4000 ≤ Config.nominalPeriod c.frameRate := by
    show orDefault 2000 (n16 b 6) + 4000 ≤ Config.nominalPeriod (natAt b 5)
    omega
  exact ⟨hversion, hstation, hone, hthirty, hdesk, hrate, hpub, hsum, htime, htime', hreq, hreq', hcueLo, hcueHi, hstopLo, hstopHi,
    hengage, hrelease, hwheelLo, hwheelHi⟩

/-- Settles O7, check by check: the length, the header, the three channel blocks, and the zone records with their terms. -/
theorem handedOutImageIsInRange : Obligations.HandedOutImageIsInRange := by
  intro station b h
  simp only [imageOk, Bool.and_eq_true, inRange_iff, decide_eq_true_eq, List.all_eq_true, and_assoc] at h
  obtain ⟨hmin, hmax, hlength, hstructure, -, hheader, hblocks, hzones, hids⟩ := h
  simp only [structureCloses, Bool.and_eq_true, decide_eq_true_eq, List.all_eq_true, and_assoc] at hstructure
  obtain ⟨hcount, hpoints, hterms, hcloses⟩ := hstructure
  obtain ⟨hversion, hstation, hone, hthirty, hfields⟩ := imageCfg_header hheader
  have hblock : ∀ ch, blockOk b (blockAt b ch) = true := fun ch => hblocks ch (mem_chanList ch)
  have hoffsets : (imageZones b).map (fun z => 10 + 10 * z.terms.length)
      = (zoneOffsets b).map fun i => 10 + 10 * natAt b (i + 9) := by
    simp only [imageZones, List.map_map]
    exact List.map_congr_left fun i _ => by simp [zoneAt, termsAt_length]
  have hsum : b.length = 25 + (87 + 6 * natAt b (blockAt b .A + 86)) + (87 + 6 * natAt b (blockAt b .B + 86))
      + (87 + 6 * natAt b (blockAt b .C + 86)) + ((imageZones b).map fun z => 10 + 10 * z.terms.length).sum := by
    rw [hoffsets, ← hcloses, zoneWalk_end, zonesAt_eq]
    simp only [zoneOffsets]
    rw [zonesAt_eq]
    omega
  refine ⟨hmin, hmax, hlength, hversion, hstation, hone, hthirty, fun ch => ⟨?kind, hpoints ch (mem_chanList ch)⟩, hsum,
    ?fields, ?length, hcount, ?ids, ?zones⟩
  case kind =>
    have hkind := hblock ch
    simp only [blockOk, Bool.and_eq_true, decide_eq_true_eq] at hkind
    exact hkind.1
  case length => rw [imageZones, List.length_map, zoneOffsets, zoneWalk_length]
  case ids =>
    have hsame : (imageZones b).map (fun z => z.id) = (zoneOffsets b).map (natAt b) := by
      rw [imageZones, List.map_map]; rfl
    rw [hsame]
    exact (uniqueIds_iff _).mp hids
  case zones =>
    intro z hz
    obtain ⟨i, hi, rfl⟩ := List.mem_map.mp hz
    exact zoneAt_spec (hzones i hi) (hterms i hi)
  case fields =>
    obtain ⟨hdesk, hrate, hpub, hpub', htime, htime', hreq, hreq', hcue, hcue', hstop, hstop', hengage, hrelease, hwheel, hwheel'⟩ :=
      hfields
    refine ⟨hdesk, hrate, hpub, hpub', htime, htime', hreq, hreq', hcue, hcue', hstop, hstop', hengage, hrelease, hwheel, hwheel',
      fun ch => ?_⟩
    simp only [imageCfg_chans]
    refine ⟨blockCfg_feedback (hblock ch), blockOk_noPoints (hblock ch), fun haxis => ?_⟩
    obtain ⟨-, hlimits, hmotion, hreference, hbinding, htolerance⟩ := blockOk_axis (hblock ch) haxis
    rw [blockCfg_axis haxis]
    obtain ⟨hlim, hlow⟩ := axisBlock_limits hlimits
    obtain ⟨hv, hv', ha, ha', hastop, hsh, himax, hfe, hfe', hpwm, hpwm'⟩ := axisBlock_motion hmotion
    obtain ⟨href, hrun, hindexed, hends, habsolute, hsoft⟩ := axisBlock_reference hreference
    obtain ⟨hbind, hsource, hmap, hnone⟩ := axisBlock_binding hbinding
    exact ⟨hlim, hlow, href, hbind, hv, hv', ha, ha', hastop, hsh, himax, hfe, hfe', hpwm, hpwm', htolerance, hrun, hindexed, hends,
      habsolute, hsoft, hsource, hmap, hnone⟩

end Sys2Proof.Machine
end

section
/-! PROOFS. What the blocks that take a frame event, a STATE frame or a desk command leave alone, said once for every operation they
carry out: the parts of the station that a STATE body shows, the peer table, and what of the stop controller its own frame event alone
changes (R66, R77, R92, R131). -/

namespace Sys2Proof.Machine

variable {s t u : State} {ch : Chan}

/-! ## What stands -/

/-- The fields of a motion record that servo updates alone write. -/
def shownMotion (m : Motion) : Int × Nat × Nat × Nat × Bool × Bool × Bool :=
  (m.pos, m.sd, m.cap, m.ring, m.targetClamped, m.softLimit, m.saturated)

/-- The fields of a feedback record that the channel's own inputs alone write. -/
def shownFeedback (f : Feedback) : Int × Option Int × Filt × Filt × Nat × Bool × Bool :=
  (f.x, f.frozen, f.limPos, f.limNeg, f.illegal, f.rail, f.saturation)

/-- What none of these operations changes, unless it is that operation's own part. -/
structure Standing where
  clock : Word
  su : StartUp
  cfg : Cfg
  bd : PerChan Binding
  ft : FrameTimer
  zm : ZoneMonitor
  current : DeskContent
  slot : StateSlot
  seq : Byte
  counters : Counters
  motion : PerChan (Int × Nat × Nat × Nat × Bool × Bool × Bool)
  feedback : PerChan (Int × Option Int × Filt × Filt × Nat × Bool × Bool)
  peers : List PeerRecord
  earlier : Option (Byte × DeskContent)
  join : Option Byte
  adopted : Byte
  confirmed : Option DeskContent
  dupWindow : Nat
  pendingRelease : Bool

def standing (s : State) : Standing :=
  { clock := s.clock, su := s.su, cfg := s.cfg, bd := s.bd, ft := s.ft, zm := s.zm, current := s.dk.current
    slot := s.tk.stateSlot, seq := s.tk.stateSeq, counters := s.tk.counters
    motion := s.mo.map shownMotion, feedback := s.fb.map shownFeedback
    peers := s.pt.peers, earlier := s.pt.earlier, join := s.pt.join, adopted := s.pt.adopted
    confirmed := s.pt.confirmed, dupWindow := s.sc.dupWindow, pendingRelease := s.sc.pendingRelease }

/-- An operation that leaves what stands. -/
def Stands (f : State → State) : Prop := ∀ s, standing (f s) = standing s

theorem Stands.chans {f : Chan → State → State} (h : ∀ ch, Stands (f ch)) (chans : List Chan) : Stands (forChans f chans) :=
  fun s => forChans_induct (fun t => standing t = standing s) f chans s (fun ch t ht => (h ch t).trans ht) rfl

theorem Stands.foldl {α : Type} {f : State → α → State} (h : ∀ x, Stands (fun s => f s x)) (xs : List α) :
    Stands (fun s => xs.foldl f s) := fun s => by
  induction xs generalizing s with
  | nil => rfl
  | cons x xs ih => exact (ih _).trans (h x s)

/-! ## Changes of one record -/

theorem perChan_map_set {α β : Type} (f : α → β) (r : PerChan α) (ch : Chan) {x : α} (h : f x = f (r.get ch)) :
    (r.set ch x).map f = r.map f := by
  cases ch <;> simp_all [PerChan.map, PerChan.set, PerChan.get]

theorem modMo_stands {f : Motion → Motion} (h : ∀ m, shownMotion (f m) = shownMotion m) : Stands (modMo ch f) := fun s => by
  simp only [standing, modMo, perChan_map_set shownMotion s.mo ch (h _)]

theorem modFb_stands {f : Feedback → Feedback} (h : ∀ b, shownFeedback (f b) = shownFeedback b) : Stands (modFb ch f) := fun s => by
  simp only [standing, modFb, perChan_map_set shownFeedback s.fb ch (h _)]

/-! ## Mode requests -/

theorem ask_stands (r : ModeRequest) (ch : Chan) : Stands (ask r ch) := fun s => by
  obtain ⟨h, -⟩ | ⟨h, -⟩ := ask_cases r ch s <;> rw [h]
  exact modMo_stands (fun m => by cases r <;> rfl) s

theorem holdAtSetpoint_stands (chans : List Chan) : Stands (holdAtSetpoint chans) :=
  .chans (fun ch s => ask_stands _ ch s) chans

theorem holdAtLast_stands : Stands holdAtLast := fun s => Stands.chans (fun ch t => ask_stands _ ch t) _ s

theorem liveRequests_stands : Stands liveRequests := fun s =>
  Stands.chans (fun ch t => by
    show standing (if (chanCfg t ch).bindKind = .none then t else ask .live ch t) = standing t
    split
    · rfl
    · exact ask_stands _ ch t) (axisChans s) s

theorem requestAll_stands (r : ModeRequest) (chans : List Chan) : Stands (fun s => (requestAll r chans s).2) := fun s => by
  induction chans generalizing s with
  | nil => rfl
  | cons ch rest ih => exact (ih _).trans (ask_stands r ch s)

/-! ## The take engine -/

theorem endDone_stands (fault : TakeFault) : Stands (endDone fault) := fun s => by
  simp only [endDone]
  split
  · exact liveRequests_stands _
  · rfl

theorem loseTake_stands (fault : TakeFault) : Stands (loseTake fault) := fun s => by
  unfold loseTake
  split
  · rfl
  · rfl
  · exact holdAtSetpoint_stands _ s
  · exact holdAtSetpoint_stands _ s
  all_goals rfl

theorem lockNotice_stands (new : Lock) : Stands (lockNotice new) := fun s => by
  obtain ⟨hn, -⟩ | hn | ⟨hn, -⟩ := lockNotice_cases new s <;> rw [hn]
  · exact loseTake_stands _ s
  · rfl

theorem startRecording_stands : Stands startRecording := fun s => by
  unfold startRecording; split <;> rfl

theorem appendFrame_stands : Stands appendFrame := fun s => by
  unfold appendFrame
  split
  · rfl
  · exact endDone_stands _ _
  · rfl

theorem startPlay_stands : Stands startPlay := fun s => by
  have hall : standing (requestAll .play (axisChans s) s).2 = standing s := requestAll_stands _ _ s
  unfold startPlay
  split
  · next heq =>
    rw [heq] at hall
    exact (holdAtSetpoint_stands _ _).trans hall
  · next heq =>
    rw [heq] at hall
    exact hall

theorem advancePlay_stands : Stands advancePlay := fun s => by
  simp only [advancePlay]
  split
  · exact (endDone_stands _ _).trans (holdAtLast_stands _)
  · rfl

theorem takeFrameEvent_stands : Stands takeFrameEvent := fun s => by
  unfold takeFrameEvent
  split
  · split
    · exact startRecording_stands s
    · rfl
  · exact appendFrame_stands s
  · split
    · exact startPlay_stands s
    · rfl
  · exact advancePlay_stands s
  all_goals rfl

/-! ## Entries into stop states and causes -/

theorem failRunStopped_stands (ch : Chan) : Stands (failRunStopped ch) := fun s => by
  simp only [failRunStopped]
  split
  · exact (modFb_stands (f := disarm) (fun _ => rfl) _).trans rfl
  · rfl

theorem takeStopped_stands : Stands takeStopped := fun s => by
  unfold takeStopped; split <;> rfl

theorem stoppedLamp_stands (new : StopState) : Stands (stoppedLamp new) := fun s => by
  rw [stoppedLamp_frame]; rfl

theorem stopNotice_stands (old new : StopState) : Stands (stopNotice old new) := fun s => by
  have hleft : standing (if old = .run && new ≠ .run then takeStopped (forChans failRunStopped Chan.list s) else s)
      = standing s := by
    split
    · exact (takeStopped_stands _).trans (Stands.chans failRunStopped_stands _ s)
    · rfl
  simp only [stopNotice]
  generalize (if old = .run && new ≠ .run then takeStopped (forChans failRunStopped Chan.list s) else s) = u at hleft ⊢
  refine (stoppedLamp_stands new _).trans ?_
  split
  · exact (liveRequests_stands u).trans hleft
  · exact hleft

theorem cutChannel_stands (ch : Chan) : Stands (cutChannel ch) := fun s => by
  unfold cutChannel
  split
  · rfl
  · unfold requestOff
    refine modMo_stands ?_ s
    exact fun _ => rfl

theorem requestStopping_stands (ch : Chan) : Stands (requestStopping ch) :=
  modMo_stands fun m => by
    show shownMotion (if m.mode = .off then m else _) = shownMotion m
    split <;> rfl

theorem requestRelease_stands (ch : Chan) : Stands (requestRelease ch) := fun s => by
  unfold requestRelease
  refine modMo_stands ?_ s
  exact fun _ => rfl

theorem enterBraking_stands : Stands enterBraking := fun _ => (stopNotice_stands _ _ _).trans rfl

theorem enterBrakingCut_stands : Stands enterBrakingCut := fun s => by
  unfold enterBrakingCut
  exact (stopNotice_stands _ _ _).trans (Stands.chans cutChannel_stands _ _)

theorem enterStopping_stands : Stands enterStopping := fun s => by
  simp only [enterStopping]
  have hramp := (stopNotice_stands s.sc.state .stopping _).trans
    (Stands.chans requestStopping_stands (axisChans (setStop .stopping (some (after s.clock (s.cfg.stopTimeout * 1000))) none none s))
      (setStop .stopping (some (after s.clock (s.cfg.stopTimeout * 1000))) none none s))
  split
  · exact (enterBraking_stands _).trans hramp
  · exact hramp

theorem enterReleasing_stands : Stands enterReleasing := fun s => by
  unfold enterReleasing
  exact (stopNotice_stands _ _ _).trans (Stands.chans requestRelease_stands _ _)

theorem actOnCause_stands (cut : Bool) : Stands (actOnCause cut) := fun s => by
  obtain ⟨-, h⟩ | ⟨-, h⟩ | ⟨-, h⟩ | ⟨-, h⟩ := actOnCause_cases cut s <;> rw [h]
  · split
    · exact enterBrakingCut_stands s
    · exact enterStopping_stands s
  · split
    · exact enterBrakingCut_stands s
    · rfl
  · split
    · exact Stands.chans cutChannel_stands _ s
    · rfl

theorem raiseCause_stands (kind : CauseKind) (origin channel zone : Byte) : Stands (raiseCause kind origin channel zone) := fun s => by
  unfold raiseCause
  refine (actOnCause_stands _ _).trans ?_
  split <;> rfl

theorem executeRelease_stands : Stands executeRelease := fun s => by
  unfold executeRelease
  split
  · split
    · rfl
    · exact enterReleasing_stands s
  all_goals rfl

/-! ## Desk commands -/

theorem armCapture_stands (source : CaptureSource) (ch : Chan) : Stands (armCapture source ch) := fun s => by
  unfold armCapture
  split
  · refine modFb_stands ?_ s
    exact fun _ => rfl
  · rfl

theorem startRun_stands (ch : Chan) : Stands (startRun ch) := fun s => by
  unfold startRun
  split
  · have hask := ask_stands .ref ch s
    obtain ⟨why, -, hreq⟩ | ⟨-, hreq⟩ := request_cases .ref ch s <;> simp only [ask, hreq] at hask ⊢
    refine Eq.trans ?_ hask
    unfold armForRun
    split
    · exact armCapture_stands _ ch _
    · split
      · rfl
      · exact armCapture_stands _ ch _
    all_goals rfl
  · rfl

theorem referenceCommand_stands : Stands referenceCommand := fun s => by
  unfold referenceCommand
  split
  · exact Stands.chans startRun_stands _ s
  · rfl

theorem abortRuns_stands : Stands abortRuns := Stands.chans (fun ch s => by
  unfold abortRun failRun
  split
  · exact (ask_stands _ ch _).trans ((modFb_stands (f := disarm) (fun _ => rfl) _).trans rfl)
  · rfl) _

theorem abortTake_stands : Stands abortTake := fun s => by
  unfold abortTake
  split
  all_goals first | rfl | exact holdAtSetpoint_stands _ s

theorem endTake_stands : Stands endTake := fun s => by
  obtain ⟨-, h⟩ | ⟨-, h⟩ | ⟨-, -, h⟩ | ⟨-, -, -, h⟩ := endTake_cases s <;> rw [h]
  · exact (endDone_stands _ _).trans rfl
  all_goals rfl

theorem recordTake_stands (take : Nat) (start : Word) : Stands (recordTake take start) := fun s => by
  unfold recordTake; split <;> rfl

theorem cueTake_stands (take : Nat) : Stands (cueTake take) := fun s => by
  unfold cueTake
  split
  · simp only []; split <;> rfl
  · rfl

theorem runTake_stands (take : Nat) (start : Word) (rate length : Nat) : Stands (runTake take start rate length) := fun s => by
  unfold runTake; split <;> rfl

theorem eraseTake_stands (take : Nat) : Stands (eraseTake take) := fun s => by
  rw [(eraseTake_frame take s).1]; rfl

theorem protectTake_stands (take : Nat) : Stands (protectTake take) := fun s => by
  unfold protectTake; split <;> rfl

theorem liveOrder_stands : Stands liveOrder := fun s => by
  unfold liveOrder
  split
  · exact liveRequests_stands s
  · rfl

theorem takeCommand_stands (serial : Byte) {f : State → State} (hf : Stands f) : Stands (takeCommand serial f) := fun s => by
  unfold takeCommand
  split
  · exact (hf _).trans rfl
  · rfl

/-- A desk command of another kind than RELEASE leaves what stands. -/
theorem executeDesk_stands {c : DeskContent} (h : deskKind? c.kind ≠ some .release) : Stands (executeDesk c) := fun s => by
  unfold executeDesk
  split
  · rfl
  · exact takeCommand_stands _ (recordTake_stands _ _) s
  · exact takeCommand_stands _ endTake_stands s
  · exact takeCommand_stands _ (cueTake_stands _) s
  · exact takeCommand_stands _ (runTake_stands _ _ _ _) s
  · exact (abortRuns_stands _).trans (takeCommand_stands _ abortTake_stands s)
  · exact takeCommand_stands _ (eraseTake_stands _) s
  · exact takeCommand_stands _ (protectTake_stands _) s
  · exact takeCommand_stands _ liveOrder_stands s
  · exact referenceCommand_stands s
  · next hkind => exact absurd hkind h

/-- RELEASE waits for the next frame event (R102). -/
theorem executeDesk_release {c : DeskContent} (h : deskKind? c.kind = some .release) (s : State) :
    executeDesk c s = holdRelease s := by
  simp [executeDesk, h]

end Sys2Proof.Machine
end

section
/-! PROOFS. The tasks of a frame event in their free order: what each changes of what stands, the STATE frame that the event builds, and an
event in which only some of the blocks have anything to do (R59, R66, R77, R93, R95, R97, R131). -/

namespace Sys2Proof.Machine

variable {s t u v w : State} {ch : Chan}

/-! ## Two events among others in a free order -/

/-- Events one after the other. -/
def runAll (events : List (State → State)) (s : State) : State := events.foldl (fun t f => f t) s

theorem runAll_append (l₁ l₂ : List (State → State)) (s : State) : runAll (l₁ ++ l₂) s = runAll l₂ (runAll l₁ s) :=
  List.foldl_append

theorem runAll_keeps {P : State → Prop} {l : List (State → State)} (keep : ∀ f ∈ l, ∀ t, P t → P (f t)) (h : P s) :
    P (runAll l s) := by
  induction l generalizing s with
  | nil => exact h
  | cons f l ih => exact ih (fun g hg => keep g (List.mem_cons_of_mem _ hg)) (keep f List.mem_cons_self s h)

theorem inAnyOrder_eq (events : List (State → State)) (s : State) :
    ∃ l o d, l.Perm events ∧ inAnyOrder events s = runAll l (reordered o d s) := by
  obtain ⟨o, d, hs⟩ := shuffle_eq events s
  exact ⟨_, o, d, shuffle_perm events s, by simp only [inAnyOrder, hs]; rfl⟩

/-- Two of the events take P to Q together, either first; the others keep P, what each of the two leaves, and Q. -/
structure TwoAct (P G H Q : State → Prop) (g h : State → State) (rest : List (State → State)) : Prop where
  first : ∀ t, P t → G (g t)
  second : ∀ t, P t → H (h t)
  afterFirst : ∀ t, G t → Q (h t)
  afterSecond : ∀ t, H t → Q (g t)
  others : ∀ f ∈ rest, (∀ t, P t → P (f t)) ∧ (∀ t, G t → G (f t)) ∧ (∀ t, H t → H (f t)) ∧ ∀ t, Q t → Q (f t)

theorem TwoAct.symm {P G H Q : State → Prop} {g h : State → State} {rest : List (State → State)} (a : TwoAct P G H Q g h rest) :
    TwoAct P H G Q h g rest :=
  ⟨a.second, a.first, a.afterSecond, a.afterFirst, fun f hf => by
    obtain ⟨hP, hG, hH, hQ⟩ := a.others f hf
    exact ⟨hP, hH, hG, hQ⟩⟩

/-- The first of the two before the second. -/
theorem TwoAct.inOrder {P G H Q : State → Prop} {g h : State → State} {rest : List (State → State)} (a : TwoAct P G H Q g h rest)
    {l₁ l₂ l₃ : List (State → State)} (hrest : (l₁ ++ l₂ ++ l₃).Perm rest) (hP : P s) :
    Q (runAll (l₁ ++ g :: (l₂ ++ h :: l₃)) s) := by
  have hmem : ∀ f, f ∈ l₁ ∨ f ∈ l₂ ∨ f ∈ l₃ → f ∈ rest := fun f hf =>
    hrest.mem_iff.mp (by simpa [or_assoc] using hf)
  rw [runAll_append]
  show Q (runAll (l₂ ++ h :: l₃) (g (runAll l₁ s)))
  rw [runAll_append]
  show Q (runAll l₃ (h (runAll l₂ (g (runAll l₁ s)))))
  have h₁ : P (runAll l₁ s) := runAll_keeps (fun f hf => (a.others f (hmem f (.inl hf))).1) hP
  have h₂ : G (runAll l₂ (g (runAll l₁ s))) :=
    runAll_keeps (fun f hf => (a.others f (hmem f (.inr (.inl hf)))).2.1) (a.first _ h₁)
  exact runAll_keeps (fun f hf => (a.others f (hmem f (.inr (.inr hf)))).2.2.2) (a.afterFirst _ h₂)

theorem inAnyOrder_two {P G H Q : State → Prop} {g h : State → State} {rest events : List (State → State)}
    (a : TwoAct P G H Q g h rest) (hevents : events.Perm (g :: h :: rest)) (hP : ∀ o d, P (reordered o d s)) :
    Q (inAnyOrder events s) := by
  obtain ⟨l, o, d, hperm, heq⟩ := inAnyOrder_eq events s
  have hl : l.Perm (g :: h :: rest) := hperm.trans hevents
  rw [heq]
  obtain ⟨pre, post, rfl⟩ := List.append_of_mem (hl.mem_iff.mpr List.mem_cons_self)
  have hsplit : (pre ++ post).Perm (h :: rest) := (List.perm_cons g).mp (List.perm_middle.symm.trans hl)
  obtain hpre | hpost := List.mem_append.mp (hsplit.mem_iff.mpr List.mem_cons_self)
  · obtain ⟨l₁, l₂, rfl⟩ := List.append_of_mem hpre
    rw [List.append_assoc, List.cons_append] at hsplit ⊢
    have hrest := (List.perm_cons h).mp (List.perm_middle.symm.trans hsplit)
    exact a.symm.inOrder (by rwa [List.append_assoc]) (hP o d)
  · obtain ⟨l₂, l₃, rfl⟩ := List.append_of_mem hpost
    rw [← List.append_assoc] at hsplit
    have hrest := (List.perm_cons h).mp (List.perm_middle.symm.trans hsplit)
    exact a.inOrder hrest (hP o d)

/-- One of the events takes P to Q; the others keep both. -/
theorem inAnyOrder_one {P Q : State → Prop} {g : State → State} {rest events : List (State → State)} (acts : ∀ t, P t → Q (g t))
    (others : ∀ f ∈ rest, (∀ t, P t → P (f t)) ∧ ∀ t, Q t → Q (f t)) (hevents : events.Perm (g :: rest))
    (hP : ∀ o d, P (reordered o d s)) : Q (inAnyOrder events s) := by
  obtain ⟨l, o, d, hperm, heq⟩ := inAnyOrder_eq events s
  have hl : l.Perm (g :: rest) := hperm.trans hevents
  rw [heq]
  obtain ⟨pre, post, rfl⟩ := List.append_of_mem (hl.mem_iff.mpr List.mem_cons_self)
  have hsplit : (pre ++ post).Perm rest := (List.perm_cons g).mp (List.perm_middle.symm.trans hl)
  have hmem : ∀ f, f ∈ pre ∨ f ∈ post → f ∈ rest := fun f hf => hsplit.mem_iff.mp (List.mem_append.mpr hf)
  rw [runAll_append]
  show Q (runAll post (g (runAll pre (reordered o d s))))
  exact runAll_keeps (fun f hf => (others f (hmem f (.inr hf))).2)
    (acts _ (runAll_keeps (fun f hf => (others f (hmem f (.inl hf))).1) (hP o d)))

/-! ## What each task changes of what stands -/

/-- A confirmed command is a RELEASE. -/
def confirmsRelease (pt : Option DeskContent) : Bool := pt.any fun c => c.kind = codeDesk .release

theorem deskKind?_release (code : Byte) : deskKind? code = some .release ↔ code = codeDesk .release := by
  constructor
  · intro h
    have hcode := List.find?_some h
    exact (of_decide_eq_true hcode).symm
  · rintro rfl
    rfl

theorem raiseSilent_stands : Stands raiseSilent :=
  fun s => Stands.foldl (fun n t => raiseCause_stands _ (BitVec.ofNat 8 n) _ _ t) _ s

theorem ageFrameEvent_standing (s : State) : standing (ageFrameEvent s) = standing (agePeers s) := raiseSilent_stands _

/-- The confirmed command is handed on; a RELEASE waits (R102). -/
theorem handConfirmed_standing (s : State) :
    standing (handConfirmed s) =
      { standing s with
        confirmed := none, pendingRelease := s.sc.pendingRelease || confirmsRelease s.pt.confirmed } := by
  obtain ⟨h, hnone⟩ | ⟨c, hsome, h⟩ := handConfirmed_cases s <;> rw [h]
  · simp [standing, hnone, confirmsRelease]
  · by_cases hkind : deskKind? c.kind = some .release
    · rw [executeDesk_release hkind]
      simp [standing, holdRelease, hsome, confirmsRelease, (deskKind?_release _).mp hkind]
    · rw [executeDesk_stands hkind]
      have hother : c.kind ≠ codeDesk .release := fun hc => hkind ((deskKind?_release _).mpr hc)
      simp [standing, hsome, confirmsRelease, hother]

/-- The duplicate window falls by one and no release is left pending (R131). -/
theorem stopFrameEvent_standing (s : State) :
    standing (stopFrameEvent s) = { standing s with dupWindow := s.sc.dupWindow - 1, pendingRelease := false } := by
  unfold stopFrameEvent
  show standing (if s.sc.pendingRelease then
      executeRelease { s with sc := { s.sc with dupWindow := s.sc.dupWindow - 1, pendingRelease := false } }
    else { s with sc := { s.sc with dupWindow := s.sc.dupWindow - 1 } }) = _
  split
  · exact executeRelease_stands _
  · next hnone => simp [standing, hnone]

theorem handRelease_eq (s : State) : handRelease s = if confirmsRelease s.pt.confirmed then handConfirmed s else s := rfl

theorem stopPart_standing (s : State) :
    standing (stopPart s) =
      { standing s with
        confirmed := if confirmsRelease s.pt.confirmed then none else s.pt.confirmed
        dupWindow := s.sc.dupWindow - 1, pendingRelease := false } := by
  have hdup : (handConfirmed s).sc.dupWindow = s.sc.dupWindow := congrArg Standing.dupWindow (handConfirmed_standing s)
  unfold stopPart
  rw [stopFrameEvent_standing, handRelease_eq]
  split
  · rw [handConfirmed_standing, hdup]
  · rfl

/-! ## What no task but the build changes -/

/-- What stands without the parts that ageing, a confirmed command and the stop controller's own part change. -/
def Standing.fixed (x : Standing) : Standing :=
  { x with peers := [], earlier := none, join := none, confirmed := none, dupWindow := 0, pendingRelease := false }

/-- The tasks of a frame event, but for the ageing and the build. -/
def otherTasks (old new : Lock) : List (State → State) :=
  [handConfirmed, stopPart, takeFrameEvent] ++ (if old = new then [] else [lockNotice new])

theorem mem_otherTasks {old new : Lock} {f : State → State} (h : f ∈ otherTasks old new) :
    f = handConfirmed ∨ f = stopPart ∨ f = takeFrameEvent ∨ f = lockNotice new := by
  unfold otherTasks at h
  rcases List.mem_append.mp h with h | h
  · simp only [List.mem_cons, List.not_mem_nil, or_false] at h
    tauto
  · split at h
    · exact absurd h List.not_mem_nil
    · exact .inr (.inr (.inr (List.mem_singleton.mp h)))

theorem frameTasks_eq (stamp : Word) (old new : Lock) :
    frameTasks stamp old new = buildState stamp :: ageFrameEvent :: otherTasks old new := rfl

theorem otherTasks_fixed {old new : Lock} {f : State → State} (h : f ∈ otherTasks old new) (s : State) :
    (standing (f s)).fixed = (standing s).fixed ∧ (standing (f s)).peers = (standing s).peers
      ∧ (standing (f s)).earlier = (standing s).earlier ∧ (standing (f s)).join = (standing s).join := by
  rcases mem_otherTasks h with rfl | rfl | rfl | rfl
  · rw [handConfirmed_standing]; exact ⟨rfl, rfl, rfl, rfl⟩
  · rw [stopPart_standing]; exact ⟨rfl, rfl, rfl, rfl⟩
  · rw [takeFrameEvent_stands]; exact ⟨rfl, rfl, rfl, rfl⟩
  · rw [lockNotice_stands]; exact ⟨rfl, rfl, rfl, rfl⟩

theorem ageFrameEvent_fixed (s : State) : (standing (ageFrameEvent s)).fixed = (standing s).fixed := by
  rw [ageFrameEvent_standing]; rfl

theorem mem_frameTasks {stamp : Word} {old new : Lock} {f : State → State} (h : f ∈ frameTasks stamp old new) :
    f = buildState stamp ∨ f = ageFrameEvent ∨ f ∈ otherTasks old new := by
  rw [frameTasks_eq] at h
  simpa only [List.mem_cons] using h

/-- No task confirms a command (R102). -/
theorem frameTasks_noneConfirmed {stamp : Word} {old new : Lock} {f : State → State} (hf : f ∈ frameTasks stamp old new)
    (h : s.pt.confirmed = none) : (f s).pt.confirmed = none := by
  show (standing (f s)).confirmed = none
  rcases mem_frameTasks hf with rfl | rfl | hf
  · exact h
  · rw [ageFrameEvent_standing]; exact h
  · rcases mem_otherTasks hf with rfl | rfl | rfl | rfl
    · rw [handConfirmed_standing]
    · rw [stopPart_standing]
      show (if _ then none else s.pt.confirmed) = none
      rw [h]; simp
    · rw [takeFrameEvent_stands]; exact h
    · rw [lockNotice_stands]; exact h

/-- The confirmed command has been handed on when the event is over (R102). -/
theorem frameTasks_confirmed (stamp : Word) (old new : Lock) (s : State) :
    (inAnyOrder (frameTasks stamp old new) s).pt.confirmed = none := by
  have hperm := List.perm_middle (a := handConfirmed) (l₁ := [buildState stamp, ageFrameEvent])
    (l₂ := [stopPart, takeFrameEvent] ++ if old = new then [] else [lockNotice new])
  refine inAnyOrder_one (P := fun _ => True) (Q := fun t => t.pt.confirmed = none)
    (fun t _ => congrArg Standing.confirmed (handConfirmed_standing t))
    (fun f hf => ⟨fun _ _ => trivial, fun t ht => ?_⟩) hperm fun _ _ => trivial
  exact frameTasks_noneConfirmed (hperm.mem_iff.mpr (List.mem_cons_of_mem _ hf)) ht

/-! ## The STATE frame of the event (R77, R79) -/

/-- The peer table after one ageing. -/
def agedPeers (s : State) : List PeerRecord := s.pt.peers.map (ageRecord s.cfg.peerTimeout)

/-- What the build leaves when the station is as `w`, of a station that stood as `s` before the event's tasks. -/
def built (stamp : Word) (s w : State) : Standing :=
  { (standing s).fixed with
    slot := .waiting (buildBody (w.tk.report.getD (stopReport w)) w) (after stamp s.cfg.publishDelay)
    seq := s.tk.stateSeq + 1
    counters := if waitsInSlot s.tk.stateSlot then { s.tk.counters with late := satIncr 65535 s.tk.counters.late }
      else s.tk.counters }

theorem buildState_fixed (stamp : Word) (h : (standing w).fixed = (standing s).fixed) :
    (standing (buildState stamp w)).fixed = built stamp s w := by
  have hcfg : w.cfg = s.cfg := congrArg Standing.cfg h
  have hslot : w.tk.stateSlot = s.tk.stateSlot := congrArg Standing.slot h
  have hseq : w.tk.stateSeq = s.tk.stateSeq := congrArg Standing.seq h
  have hcounters : w.tk.counters = s.tk.counters := congrArg Standing.counters h
  unfold built
  rw [← h, ← hcfg, ← hslot, ← hseq, ← hcounters]
  rfl

/-- A frame event's build finds the station with the peers' ageing before it or after it and the other parts as they stand. `I` is what the
other tasks keep in the event at hand. -/
theorem frameTasks_built {I : State → Prop} (stamp : Word) (old new : Lock) (hreorder : ∀ o d, I (reordered o d s))
    (hage : ∀ t, I t → (standing t).fixed = (standing s).fixed → t.pt.peers = s.pt.peers → I (ageFrameEvent t))
    (hothers : ∀ f ∈ otherTasks old new, ∀ t, I t → I (f t)) :
    ∃ w, I w ∧ (standing w).fixed = (standing s).fixed ∧ (w.pt.peers = s.pt.peers ∨ w.pt.peers = agedPeers s)
      ∧ (standing (inAnyOrder (frameTasks stamp old new) s)).fixed = built stamp s w
      ∧ (inAnyOrder (frameTasks stamp old new) s).pt.peers = agedPeers s := by
  let Open : List PeerRecord → State → Prop := fun peers t =>
    I t ∧ (standing t).fixed = (standing s).fixed ∧ t.pt.peers = peers
  let Built : List PeerRecord → State → Prop := fun peers t => t.pt.peers = peers ∧ ∃ w, I w
    ∧ (standing w).fixed = (standing s).fixed ∧ (w.pt.peers = s.pt.peers ∨ w.pt.peers = agedPeers s)
    ∧ (standing t).fixed = built stamp s w
  have haged : ∀ t, (standing t).fixed.cfg = s.cfg → t.pt.peers = s.pt.peers → (ageFrameEvent t).pt.peers = agedPeers s := by
    intro t hcfg hpeers
    have h : (ageFrameEvent t).pt.peers = t.pt.peers.map (ageRecord t.cfg.peerTimeout) :=
      congrArg Standing.peers (ageFrameEvent_standing t)
    have hcfg' : t.cfg = s.cfg := hcfg
    rw [h, hpeers, hcfg']; rfl
  have hkeepOpen : ∀ peers, ∀ f ∈ otherTasks old new, ∀ t, Open peers t → Open peers (f t) := by
    intro peers f hf t ⟨hI, hfixed, hpeers⟩
    obtain ⟨hf', hp', -⟩ := otherTasks_fixed hf t
    exact ⟨hothers f hf t hI, hf'.trans hfixed, hp'.trans hpeers⟩
  have hkeepBuilt : ∀ peers, ∀ f ∈ otherTasks old new, ∀ t, Built peers t → Built peers (f t) := by
    intro peers f hf t ⟨hpeers, w, hI, hw, hwp, ht⟩
    obtain ⟨hf', hp', -⟩ := otherTasks_fixed hf t
    exact ⟨hp'.trans hpeers, w, hI, hw, hwp, hf'.trans ht⟩
  have act : TwoAct (Open s.pt.peers) (Built s.pt.peers) (Open (agedPeers s)) (Built (agedPeers s)) (buildState stamp) ageFrameEvent
      (otherTasks old new) :=
    { first := fun t ⟨hI, hfixed, hpeers⟩ => ⟨hpeers, t, hI, hfixed, .inl hpeers, buildState_fixed stamp hfixed⟩
      second := fun t ⟨hI, hfixed, hpeers⟩ =>
        ⟨hage t hI hfixed hpeers, (ageFrameEvent_fixed t).trans hfixed, haged t (congrArg Standing.cfg hfixed) hpeers⟩
      afterFirst := fun t ⟨hpeers, w, hI, hw, hwp, ht⟩ =>
        ⟨haged t ((congrArg Standing.cfg ht).trans rfl) hpeers, w, hI, hw, hwp, (ageFrameEvent_fixed t).trans ht⟩
      afterSecond := fun t ⟨hI, hfixed, hpeers⟩ => ⟨hpeers, t, hI, hfixed, .inr hpeers, buildState_fixed stamp hfixed⟩
      others := fun f hf => ⟨hkeepOpen _ f hf, hkeepBuilt _ f hf, hkeepOpen _ f hf, hkeepBuilt _ f hf⟩ }
  obtain ⟨hpeers, w, hI, hw, hwp, ht⟩ :=
    inAnyOrder_two act (.refl _) (s := s) fun o d => ⟨hreorder o d, rfl, rfl⟩
  exact ⟨w, hI, hw, hwp, ht, hpeers⟩

end Sys2Proof.Machine
end

section
/-! PROOFS. O30: the body that a frame event publishes, the lock table at a pulse, and a frame event in which no block but the build and the
ageing has anything to do (R19, R59 to R66, R77, R97, R131). -/

namespace Sys2Proof.Machine

variable {s t u v w : State} {ch : Chan}

/-! ## The body as published (R19, R77, R97) -/

theorem bit_getLsbD (b : Bool) {place k : Nat} (hplace : place < 8) (hk : k < 8) :
    (bit b place).getLsbD k = (b && decide (place = k)) := by
  have all : ∀ b : Bool, ∀ p k : Fin 8, (bit b p).getLsbD k = (b && decide (p.val = k.val)) := by decide
  exact all b ⟨place, hplace⟩ ⟨k, hk⟩

/-- Each flag at its place in the flag byte (section 12.4.2). -/
theorem chanFlags_bits (s : State) (ch : Chan) :
    (chanFlags s ch).getLsbD 7 = (s.mo.get ch).targetClamped ∧ (chanFlags s ch).getLsbD 6 = (s.mo.get ch).softLimit
      ∧ (chanFlags s ch).getLsbD 5 = (s.mo.get ch).saturated ∧ (chanFlags s ch).getLsbD 4 = (s.fb.get ch).limPos.level
      ∧ (chanFlags s ch).getLsbD 3 = (s.fb.get ch).limNeg.level ∧ (chanFlags s ch).getLsbD 2 = fbFault (s.fb.get ch)
      ∧ (chanFlags s ch).getLsbD 1 = mapClampedFlag s ch ∧ (chanFlags s ch).getLsbD 0 = wheelStale s ch := by
  simp only [chanFlags, BitVec.getLsbD_or, bit_getLsbD, Nat.reduceLT]
  simp

/-- The number whose bits, from bit 0 on, are four levels. -/
theorem fourLevels_bits (a b c d : Bool) :
    (BitVec.ofNat 4 (a.toNat + 2 * b.toNat + 4 * c.toNat + 8 * d.toNat)).getLsbD 0 = a
      ∧ (BitVec.ofNat 4 (a.toNat + 2 * b.toNat + 4 * c.toNat + 8 * d.toNat)).getLsbD 1 = b
      ∧ (BitVec.ofNat 4 (a.toNat + 2 * b.toNat + 4 * c.toNat + 8 * d.toNat)).getLsbD 2 = c
      ∧ (BitVec.ofNat 4 (a.toNat + 2 * b.toNat + 4 * c.toNat + 8 * d.toNat)).getLsbD 3 = d := by
  revert a b c d; decide

theorem presenceLevels_bit (f : List Filt) {k : Nat} (hk : k < 4) :
    (presenceLevels f).getLsbD k = (f.getD k ⟨true, 0⟩).level := by
  obtain ⟨h0, h1, h2, h3⟩ := fourLevels_bits (f.getD 0 ⟨true, 0⟩).level (f.getD 1 ⟨true, 0⟩).level (f.getD 2 ⟨true, 0⟩).level
    (f.getD 3 ⟨true, 0⟩).level
  match k, hk with
  | 0, _ => exact h0
  | 1, _ => exact h1
  | 2, _ => exact h2
  | 3, _ => exact h3

@[simp] theorem buildBody_chan (report : StopReport) (s : State) (ch : Chan) :
    (buildBody report s).chans.get ch = chanRecord s ch := by
  cases ch <;> rfl

/-- What stands of a channel decides the parts of its record that the event's other blocks cannot change. -/
theorem chanRecord_publishes (h : (standing w).fixed = (standing s).fixed) (ch : Chan) :
    publishesChannel s ch (chanRecord w ch) := by
  have hcfg : w.cfg = s.cfg := congrArg Standing.cfg h
  have hbd : w.bd = s.bd := congrArg Standing.bd h
  have hmo : shownMotion (w.mo.get ch) = shownMotion (s.mo.get ch) := by
    have hmotion : w.mo.map shownMotion = s.mo.map shownMotion := congrArg Standing.motion h
    simpa only [PerChan.get_map] using congrArg (fun r => PerChan.get r ch) hmotion
  have hfb : shownFeedback (w.fb.get ch) = shownFeedback (s.fb.get ch) := by
    have hfeedback : w.fb.map shownFeedback = s.fb.map shownFeedback := congrArg Standing.feedback h
    simpa only [PerChan.get_map] using congrArg (fun r => PerChan.get r ch) hfeedback
  have hc : chanCfg w ch = chanCfg s ch := by simp only [chanCfg, hcfg]
  simp only [shownMotion, Prod.mk.injEq] at hmo
  simp only [shownFeedback, Prod.mk.injEq] at hfb
  obtain ⟨hpos, hsd, hcap, hring, hclamped, hsoft, hsat⟩ := hmo
  obtain ⟨hx, hfrozen, hlimPos, hlimNeg, hillegal, hrail, hsaturation⟩ := hfb
  obtain ⟨h7, h6, h5, h4, h3, h2, -, h0⟩ := chanFlags_bits w ch
  refine ⟨congrArg ChanCfg.kind hc, ?_, hsd, hcap, hring, h7.trans hclamped, h6.trans hsoft, h5.trans hsat,
    h4.trans (by rw [hlimPos]), h3.trans (by rw [hlimNeg]), h2.trans ?_, h0.trans ?_⟩
  · show (if isWheel w ch then publishedWheel (w.fb.get ch) else (w.mo.get ch).pos) = _
    simp only [isWheel, hc, publishedWheel, hx, hfrozen, hpos, decide_eq_true_eq]
  · simp only [fbFault, illegalRate, hillegal, hrail, hsaturation]
  · simp only [wheelStale, hc, hbd]

/-- The body built in a frame event of a station that stands as before but for its frame timer, with the peers' ages before or after their
ageing. -/
theorem buildBody_publishes {l : Lines} {f : FrameTimer} (report : StopReport)
    (h : (standing w).fixed = (standing { s with lines := l, ft := f }).fixed) (hcount : f.count = s.ft.count + 1)
    (haligned : f.aligned = s.ft.aligned) (hglitches : f.glitches = s.ft.glitches) (hlock : t.ft.lock = f.lock)
    (hpeers : w.pt.peers = s.pt.peers ∨ w.pt.peers = t.pt.peers) :
    publishesStation s t (buildBody report w) := by
  have hsu : w.su = s.su := congrArg Standing.su h
  have hcfg : w.cfg = s.cfg := congrArg Standing.cfg h
  have hft : w.ft = f := congrArg Standing.ft h
  have hzm : w.zm = s.zm := congrArg Standing.zm h
  have hcurrent : w.dk.current = s.dk.current := congrArg Standing.current h
  have hseq : w.tk.stateSeq = s.tk.stateSeq := congrArg Standing.seq h
  have hcounters : w.tk.counters = s.tk.counters := congrArg Standing.counters h
  have hactive : deskActive w = deskActive s := by simp only [deskActive, started, validImage, hsu, hcfg]
  refine ⟨hseq, (congrArg FrameTimer.count hft).trans hcount, ?_, (congrArg FrameTimer.lock hft).trans hlock.symm,
    (congrArg FrameTimer.aligned hft).trans haligned, fun k hk => ?_, ?_, fun ch => ?_,
    (congrArg FrameTimer.glitches hft).trans hglitches, hcounters, ?_, ?_⟩
  · show takeCapable w = takeCapable s
    have haxis : isAxis w = isAxis s := by funext ch; unfold isAxis chanCfg; rw [hcfg]
    simp only [takeCapable, validImage, hsu, haxis]
  · exact (presenceLevels_bit w.zm.presence hk).trans (by rw [hzm])
  · show (if deskActive w then w.dk.current else DeskContent.zero) = _
    rw [hactive, hcurrent]
  · rw [buildBody_chan]
    exact chanRecord_publishes h ch
  · show diagnosticStation w.tk.stateSeq = _
    rw [hseq]; rfl
  · have hrecord : ∀ q : State, w.pt.peers = q.pt.peers → diagnosticRecord w (diagnosticStation w.tk.stateSeq) =
        if diagnosticStation w.tk.stateSeq = s.su.station.toNat then PeerRecord.initial
        else peerRecord q (diagnosticStation w.tk.stateSeq) := fun q hq => by
      simp only [diagnosticRecord, peerRecord, hsu, hq]
    have hshows : ∀ q : State, w.pt.peers = q.pt.peers → _ := fun q hq =>
      And.intro (congrArg PeerRecord.freshness (hrecord q hq))
        (And.intro (congrArg PeerRecord.age (hrecord q hq)) (congrArg PeerRecord.gaps (hrecord q hq)))
    exact hpeers.imp (hshows s) (hshows t)

/-- The stop part is no part of what `publishesStation` says of a body. -/
theorem publishesStation.stopPart {body : StateBody} (h : publishesStation s t body) (r : StopReport) :
    publishesStation s t { body with stop := r } := h

/-! ## The lock table at a pulse (R60 to R63) -/

section
variable {code d : Nat} {f : FrameTimer}

theorem pulseLock_first (interval : Option Nat) (h : f.lock = .free ∨ interval = none) :
    pulseLock code interval f = startLocking f := by
  unfold pulseLock
  split <;> simp_all

theorem pulseLock_locking (h : f.lock = .locking) :
    pulseLock code (some d) f =
      if !f.lastPulse then f
      else if goodInterval code d then
        { f with period := d, lockCount := f.lockCount + 1, lock := if f.lockCount + 1 = 8 then .locked else .locking }
      else { f with lockCount := 0 } := by
  simp [pulseLock, h]

theorem pulseLock_locked (h : f.lock = .locked) :
    pulseLock code (some d) f = if goodInterval code d then { f with period := d } else startLocking f := by
  simp [pulseLock, h]

theorem pulseLock_holdover (h : f.lock = .holdover) :
    pulseLock code (some d) f =
      if goodInterval code d then { f with lock := .locked, holdCount := 0 } else startLocking f := by
  simp [pulseLock, h]

/-- A pulse never leads to FREE. -/
theorem pulseLock_ne_free (interval : Option Nat) (f : FrameTimer) : (pulseLock code interval f).lock ≠ .free := by
  by_cases hfirst : f.lock = .free ∨ interval = none
  · rw [pulseLock_first interval hfirst]; simp [startLocking]
  · obtain ⟨hfree, hsome⟩ := not_or.mp hfirst
    obtain ⟨d, rfl⟩ := Option.ne_none_iff_exists'.mp hsome
    cases hlock : f.lock with
    | free => exact absurd hlock hfree
    | locking => rw [pulseLock_locking hlock]; split_ifs <;> simp [hlock]
    | locked => rw [pulseLock_locked hlock]; split_ifs <;> simp [hlock, startLocking]
    | holdover => rw [pulseLock_holdover hlock]; split_ifs <;> simp [startLocking]

/-- A pulse leaves the count, the glitches and the alignment to others. -/
theorem pulseLock_keeps (interval : Option Nat) (f : FrameTimer) :
    (pulseLock code interval f).count = f.count ∧ (pulseLock code interval f).glitches = f.glitches
      ∧ (pulseLock code interval f).aligned = f.aligned := by
  unfold pulseLock
  split
  · exact ⟨rfl, rfl, rfl⟩
  · exact ⟨rfl, rfl, rfl⟩
  · split_ifs <;> exact ⟨rfl, rfl, rfl⟩
  · split_ifs <;> exact ⟨rfl, rfl, rfl⟩
  · split_ifs <;> exact ⟨rfl, rfl, rfl⟩

/-- A lock state other than FREE waits for the close of the next window (R59). -/
theorem deadlineAfter_window (code : Nat) {lock : Lock} (stamp : Word) (h : lock ≠ .free) :
    deadlineAfter code lock stamp = after stamp (Config.nominalPeriod code + Config.tolerance code) := by
  cases lock with
  | free => exact absurd rfl h
  | locking => rfl
  | locked => rfl
  | holdover => rfl

end

/-! ## An event in which other blocks have nothing to do -/

/-- The station with other choices before it, another trunk and peer table, and another duplicate window; no command is confirmed and no
release is pending. -/
structure Beside (s t : State) : Prop where
  eq : t = { s with order := t.order, draws := t.draws, tk := t.tk, pt := t.pt, sc := { s.sc with dupWindow := t.sc.dupWindow } }
  confirmed : t.pt.confirmed = none
  release : t.sc.pendingRelease = false

theorem Beside.refl (hconfirmed : s.pt.confirmed = none) (hrelease : s.sc.pendingRelease = false) : Beside s s :=
  ⟨rfl, hconfirmed, hrelease⟩

theorem Beside.reordered (h : Beside s t) (o : List Nat) (d : Nat) : Beside s (reordered o d t) :=
  ⟨by rw [h.eq]; rfl, h.confirmed, h.release⟩

theorem Beside.build (h : Beside s t) (stamp : Word) : Beside s (buildState stamp t) :=
  ⟨by rw [h.eq]; rfl, h.confirmed, h.release⟩

theorem Beside.handConfirmed (h : Beside s t) : Machine.handConfirmed t = t := by
  simp [Machine.handConfirmed, h.confirmed]

/-- With no release to execute, the stop controller's part counts the duplicate window down and reports. -/
theorem Beside.stopPart_eq (h : Beside s t) :
    stopPart t = { t with
      sc := { t.sc with dupWindow := t.sc.dupWindow - 1 }
      tk := { t.tk with report := some (stopReport t) } } := by
  have hrelease : handRelease t = t := by simp [handRelease_eq, h.confirmed, confirmsRelease]
  simp [stopPart, hrelease, stopFrameEvent, h.release, stopReport]

theorem Beside.stopPart (h : Beside s t) : Beside s (Machine.stopPart t) := by
  rw [h.stopPart_eq]
  exact ⟨by rw [h.eq], h.confirmed, h.release⟩

theorem Beside.stopReport (h : Beside s t) : Machine.stopReport t = Machine.stopReport s := by
  rw [h.eq]; rfl

/-- The required peers whose records are not FRESH (R95). -/
def silentPeers (s : State) : List Nat := peerNumbers.filter fun n => requiredPeer s n && (peerRecord s n).freshness ≠ .fresh

theorem silentPeers_eq_nil (s : State) :
    silentPeers s = [] ↔ ∀ n ∈ peerNumbers, requiredPeer s n = true → (peerRecord s n).freshness = .fresh := by
  simp [silentPeers, List.filter_eq_nil_iff]

theorem ageFrameEvent_eq (s : State) :
    ageFrameEvent s = (silentPeers (agePeers s)).foldl (fun t n => raiseCause .peerSilent (BitVec.ofNat 8 n) 0 0 t) (agePeers s) := rfl

/-- With every required peer FRESH after the ageing, the ageing is all. -/
theorem ageFrameEvent_fresh (h : silentPeers (agePeers s) = []) : ageFrameEvent s = agePeers s := by
  rw [ageFrameEvent_eq, h]; rfl

theorem Beside.age (h : Beside s t) (hfresh : silentPeers (agePeers t) = []) : Beside s (ageFrameEvent t) := by
  rw [ageFrameEvent_fresh hfresh]
  exact ⟨by rw [h.eq]; rfl, h.confirmed, h.release⟩

/-- A phase in which a frame event and a lock notice ask nothing of the take engine. -/
def restsAtFrames (p : Phase) : Prop := p = .idle ∨ p = .checking ∨ p = .cueing

theorem takeFrameEvent_rests (h : restsAtFrames s.te.phase) : takeFrameEvent s = s := by
  rcases h with h | h | h <;> simp [takeFrameEvent, h]

theorem loseTake_rests (fault : TakeFault) (h : restsAtFrames s.te.phase) : loseTake fault s = s := by
  rcases h with h | h | h <;> simp [loseTake, h]

theorem lockNotice_rests (new : Lock) (h : restsAtFrames s.te.phase) : lockNotice new s = s := by
  cases new with
  | free => exact loseTake_rests _ h
  | holdover => rcases h with h | h | h <;> simp [lockNotice, h]
  | locking => rfl
  | locked => rfl

/-- A frame event in which nothing is handed on, released or silent, and no take waits for it. -/
structure QuietEvent (s : State) : Prop where
  confirmed : s.pt.confirmed = none
  release : s.sc.pendingRelease = false
  fresh : silentPeers (agePeers s) = []
  rests : restsAtFrames s.te.phase

theorem silentPeers_congr (hpeers : t.pt.peers = s.pt.peers) (hcfg : t.cfg = s.cfg) (hsu : t.su = s.su) :
    silentPeers t = silentPeers s := by
  unfold silentPeers requiredPeer peerRecord
  rw [hpeers, hcfg, hsu]

/-- The ageing of a station whose peers are not yet aged. -/
theorem silentPeers_aged (hpeers : t.pt.peers = s.pt.peers) (hcfg : t.cfg = s.cfg) (hsu : t.su = s.su) :
    silentPeers (agePeers t) = silentPeers (agePeers s) := by
  refine silentPeers_congr ?_ hcfg hsu
  show t.pt.peers.map _ = s.pt.peers.map _
  rw [hpeers, hcfg]

theorem Beside.others (h : Beside s t) (hrests : restsAtFrames s.te.phase) {old new : Lock} {f : State → State}
    (hf : f ∈ otherTasks old new) : Beside s (f t) := by
  have hphase : restsAtFrames t.te.phase := by rw [h.eq]; exact hrests
  rcases mem_otherTasks hf with rfl | rfl | rfl | rfl
  · rw [h.handConfirmed]; exact h
  · exact h.stopPart
  · rw [takeFrameEvent_rests hphase]; exact h
  · rw [lockNotice_rests _ hphase]; exact h

/-- The stop controller's part and the ageing of a quiet event, in either order, before, between or after the other tasks. -/
theorem frameTasks_report (stamp : Word) (old new : Lock) (hquiet : QuietEvent s) :
    (inAnyOrder (frameTasks stamp old new) s).tk.report = some (stopReport s) := by
  let Unaged : State → Prop := fun t => Beside s t ∧ t.pt.peers = s.pt.peers
  let Reported : State → Prop := fun t => t.tk.report = some (stopReport s)
  let rest := [buildState stamp, handConfirmed, takeFrameEvent] ++ (if old = new then [] else [lockNotice new])
  have hperm : (frameTasks stamp old new).Perm (Machine.stopPart :: ageFrameEvent :: rest) :=
    (List.perm_middle (l₁ := [buildState stamp, ageFrameEvent, handConfirmed])).trans
      ((List.Perm.swap ageFrameEvent (buildState stamp) _).cons _)
  have hage : ∀ t, Unaged t → ageFrameEvent t = agePeers t := fun t ⟨hb, hpeers⟩ =>
    ageFrameEvent_fresh ((silentPeers_aged hpeers (by rw [hb.eq]) (by rw [hb.eq])).trans hquiet.fresh)
  have hrest : ∀ f ∈ rest, ∀ t, Beside s t → f = buildState stamp ∨ f t = t := by
    intro f hf t hb
    have hphase : restsAtFrames t.te.phase := by rw [hb.eq]; exact hquiet.rests
    rcases List.mem_append.mp hf with hf | hf
    · simp only [List.mem_cons, List.not_mem_nil, or_false] at hf
      rcases hf with rfl | rfl | rfl
      · exact .inl rfl
      · exact .inr hb.handConfirmed
      · exact .inr (takeFrameEvent_rests hphase)
    · split at hf
      · exact absurd hf List.not_mem_nil
      · rw [List.mem_singleton.mp hf]
        exact .inr (lockNotice_rests _ hphase)
  have hkeep : ∀ (X : State → Prop), (∀ t, X t → Beside s t) → (∀ t, X t → X (buildState stamp t)) →
      ∀ f ∈ rest, ∀ t, X t → X (f t) := by
    intro X hX hbuild f hf t ht
    obtain rfl | hid := hrest f hf t (hX t ht)
    · exact hbuild t ht
    · rwa [hid]
  have act : TwoAct Unaged (fun t => Unaged t ∧ Reported t) (Beside s) (fun t => Beside s t ∧ Reported t) Machine.stopPart
      ageFrameEvent rest :=
    { first := fun t ⟨hb, hpeers⟩ =>
        ⟨⟨hb.stopPart, by rw [hb.stopPart_eq]; exact hpeers⟩, by rw [hb.stopPart_eq]; exact congrArg some hb.stopReport⟩
      second := fun t ht => by
        obtain ⟨hb, hpeers⟩ := id ht
        exact hb.age ((silentPeers_aged hpeers (by rw [hb.eq]) (by rw [hb.eq])).trans hquiet.fresh)
      afterFirst := fun t ⟨⟨hb, hpeers⟩, hreport⟩ =>
        ⟨hb.age ((silentPeers_aged hpeers (by rw [hb.eq]) (by rw [hb.eq])).trans hquiet.fresh), by
          show (ageFrameEvent t).tk.report = _
          rw [hage t ⟨hb, hpeers⟩]; exact hreport⟩
      afterSecond := fun t hb => ⟨hb.stopPart, by
        show (Machine.stopPart t).tk.report = _
        rw [hb.stopPart_eq]; exact congrArg some hb.stopReport⟩
      others := fun f hf =>
        ⟨hkeep Unaged (fun _ ht => ht.1) (fun t ht => ⟨ht.1.build stamp, ht.2⟩) f hf,
          hkeep _ (fun _ ht => ht.1.1) (fun t ht => ⟨⟨ht.1.1.build stamp, ht.1.2⟩, ht.2⟩) f hf,
          hkeep _ (fun _ ht => ht) (fun t ht => ht.build stamp) f hf,
          hkeep _ (fun _ ht => ht.1) (fun t ht => ⟨ht.1.build stamp, ht.2⟩) f hf⟩ }
  exact (inAnyOrder_two act hperm (s := s) fun o d =>
    ⟨(Beside.refl hquiet.confirmed hquiet.release).reordered o d, rfl⟩).2

/-- The report completes the frame built (R131). -/
theorem completeBuild_slot {r : StopReport} {time : Word} (h : s.tk.stateSlot = .waiting (buildBody r w) time) :
    (completeBuild s).tk.stateSlot = .waiting (buildBody (s.tk.report.getD r) w) time := by
  unfold completeBuild
  cases hr : s.tk.report with
  | none => exact h
  | some r' => exact congrArg (fillReport r') h

/-- Completing the build changes the slot and the report alone. -/
theorem completeBuild_frame (s : State) :
    completeBuild s =
      { s with tk := { s.tk with stateSlot := (completeBuild s).tk.stateSlot, report := (completeBuild s).tk.report } } := by
  unfold completeBuild
  cases s.tk.report <;> rfl

/-! ## A frame event as a whole -/

/-- The station as its tasks are handed a frame event: the lock state changed, the count risen, the next deadline set. -/
def stamped (pulse : Bool) (stamp : Word) (next : FrameTimer → FrameTimer) (s : State) : State :=
  { s with ft := stampEvent s.cfg.frameRate pulse stamp (next s.ft) }

/-- The tasks of a frame event in their free order, before the report completes the frame built. -/
def tasksDone (pulse : Bool) (stamp : Word) (next : FrameTimer → FrameTimer) (s : State) : State :=
  inAnyOrder (frameTasks stamp s.ft.lock (next s.ft).lock) (stamped pulse stamp next s)

theorem frameEvent_eq (pulse : Bool) (stamp : Word) (next : FrameTimer → FrameTimer) (s : State) :
    frameEvent pulse stamp next s = completeBuild (tasksDone pulse stamp next s) := rfl

/-- What a frame event leaves as its tasks were handed it, the frame it publishes, and the peers aged. -/
structure EventDone (stamp : Word) (u t : State) (body : StateBody) : Prop where
  fixed : (standing t).fixed =
    { (standing u).fixed with
      slot := .waiting body (after stamp u.cfg.publishDelay), seq := u.tk.stateSeq + 1
      counters := if waitsInSlot u.tk.stateSlot then { u.tk.counters with late := satIncr 65535 u.tk.counters.late }
        else u.tk.counters }
  peers : t.pt.peers = agedPeers u
  confirmed : t.pt.confirmed = none

/-- The station `w` that a frame event's build finds, its other tasks having left it as `u` in all that a body shows of them, and the
report that completes the body. -/
structure BuildOf (u w : State) (report : StopReport) : Prop where
  fixed : (standing w).fixed = (standing u).fixed
  peers : w.pt.peers = u.pt.peers ∨ w.pt.peers = agedPeers u
  quiet : QuietEvent u → Beside u w ∧ report = stopReport u

theorem completeBuild_fixed (s : State) :
    (standing (completeBuild s)).fixed = { (standing s).fixed with slot := (completeBuild s).tk.stateSlot } := by
  rw [completeBuild_frame]; rfl

theorem completeBuild_done {stamp : Word} (hbuilt : (standing t).fixed = built stamp u w) (hpeers : t.pt.peers = agedPeers u)
    (hconfirmed : t.pt.confirmed = none) :
    EventDone stamp u (completeBuild t) (buildBody (t.tk.report.getD (w.tk.report.getD (stopReport w))) w) := by
  refine ⟨?_, ?_, ?_⟩
  · rw [completeBuild_fixed, completeBuild_slot (congrArg Standing.slot hbuilt), hbuilt]; rfl
  · rw [completeBuild_frame]; exact hpeers
  · rw [completeBuild_frame]; exact hconfirmed

theorem frameEvent_done (pulse : Bool) (stamp : Word) (next : FrameTimer → FrameTimer) (s : State) :
    ∃ w report, EventDone stamp (stamped pulse stamp next s) (frameEvent pulse stamp next s) (buildBody report w)
      ∧ BuildOf (stamped pulse stamp next s) w report := by
  rw [frameEvent_eq]
  unfold tasksDone
  generalize stamped pulse stamp next s = u
  obtain ⟨w, hbeside, hw, hwpeers, hbuilt, hpeers⟩ := frameTasks_built (I := fun t => QuietEvent u → Beside u t) stamp s.ft.lock
    (next s.ft).lock (s := u) (fun o d hquiet => (Beside.refl hquiet.confirmed hquiet.release).reordered o d)
    (fun t hI hfixed hunaged hquiet => (hI hquiet).age
      ((silentPeers_aged hunaged (congrArg Standing.cfg hfixed) (congrArg Standing.su hfixed)).trans hquiet.fresh))
    (fun f hf t hI hquiet => (hI hquiet).others hquiet.rests hf)
  refine ⟨w, _, completeBuild_done hbuilt hpeers (frameTasks_confirmed stamp _ _ u), hw, hwpeers,
    fun hquiet => ⟨hbeside hquiet, ?_⟩⟩
  rw [frameTasks_report stamp _ _ hquiet]
  rfl

/-! ## The arrival of a pulse -/

/-- A pulse that is no glitch (R59). -/
theorem exec_frefArrival_pulse (hstarted : started s = true) (hvalid : validImage s = true) (hglitch : isGlitch s = false) :
    exec .frefArrival s = .next (frameEvent true s.clock (pulseLock s.cfg.frameRate (sinceEvent s))
      { s with lines := { s.lines with fref := true }, ft := { s.ft with frefLow := false } }) := by
  show execFrefArrival s = _
  simp [execFrefArrival, hstarted, hvalid, hglitch]

theorem exec_frefArrival_glitch (hstarted : started s = true) (hvalid : validImage s = true) (hglitch : isGlitch s = true) :
    exec .frefArrival s = .next { s with
      lines := { s.lines with fref := true }
      ft := { s.ft with frefLow := false, glitches := satIncr 65535 s.ft.glitches } } := by
  show execFrefArrival s = _
  simp [execFrefArrival, hstarted, hvalid, hglitch]

/-- The ring value of an update (R19). -/
theorem ringValue_spec (i : UpdateInput) (c : ChanCfg) (p : Int) :
    let place := floorDiv ((floorDiv p 256 - i.softLo) * 65535) (i.softHi - i.softLo)
    (i.ref = true → c.refKind = .endStops →
      ((place < 0 → ringValue i c p = 0) ∧ (0 ≤ place → place ≤ 65535 → (ringValue i c p : Int) = place)
        ∧ (65535 < place → ringValue i c p = 65535)))
    ∧ (i.ref = false ∨ c.refKind ≠ .endStops → ringValue i c p = 0) := by
  intro place
  refine ⟨fun href hkind => ?_, fun hnone => ?_⟩
  · have hring : ringValue i c p = (clampInt 0 65535 place).toNat := by
      simp only [ringValue, href, hkind, decide_true, Bool.and_self, if_true]; rfl
    rw [hring]
    obtain ⟨h, e⟩ | ⟨h, h', e⟩ | ⟨h, h', e⟩ := clampInt_cases 0 65535 place <;> rw [e] <;> omega
  · have hnot : (i.ref && decide (c.refKind = .endStops)) = false := by
      rcases hnone with h | h <;> simp [h]
    simp [ringValue, hnot]

/-- The lock table at a pulse, by the lock state it finds and the interval it ends (R60 to R63). -/
theorem pulseLock_table (code : Nat) (interval : Option Nat) (f : FrameTimer) :
    let g := pulseLock code interval f
    (f.lock = .free ∨ interval = none → g.lock = .locking ∧ g.lockCount = 0 ∧ g.period = f.period)
    ∧ (∀ d, interval = some d →
        (f.lock = .locking → f.lastPulse = true → goodInterval code d = true →
          g.period = d ∧ g.lockCount = f.lockCount + 1 ∧ g.lock = if f.lockCount = 7 then .locked else .locking)
        ∧ (f.lock = .locking → f.lastPulse = true → goodInterval code d = false →
          g.period = f.period ∧ g.lockCount = 0 ∧ g.lock = .locking)
        ∧ (f.lock = .locking → f.lastPulse = false →
          g.period = f.period ∧ g.lockCount = f.lockCount ∧ g.lock = .locking)
        ∧ (f.lock = .locked → goodInterval code d = true → g.lock = .locked ∧ g.period = d)
        ∧ (f.lock = .holdover → goodInterval code d = true → g.lock = .locked ∧ g.holdCount = 0 ∧ g.period = f.period)
        ∧ (f.lock = .locked ∨ f.lock = .holdover → goodInterval code d = false →
          g.lock = .locking ∧ g.lockCount = 0 ∧ g.holdCount = 0 ∧ g.period = f.period)) := by
  intro g
  refine ⟨fun h => ?_, ?_⟩
  · simp only [g, pulseLock_first interval h]; exact ⟨rfl, rfl, rfl⟩
  · rintro d rfl
    refine ⟨fun h hp hg => ?_, fun h hp hg => ?_, fun h hp => ?_, fun h hg => ?_, fun h hg => ?_, fun h hg => ?_⟩
    · simp [g, pulseLock_locking h, hp, hg]
    · simp [g, pulseLock_locking h, hp, hg, h]
    · simp [g, pulseLock_locking h, hp, h]
    · simp [g, pulseLock_locked h, hg, h]
    · simp [g, pulseLock_holdover h, hg]
    · rcases h with h | h
      · simp [g, pulseLock_locked h, hg, startLocking]
      · simp [g, pulseLock_holdover h, hg, startLocking]

/-- What the body of a quiet event shows of the stop controller, the take engine and the channels. -/
theorem Beside.body (h : Beside u w) (report : StopReport) (ch : Chan) :
    (buildBody report w).phase = u.te.phase ∧ (buildBody report w).take = u.te.take ∧ (buildBody report w).length = u.te.length
      ∧ (buildBody report w).result = u.te.result ∧ (buildBody report w).fault = u.te.fault
      ∧ (buildBody report w).spoiled = u.te.spoiled ∧ (buildBody report w).holdover = u.te.holdover
      ∧ (buildBody report w).serial = u.te.serial
      ∧ ((buildBody report w).chans.get ch).ref = (u.rf.get ch).state
      ∧ ((buildBody report w).chans.get ch).velocity = (u.mo.get ch).v
      ∧ ((buildBody report w).chans.get ch).flags.getLsbD 1 = mapClampedFlag u ch := by
  obtain ⟨-, -, -, -, -, -, hclamped, -⟩ := chanFlags_bits w ch
  rw [buildBody_chan]
  refine ⟨?_, ?_, ?_, ?_, ?_, ?_, ?_, ?_, ?_, ?_, hclamped.trans ?_⟩ <;> rw [h.eq] <;> rfl

/-- Settles O30: a glitch counts alone; a pulse event takes the lock table's line, and the body that its build makes shows the station as
the event's other blocks leave it, which is as it stood where they have nothing to do. -/
theorem pulseArrival : Obligations.PulseArrival := by
  refine ⟨fun s hstarted hvalid => ⟨exec_frefArrival_glitch hstarted hvalid, fun hglitch => ?_⟩, fun i c m => ?_⟩
  · let s₁ : State := { s with lines := { s.lines with fref := true }, ft := { s.ft with frefLow := false } }
    let u := stamped true s.clock (pulseLock s.cfg.frameRate (sinceEvent s)) s₁
    obtain ⟨w, report, hdone, hbuild⟩ := frameEvent_done true s.clock (pulseLock s.cfg.frameRate (sinceEvent s)) s₁
    refine ⟨_, exec_frefArrival_pulse hstarted hvalid hglitch, ?_⟩
    generalize frameEvent true s.clock (pulseLock s.cfg.frameRate (sinceEvent s)) s₁ = t at hdone
    obtain ⟨hfixed, hpeers, hconfirmed⟩ := hdone
    obtain ⟨hcount, hglitches, haligned⟩ := pulseLock_keeps (code := s.cfg.frameRate) (sinceEvent s) s₁.ft
    have hfree := pulseLock_ne_free (code := s.cfg.frameRate) (sinceEvent s) s₁.ft
    have hft : t.ft = u.ft := congrArg Standing.ft hfixed
    obtain ⟨hfirst, htable⟩ := pulseLock_table s.cfg.frameRate (sinceEvent s) s₁.ft
    have hrise : u.ft.count = s.ft.count + 1 := congrArg (· + 1) hcount
    have hpublishes : publishesStation s t (buildBody report w) :=
      buildBody_publishes (f := u.ft) (l := u.lines) report hbuild.fixed hrise haligned hglitches (congrArg FrameTimer.lock hft)
        (hbuild.peers.imp id fun h => h.trans hpeers.symm)
    rw [hft]
    refine ⟨hrise, rfl, rfl, congrArg Standing.clock hfixed, hglitches, haligned,
      congrArg some (deadlineAfter_window _ _ hfree), ?_, htable, congrArg Standing.seq hfixed,
      ⟨buildBody report w, congrArg Standing.slot hfixed, hpublishes, ?_⟩, ?_, hconfirmed, congrArg Standing.cfg hfixed,
      congrArg Standing.zm hfixed⟩
    · exact fun h => hfirst (h.imp id fun hnone => by simp [sinceEvent, hnone])
    · intro hnone hrelease hfresh hphase
      have hquiet : QuietEvent u := by
        refine ⟨hnone, hrelease, ?_, hphase⟩
        rw [silentPeers_eq_nil]
        intro n hn hrequired
        have hrecord : peerRecord (agePeers u) n = peerRecord t n := by
          show (agedPeers u).getD (n - 1) .initial = _
          rw [← hpeers]; rfl
        rw [hrecord]
        exact hfresh n hn hrequired
      obtain ⟨hbeside, hreport⟩ := hbuild.quiet hquiet
      obtain ⟨hp, ht, hl, hr, hf, hs, hh, hserial, -⟩ := hbeside.body report .A
      refine ⟨hreport, hp, ht, hl, hr, hf, hs, hh, hserial, fun ch => ?_⟩
      obtain ⟨-, -, -, -, -, -, -, -, hstate, hv, hclamped⟩ := hbeside.body report ch
      exact ⟨hstate, hv, hclamped⟩
    · exact (congrArg Counters.late (congrArg Standing.counters hfixed)).trans (apply_ite Counters.late _ _ _)
  · exact ringValue_spec i c (updateRecord i c m).p

end Sys2Proof.Machine
end

section
/-! PROOFS. O31, the layer below it: a take phase that waits for no frame stays one, what each part of an event's free order leaves in the end,
and the take work of a lost lock (R93, R131, R168). -/

namespace Sys2Proof.Machine

variable {s t u v w : State} {ch : Chan}

/-! ## Phases that wait for no frame -/

/-- An operation that begins no take work. -/
def KeepsRest (f : State → State) : Prop := ∀ s, restsAtFrames s.te.phase → restsAtFrames (f s).te.phase

theorem restsAtFrames_idle : restsAtFrames .idle := .inl rfl

theorem failRunStopped_te (ch : Chan) (s : State) : (failRunStopped ch s).te = s.te := by
  simp only [failRunStopped]; split <;> rfl

theorem takeStopped_rest : KeepsRest takeStopped := fun s hs => by
  unfold takeStopped
  split
  all_goals first | exact restsAtFrames_idle | exact hs

theorem liveRequests_te (s : State) : (liveRequests s).te = s.te := by rw [liveRequests_frame]

theorem stopNotice_rest (old new : StopState) : KeepsRest (stopNotice old new) := fun s hs => by
  simp only [stopNotice]
  rw [(stoppedLamp_mo _ _).2.2.2.1]
  have hleft : restsAtFrames (if old = .run && new ≠ .run then takeStopped (forChans failRunStopped Chan.list s) else s).te.phase := by
    split
    · exact takeStopped_rest _ (by rwa [forChans_te failRunStopped_te])
    · exact hs
  split
  · rwa [liveRequests_te]
  · exact hleft

theorem enterBraking_rest : KeepsRest enterBraking := fun _ hs => stopNotice_rest _ _ _ hs

theorem enterBrakingCut_rest : KeepsRest enterBrakingCut := fun s hs => by
  unfold enterBrakingCut
  exact stopNotice_rest _ _ _ (by rwa [forChans_te cutChannel_te])

theorem enterStopping_rest : KeepsRest enterStopping := fun s hs => by
  simp only [enterStopping]
  have hramp := stopNotice_rest s.sc.state .stopping _ (by
    rwa [forChans_te (f := requestStopping) (fun _ _ => rfl)
      (axisChans (setStop .stopping (some (after s.clock (s.cfg.stopTimeout * 1000))) none none s))
      (setStop .stopping (some (after s.clock (s.cfg.stopTimeout * 1000))) none none s)])
  split
  · exact enterBraking_rest _ hramp
  · exact hramp

theorem enterReleasing_rest : KeepsRest enterReleasing := fun s hs => by
  unfold enterReleasing
  exact stopNotice_rest _ _ _ (by rwa [forChans_te (f := requestRelease) (fun _ _ => rfl)])

theorem actOnCause_rest (cut : Bool) : KeepsRest (actOnCause cut) := fun s hs => by
  obtain ⟨-, h⟩ | ⟨-, h⟩ | ⟨-, h⟩ | ⟨-, h⟩ := actOnCause_cases cut s <;> rw [h]
  · split
    · exact enterBrakingCut_rest s hs
    · exact enterStopping_rest s hs
  · split
    · exact enterBrakingCut_rest s hs
    · exact hs
  · split
    · rwa [forChans_te cutChannel_te]
    · exact hs
  · exact hs

theorem raiseCause_rest (kind : CauseKind) (origin channel zone : Byte) : KeepsRest (raiseCause kind origin channel zone) :=
  fun s hs => by
  unfold raiseCause
  refine actOnCause_rest _ _ ?_
  split <;> exact hs

theorem executeRelease_rest : KeepsRest executeRelease := fun s hs => by
  unfold executeRelease
  split
  · split
    · exact hs
    · exact enterReleasing_rest s hs
  all_goals exact hs

theorem ageFrameEvent_rest : KeepsRest ageFrameEvent := fun s hs => by
  rw [ageFrameEvent_eq]
  generalize silentPeers (agePeers s) = silent
  have hstart : restsAtFrames (agePeers s).te.phase := hs
  generalize agePeers s = t at hstart
  induction silent generalizing t with
  | nil => exact hstart
  | cons n rest ih => exact ih _ (raiseCause_rest _ _ _ _ _ hstart)

theorem startRun_te (ch : Chan) (s : State) : (startRun ch s).te = s.te := by
  unfold startRun
  split
  · obtain ⟨why, -, hreq⟩ | ⟨-, hreq⟩ := request_cases .ref ch s <;> rw [hreq]
    simp only [armForRun_eq]
    rfl
  · rfl

theorem referenceCommand_te (s : State) : (referenceCommand s).te = s.te := by
  unfold referenceCommand
  split
  · exact forChans_te startRun_te _ _
  · rfl

/-- With a lock lost, a desk command begins no take work that waits for a frame: RECORD asks for LOCKED and RUN for CUED (R152, R159). -/
theorem executeDesk_rest (c : DeskContent) (hlock : s.ft.lock = .free) (hs : restsAtFrames s.te.phase) :
    restsAtFrames (executeDesk c s).te.phase := by
  have hcommand : ∀ (f : State → State), (∀ u : State, u.ft.lock = .free → restsAtFrames u.te.phase → restsAtFrames (f u).te.phase) →
      restsAtFrames (takeCommand c.serial f s).te.phase := by
    intro f hf
    unfold takeCommand
    split
    · exact hf _ hlock hs
    · exact hs
  unfold executeDesk
  split
  · exact hs
  · refine hcommand _ fun u hfree hu => ?_
    have hrefused : recordFault c.take.toNat c.start u ≠ .none := by
      unfold recordFault
      simp [hfree]
      split_ifs <;> simp
    unfold recordTake
    split
    · next h => exact absurd h hrefused
    · exact hu
  · refine hcommand _ fun u _ hu => ?_
    obtain ⟨-, h⟩ | ⟨-, h⟩ | ⟨-, -, h⟩ | ⟨-, -, -, h⟩ := endTake_cases u <;> rw [h]
    · rw [endDone_frame]; exact restsAtFrames_idle
    · exact restsAtFrames_idle
    · exact hu
    · exact hu
  · refine hcommand _ fun u _ hu => ?_
    unfold cueTake
    split
    · simp only []
      split
      · exact .inr (.inl rfl)
      · exact restsAtFrames_idle
    · exact hu
  · refine hcommand _ fun u _ hu => ?_
    unfold runTake
    split <;> exact hu
  · rw [abortRuns_frame]
    refine hcommand _ fun u _ hu => ?_
    unfold abortTake
    split
    all_goals first | exact restsAtFrames_idle | exact hu
  · refine hcommand _ fun u _ hu => ?_
    unfold eraseTake
    split
    · exact hu
    · split <;> exact hu
  · refine hcommand _ fun u _ hu => ?_
    unfold protectTake
    split <;> exact hu
  · refine hcommand _ fun u _ hu => ?_
    unfold liveOrder
    split
    · rwa [liveRequests_te]
    · exact hu
  · rwa [referenceCommand_te]
  · exact hs

theorem handConfirmed_rest (hlock : s.ft.lock = .free) (hs : restsAtFrames s.te.phase) :
    restsAtFrames (handConfirmed s).te.phase := by
  obtain ⟨h, -⟩ | ⟨c, -, h⟩ := handConfirmed_cases s <;> rw [h]
  · exact hs
  · exact executeDesk_rest c hlock hs

theorem stopFrameEvent_rest : KeepsRest stopFrameEvent := fun s hs => by
  unfold stopFrameEvent
  show restsAtFrames (if s.sc.pendingRelease then
      executeRelease { s with sc := { s.sc with dupWindow := s.sc.dupWindow - 1, pendingRelease := false } }
    else { s with sc := { s.sc with dupWindow := s.sc.dupWindow - 1 } }).te.phase
  split
  · exact executeRelease_rest _ hs
  · exact hs

/-- A lost lock ends what waits for a frame (R168). -/
theorem loseTake_ends (fault : TakeFault) (s : State) : restsAtFrames (loseTake fault s).te.phase := by
  unfold loseTake
  split
  all_goals first
    | exact restsAtFrames_idle
    | (next h => exact h ▸ .inl rfl)
    | (next h => exact h ▸ .inr (.inl rfl))
    | (next h => exact h ▸ .inr (.inr rfl))

/-- After a frame event that loses the lock no take is armed, recorded, cued or played (R168). -/
theorem frameTasks_lost (stamp : Word) {old : Lock} (hold : old ≠ .free) (hfree : s.ft.lock = .free) :
    restsAtFrames (inAnyOrder (frameTasks stamp old .free) s).te.phase := by
  have htasks : frameTasks stamp old .free =
      [buildState stamp, ageFrameEvent, handConfirmed, stopPart, takeFrameEvent] ++ lockNotice .free :: [] := by
    simp [frameTasks, hold]
  let Lost : State → Prop := fun t => t.ft.lock = .free
  have hkeep : ∀ f ∈ [buildState stamp, ageFrameEvent, handConfirmed, stopPart, takeFrameEvent], ∀ t, Lost t → Lost (f t) := by
    intro f hf t ht
    have h : timerFields (f t) = timerFields t :=
      (frameTasks_timer stamp old .free f (by rw [htasks]; exact List.mem_append_left _ hf) t).timer
    exact (congrArg (fun x => x.1) h).trans ht
  have hrest : ∀ f ∈ [buildState stamp, ageFrameEvent, handConfirmed, stopPart, takeFrameEvent], ∀ t,
      Lost t ∧ restsAtFrames t.te.phase → Lost (f t) ∧ restsAtFrames (f t).te.phase := by
    intro f hf t ⟨hlost, ht⟩
    refine ⟨hkeep f hf t hlost, ?_⟩
    simp only [List.mem_cons, List.not_mem_nil, or_false] at hf
    rcases hf with rfl | rfl | rfl | rfl | rfl
    · exact ht
    · exact ageFrameEvent_rest t ht
    · exact handConfirmed_rest hlost ht
    · refine stopFrameEvent_rest _ ?_
      rw [handRelease_eq]
      split
      · exact handConfirmed_rest hlost ht
      · exact ht
    · rwa [takeFrameEvent_rests ht]
  refine (inAnyOrder_one (P := Lost) (Q := fun t => Lost t ∧ restsAtFrames t.te.phase) (g := lockNotice .free)
    (fun t ht => ⟨?_, loseTake_ends _ t⟩) (fun f hf => ⟨hkeep f hf, hrest f hf⟩) ?_ fun _ _ => hfree).2
  · exact (congrArg FrameTimer.lock (congrArg Standing.ft (lockNotice_stands .free t))).trans ht
  · rw [htasks]
    exact List.perm_append_singleton _ _

/-! ## What the stop controller's own part and the ageing leave -/

/-- The stop controller's part, once in the event: the duplicate window falls by one, and no release stays pending or is to come. -/
theorem frameTasks_stopPart (stamp : Word) (old new : Lock) (s : State) :
    (inAnyOrder (frameTasks stamp old new) s).sc.dupWindow = s.sc.dupWindow - 1
      ∧ (inAnyOrder (frameTasks stamp old new) s).sc.pendingRelease = false := by
  let rest := [buildState stamp, ageFrameEvent, handConfirmed] ++ ([takeFrameEvent] ++ if old = new then [] else [lockNotice new])
  let Before : State → Prop := fun t => t.sc.dupWindow = s.sc.dupWindow
  let After : State → Prop := fun t =>
    t.sc.dupWindow = s.sc.dupWindow - 1 ∧ t.sc.pendingRelease = false ∧ confirmsRelease t.pt.confirmed = false
  have hperm : (frameTasks stamp old new).Perm (stopPart :: rest) :=
    List.perm_middle (l₁ := [buildState stamp, ageFrameEvent, handConfirmed])
  have hrest : ∀ f ∈ rest, f = handConfirmed ∨ ∀ t, (standing (f t)).dupWindow = t.sc.dupWindow
      ∧ (standing (f t)).pendingRelease = t.sc.pendingRelease ∧ (standing (f t)).confirmed = t.pt.confirmed := by
    intro f hf
    rcases List.mem_append.mp hf with hf | hf
    · simp only [List.mem_cons, List.not_mem_nil, or_false] at hf
      rcases hf with rfl | rfl | rfl
      · exact .inr fun _ => ⟨rfl, rfl, rfl⟩
      · exact .inr fun t => by rw [ageFrameEvent_standing]; exact ⟨rfl, rfl, rfl⟩
      · exact .inl rfl
    · rcases List.mem_append.mp hf with hf | hf
      · rw [List.mem_singleton.mp hf]
        exact .inr fun t => by rw [takeFrameEvent_stands]; exact ⟨rfl, rfl, rfl⟩
      · split at hf
        · exact absurd hf List.not_mem_nil
        · rw [List.mem_singleton.mp hf]
          exact .inr fun t => by rw [lockNotice_stands]; exact ⟨rfl, rfl, rfl⟩
  have hhand : ∀ t, (handConfirmed t).sc.dupWindow = t.sc.dupWindow := fun t =>
    congrArg Standing.dupWindow (handConfirmed_standing t)
  have hacts : ∀ t, Before t → After (stopPart t) := by
    intro t ht
    have h := stopPart_standing t
    refine ⟨(congrArg Standing.dupWindow h).trans (congrArg (· - 1) ht), congrArg Standing.pendingRelease h, ?_⟩
    rw [show (stopPart t).pt.confirmed = _ from congrArg Standing.confirmed h]
    show confirmsRelease (if confirmsRelease t.pt.confirmed then none else t.pt.confirmed) = false
    split
    · rfl
    · next hnot => exact Bool.eq_false_iff.mpr hnot
  have hdone := inAnyOrder_one (P := Before) (Q := After) (s := s) hacts (fun f hf => ⟨fun t ht => ?_, fun t ht => ?_⟩) hperm
    fun _ _ => rfl
  · exact ⟨hdone.1, hdone.2.1⟩
  · rcases hrest f hf with rfl | h
    · exact (hhand t).trans ht
    · exact (h t).1.trans ht
  · obtain ⟨hdup, hpending, hconfirms⟩ := ht
    rcases hrest f hf with rfl | h
    · have hstanding := handConfirmed_standing t
      refine ⟨(hhand t).trans hdup, (congrArg Standing.pendingRelease hstanding).trans ?_, ?_⟩
      · show (t.sc.pendingRelease || confirmsRelease t.pt.confirmed) = false
        rw [hpending, hconfirms]; rfl
      · rw [show (handConfirmed t).pt.confirmed = none from congrArg Standing.confirmed hstanding]; rfl
    · obtain ⟨h₁, h₂, h₃⟩ := h t
      exact ⟨h₁.trans hdup, h₂.trans hpending, (congrArg confirmsRelease h₃).trans hconfirms⟩

/-- The ageing, once in the event: the desk's earlier content and the join serial are emptied when its record goes ABSENT (R93). -/
theorem frameTasks_fades (stamp : Word) (old new : Lock) (s : State) :
    (inAnyOrder (frameTasks stamp old new) s).pt.earlier = (if deskFades s then none else s.pt.earlier)
      ∧ (inAnyOrder (frameTasks stamp old new) s).pt.join = if deskFades s then none else s.pt.join := by
  let rest := buildState stamp :: otherTasks old new
  let Before : State → Prop := fun t =>
    t.cfg = s.cfg ∧ t.pt.peers = s.pt.peers ∧ t.pt.earlier = s.pt.earlier ∧ t.pt.join = s.pt.join
  let After : State → Prop := fun t =>
    t.pt.earlier = (if deskFades s then none else s.pt.earlier) ∧ t.pt.join = if deskFades s then none else s.pt.join
  have hrest : ∀ f ∈ rest, ∀ t, (f t).cfg = t.cfg ∧ (f t).pt.peers = t.pt.peers ∧ (f t).pt.earlier = t.pt.earlier
      ∧ (f t).pt.join = t.pt.join := by
    intro f hf t
    rcases List.mem_cons.mp hf with rfl | hf
    · exact ⟨rfl, rfl, rfl, rfl⟩
    · obtain ⟨hfixed, hpeers, hearlier, hjoin⟩ := otherTasks_fixed hf t
      exact ⟨congrArg Standing.cfg hfixed, hpeers, hearlier, hjoin⟩
  refine inAnyOrder_one (P := Before) (Q := After) (g := ageFrameEvent) (fun t ht => ?_) (fun f hf => ⟨fun t ht => ?_, fun t ht => ?_⟩)
    (List.Perm.swap ageFrameEvent (buildState stamp) _) fun _ _ => ⟨rfl, rfl, rfl, rfl⟩
  · obtain ⟨hcfg, hpeers, hearlier, hjoin⟩ := ht
    have hstanding := ageFrameEvent_standing t
    have hfades : deskFades t = deskFades s := by unfold deskFades peerRecord; rw [hcfg, hpeers]
    refine ⟨(congrArg Standing.earlier hstanding).trans ?_, (congrArg Standing.join hstanding).trans ?_⟩
    · show (if deskFades t then none else t.pt.earlier) = _
      rw [hfades, hearlier]
    · show (if deskFades t then none else t.pt.join) = _
      rw [hfades, hjoin]
  · obtain ⟨hc, hp, he, hj⟩ := hrest f hf t
    obtain ⟨hcfg, hpeers, hearlier, hjoin⟩ := ht
    exact ⟨hc.trans hcfg, hp.trans hpeers, he.trans hearlier, hj.trans hjoin⟩
  · obtain ⟨-, -, he, hj⟩ := hrest f hf t
    exact ⟨he.trans ht.1, hj.trans ht.2⟩

/-- A record after one ageing (R93). -/
theorem peerRecord_aged (hpeers : t.pt.peers = agedPeers s) (n : Nat) :
    peerRecord t n = ageRecord s.cfg.peerTimeout (peerRecord s n) := by
  unfold peerRecord
  rw [hpeers, agedPeers]
  simp only [List.getD_eq_getElem?_getD, List.getElem?_map]
  cases s.pt.peers[n - 1]? <;> rfl

/-- The three ways of a record: ABSENT stays, age 63 goes ABSENT, and any other ages and goes STALE above peer_timeout (R93). -/
theorem ageRecord_spec (timeout : Nat) (r : PeerRecord) :
    let r' := ageRecord timeout r
    (r.freshness = .absent → r' = r)
    ∧ (r.freshness ≠ .absent → r.age = 63 →
        r'.freshness = .absent ∧ r'.age = 64 ∧ r'.content = none ∧ r'.seq = none ∧ r'.gaps = r.gaps)
    ∧ (r.freshness ≠ .absent → r.age ≠ 63 →
        r'.age = satIncr 255 r.age ∧ r'.content = r.content ∧ r'.seq = r.seq ∧ r'.gaps = r.gaps
          ∧ r'.freshness = if timeout < satIncr 255 r.age then .stale else r.freshness) := by
  intro r'
  refine ⟨fun h => by simp [r', ageRecord, h], fun h hage => ?_, fun h hage => ?_⟩
  · simp [r', ageRecord, h, hage, satIncr]
  · have hnot : satIncr 255 r.age ≠ 64 := by unfold satIncr; split <;> omega
    have hstale : r.freshness = .fresh ∨ r.freshness = .stale := by
      cases hf : r.freshness <;> simp_all
    rcases hstale with hf | hf
    · by_cases hlate : timeout < satIncr 255 r.age <;> simp [r', ageRecord, hnot, hf, hlate]
    · by_cases hlate : timeout < satIncr 255 r.age <;> simp [r', ageRecord, hnot, hf]

end Sys2Proof.Machine
end

section
/-! PROOFS. O31: the silent required peers of a frame event in which no command is confirmed and no release is pending, whatever the take
engine does before or after them; and the expiry of the deadline (R60 to R63, R66, R93, R95, R121, R130, R168). -/

namespace Sys2Proof.Machine

variable {s t u v w : State} {ch : Chan}

/-! ## The take engine's work at a frame event -/

/-- What the take engine changes when it takes a frame event or a lock notice: its report, the store, and channels' modes in RUN, none from
OFF or to OFF. -/
structure TakeWork (s t : State) : Prop where
  eq : t = { s with te := t.te, ts := t.ts, mo := t.mo }
  p : ∀ ch, (t.mo.get ch).p = (s.mo.get ch).p
  v : ∀ ch, (t.mo.get ch).v = (s.mo.get ch).v
  off : ∀ ch, (t.mo.get ch).mode = .off ↔ (s.mo.get ch).mode = .off
  stopped : s.sc.state ≠ .run → t.mo = s.mo

/-- A change of the report and the store alone. -/
theorem TakeWork.report (s : State) (te : TakeEngine) (ts : Store) : TakeWork s { s with te := te, ts := ts } :=
  ⟨rfl, fun _ => rfl, fun _ => rfl, fun _ => Iff.rfl, fun _ => rfl⟩

theorem TakeWork.refl (s : State) : TakeWork s s := .report s s.te s.ts

theorem TakeWork.trans (h : TakeWork s t) (g : TakeWork t u) : TakeWork s u := by
  have hsc : t.sc = s.sc := by rw [h.eq]
  exact ⟨g.eq.trans (by rw [h.eq]), fun ch => (g.p ch).trans (h.p ch), fun ch => (g.v ch).trans (h.v ch),
    fun ch => (g.off ch).trans (h.off ch), fun hs => (g.stopped (by rwa [hsc])).trans (h.stopped hs)⟩

theorem TakeWork.chans {f : Chan → State → State} (h : ∀ ch s, TakeWork s (f ch s)) (chans : List Chan) (s : State) :
    TakeWork s (forChans f chans s) :=
  forChans_induct (TakeWork s) f chans s (fun ch t ht => ht.trans (h ch t)) (.refl s)

theorem acceptMode_on (r : ModeRequest) (m : Motion) : (acceptMode r m).mode ≠ .off := by
  cases r <;> simp [acceptMode]

/-- No request is accepted in OFF (R22). -/
theorem refusal_off {r : ModeRequest} (h : refusal r ch s = none) : (s.mo.get ch).mode ≠ .off := by
  obtain ⟨-, haccepted, -⟩ := refusal_none r ch s h
  intro hoff
  rw [hoff] at haccepted
  cases r <;> simp [acceptedFrom] at haccepted

theorem TakeWork.ask (r : ModeRequest) (ch : Chan) (s : State) : TakeWork s (ask r ch s) := by
  obtain ⟨h, -⟩ | ⟨h, hnone⟩ := ask_cases r ch s <;> rw [h]
  · exact .refl s
  · obtain ⟨hrun, -, -⟩ := refusal_none r ch s hnone
    obtain ⟨hp, hv, -, -⟩ := acceptMode_keeps r (s.mo.get ch)
    have hget : ∀ c, c ≠ ch → (modMo ch (acceptMode r) s).mo.get c = s.mo.get c := fun c hc => modMo_get_ne _ _ _ _ hc
    have hown : (modMo ch (acceptMode r) s).mo.get ch = acceptMode r (s.mo.get ch) := modMo_get _ _ _
    refine ⟨rfl, fun c => ?_, fun c => ?_, fun c => ?_, fun hstop => absurd hrun hstop⟩
    all_goals
      by_cases hc : c = ch
      · subst hc; rw [hown]; first | exact hp | exact hv | exact iff_of_false (acceptMode_on _ _) (refusal_off hnone)
      · rw [hget c hc]

theorem TakeWork.requestAll (r : ModeRequest) (chans : List Chan) (s : State) : TakeWork s (requestAll r chans s).2 := by
  induction chans generalizing s with
  | nil => exact .refl s
  | cons ch rest ih => exact (TakeWork.ask r ch s).trans (ih _)

theorem TakeWork.hold (chans : List Chan) (s : State) : TakeWork s (holdAtSetpoint chans s) :=
  .chans (fun ch t => .ask _ ch t) chans s

theorem TakeWork.live (s : State) : TakeWork s (liveRequests s) :=
  .chans (fun ch t => by
    show TakeWork t (if (chanCfg t ch).bindKind = .none then t else Machine.ask .live ch t)
    split
    · exact .refl t
    · exact .ask _ ch t) (axisChans s) s

theorem TakeWork.endPhase (h : TakeWork s t) (result : TakeResult) (fault : TakeFault) : TakeWork s (endPhase result fault t) :=
  h.trans (.report t (Machine.endPhase result fault t).te t.ts)

theorem TakeWork.endDone (h : TakeWork s t) (fault : TakeFault) : TakeWork s (endDone fault t) := by
  simp only [Machine.endDone]
  split
  · exact (h.endPhase _ _).trans (.live _)
  · exact h.endPhase _ _

theorem TakeWork.lose (fault : TakeFault) (s : State) : TakeWork s (loseTake fault s) := by
  unfold loseTake
  split
  · exact (TakeWork.refl s).endPhase _ _
  · exact TakeWork.endPhase (.report s s.te _) _ _
  · exact (TakeWork.hold _ s).endPhase _ _
  · exact (TakeWork.hold _ s).endPhase _ _
  all_goals exact .refl s

theorem TakeWork.lock (new : Lock) (s : State) : TakeWork s (lockNotice new s) := by
  obtain ⟨hn, -⟩ | hn | ⟨hn, -⟩ := lockNotice_cases new s <;> rw [hn]
  · exact .lose _ s
  · exact .refl s
  · exact .report s _ s.ts

theorem TakeWork.startPlay (s : State) : TakeWork s (startPlay s) := by
  have hall : TakeWork s (Machine.requestAll .play (axisChans s) s).2 := .requestAll _ _ s
  unfold Machine.startPlay
  split
  · next heq =>
    rw [heq] at hall
    exact (hall.trans (.hold _ _)).endPhase _ _
  · next s₁ heq =>
    rw [heq] at hall
    exact hall.trans (.report s₁ _ s₁.ts)

theorem TakeWork.appendFrame (s : State) : TakeWork s (appendFrame s) := by
  unfold Machine.appendFrame
  split
  · exact .report s _ _
  · exact TakeWork.endDone (.report s _ _) _
  · exact .report s s.te _

theorem TakeWork.advancePlay (s : State) : TakeWork s (advancePlay s) := by
  simp only [Machine.advancePlay]
  split
  · exact ((TakeWork.report s { s.te with tau := (s.te.playLen - 1) * 65536 } s.ts).trans
      (.chans (fun ch t => .ask _ ch t) _ _)).endDone _
  · exact .report s _ s.ts

theorem TakeWork.frame (s : State) : TakeWork s (takeFrameEvent s) := by
  unfold takeFrameEvent
  split
  · split
    · unfold startRecording
      split
      · exact .report s _ _
      · exact (TakeWork.refl s).endPhase _ _
    · exact .refl s
  · exact .appendFrame s
  · split
    · exact .startPlay s
    · exact .refl s
  · exact .advancePlay s
  all_goals exact .refl s

/-! ## What the other tasks leave of an event with nothing confirmed and no release pending -/

/-- What the tasks other than the ageing change then: the take engine's part, the STATE frame, and the duplicate window with the report. -/
structure OtherWork (s t : State) : Prop where
  eq : t = { s with te := t.te, ts := t.ts, mo := t.mo, tk := t.tk, sc := { s.sc with dupWindow := t.sc.dupWindow } }
  stopSlot : t.tk.stopSlot = s.tk.stopSlot
  p : ∀ ch, (t.mo.get ch).p = (s.mo.get ch).p
  v : ∀ ch, (t.mo.get ch).v = (s.mo.get ch).v
  off : ∀ ch, (t.mo.get ch).mode = .off ↔ (s.mo.get ch).mode = .off
  stopped : s.sc.state ≠ .run → t.mo = s.mo
  rests : workingPhase s.te.phase = false → workingPhase t.te.phase = false

theorem restsAtFrames_of_not_working (h : workingPhase s.te.phase = false) : restsAtFrames s.te.phase := by
  cases hp : s.te.phase <;> simp_all [workingPhase, restsAtFrames]

theorem TakeWork.other (h : TakeWork s t) (hrests : restsAtFrames s.te.phase → t = s) : OtherWork s t := by
  refine ⟨by rw [h.eq], by rw [h.eq], h.p, h.v, h.off, h.stopped, fun hs => ?_⟩
  rwa [hrests (restsAtFrames_of_not_working hs)]

theorem otherTasks_work {old new : Lock} {stamp : Word} {f : State → State} (hf : f ∈ buildState stamp :: otherTasks old new)
    (hconfirmed : s.pt.confirmed = none) (hrelease : s.sc.pendingRelease = false) : OtherWork s (f s) := by
  have hbeside : Beside s s := .refl hconfirmed hrelease
  rcases List.mem_cons.mp hf with rfl | hf
  · exact ⟨rfl, rfl, fun _ => rfl, fun _ => rfl, fun _ => Iff.rfl, fun _ => rfl, id⟩
  · rcases mem_otherTasks hf with rfl | rfl | rfl | rfl
    · rw [hbeside.handConfirmed]
      exact (TakeWork.refl s).other fun _ => rfl
    · rw [hbeside.stopPart_eq]
      exact ⟨rfl, rfl, fun _ => rfl, fun _ => rfl, fun _ => Iff.rfl, fun _ => rfl, id⟩
    · exact (TakeWork.frame s).other takeFrameEvent_rests
    · exact (TakeWork.lock new s).other (lockNotice_rests new)

/-- The station as the event hands it over, with only other tasks taken before the ageing. -/
structure Unheard (s t : State) : Prop where
  cfg : t.cfg = s.cfg
  su : t.su = s.su
  ft : t.ft = s.ft
  peers : t.pt.peers = s.pt.peers
  confirmed : t.pt.confirmed = none
  sc : t.sc = { s.sc with dupWindow := t.sc.dupWindow }
  p : ∀ ch, (t.mo.get ch).p = (s.mo.get ch).p
  v : ∀ ch, (t.mo.get ch).v = (s.mo.get ch).v
  off : ∀ ch, (t.mo.get ch).mode = .off ↔ (s.mo.get ch).mode = .off

theorem Unheard.refl (hconfirmed : s.pt.confirmed = none) : Unheard s s :=
  ⟨rfl, rfl, rfl, rfl, hconfirmed, rfl, fun _ => rfl, fun _ => rfl, fun _ => Iff.rfl⟩

theorem Unheard.other (h : Unheard s t) (g : OtherWork t u) : Unheard s u := by
  have hsc : u.sc = { t.sc with dupWindow := u.sc.dupWindow } := congrArg State.sc g.eq
  exact ⟨(congrArg State.cfg g.eq).trans h.cfg, (congrArg State.su g.eq).trans h.su, (congrArg State.ft g.eq).trans h.ft,
    (congrArg (fun x : State => x.pt.peers) g.eq).trans h.peers, (congrArg (fun x : State => x.pt.confirmed) g.eq).trans h.confirmed,
    hsc.trans (by rw [h.sc]), fun ch => (g.p ch).trans (h.p ch), fun ch => (g.v ch).trans (h.v ch),
    fun ch => (g.off ch).trans (h.off ch)⟩

theorem Unheard.silent (h : Unheard s t) : silentPeers (agePeers t) = silentPeers (agePeers s) :=
  silentPeers_aged h.peers h.cfg h.su

theorem Unheard.allAtRest (h : Unheard s t) : Machine.allAtRest t = Machine.allAtRest s :=
  allAtRest_congr (fun k => by unfold isAxis chanCfg; rw [h.cfg]) h.off h.v

/-! ## Silent peers (R95, R120, R121) -/

/-- PEER_SILENT for each station of a list, in its order. -/
def raiseAll (silent : List Nat) (s : State) : State :=
  silent.foldl (fun t n => raiseCause .peerSilent (BitVec.ofNat 8 n) 0 0 t) s

theorem ageFrameEvent_raises (s : State) : ageFrameEvent s = raiseAll (silentPeers (agePeers s)) (agePeers s) := rfl

theorem raiseAll_stands (silent : List Nat) : Stands (raiseAll silent) :=
  fun s => Stands.foldl (fun n t => raiseCause_stands _ (BitVec.ofNat 8 n) _ _ t) silent s

/-- In STOPPING, BRAKING and HALTED the cause is recorded and no more. -/
theorem raiseSilent_recorded (n : Nat) (h : underWay s.sc.state = false) :
    raiseCause .peerSilent (BitVec.ofNat 8 n) 0 0 s = recordCause .peerSilent (BitVec.ofNat 8 n) 0 0 s := by
  cases hs : s.sc.state <;> simp_all [raiseCause, actOnCause, underWay, isCut]

theorem raiseAll_recorded (silent : List Nat) (h : underWay s.sc.state = false) :
    raiseAll silent s =
      { s with sc := { s.sc with last := (raiseAll silent s).sc.last, causes := (raiseAll silent s).sc.causes } } := by
  induction silent generalizing s with
  | nil => rfl
  | cons n rest ih =>
    have hcons : raiseAll (n :: rest) s = raiseAll rest (recordCause .peerSilent (BitVec.ofNat 8 n) 0 0 s) := by
      rw [← raiseSilent_recorded n h]; rfl
    rw [hcons, ih (s := recordCause .peerSilent (BitVec.ofNat 8 n) 0 0 s) h]
    simp [recordCause, h]

theorem raiseAll_causes (silent : List Nat) (h : s.sc.causes ≤ 255) :
    (raiseAll silent s).sc.causes = min 255 (s.sc.causes + silent.length) := by
  induction silent generalizing s with
  | nil => exact (Nat.min_eq_right h).symm
  | cons n rest ih =>
    obtain ⟨-, -, hcauses⟩ := raiseCause_records .peerSilent (BitVec.ofNat 8 n) 0 0 s
    have hle : (raiseCause .peerSilent (BitVec.ofNat 8 n) 0 0 s).sc.causes ≤ 255 := by
      rw [hcauses]; unfold satIncr; split <;> omega
    refine (ih hle).trans ?_
    rw [hcauses, List.length_cons]
    unfold satIncr
    split <;> omega

/-- The last record names the last station raised (R120). -/
theorem raiseAll_last {silent : List Nat} {high : Nat} (h : silent.getLast? = some high) :
    ((raiseAll silent s).sc.last.map fun r => (r.kind, r.origin, r.channel, r.zone, r.frame))
      = some (.peerSilent, BitVec.ofNat 8 high, 0, 0, s.ft.count) := by
  obtain ⟨init, rfl⟩ := List.getLast?_eq_some_iff.mp h
  have happend : raiseAll (init ++ [high]) s = raiseCause .peerSilent (BitVec.ofNat 8 high) 0 0 (raiseAll init s) :=
    List.foldl_append
  obtain ⟨hlast, -, -⟩ := raiseCause_records .peerSilent (BitVec.ofNat 8 high) 0 0 (raiseAll init s)
  have hft : (raiseAll init s).ft = s.ft := congrArg Standing.ft (raiseAll_stands init s)
  rw [happend, hlast, hft]
  rfl

/-- Entry into STOPPING: BRAKING follows at once when every channel is at rest (R122). -/
theorem enterStopping_state (s : State) : (enterStopping s).sc.state = if allAtRest s then .braking else .stopping := by
  let s₁ := setStop .stopping (some (after s.clock (s.cfg.stopTimeout * 1000))) none none s
  let s₂ := stopNotice s.sc.state .stopping (forChans requestStopping (axisChans s₁) s₁)
  have hstops := stopAll (axisChans s₁) (axisChans_nodup s₁) s₁
  have hmo : s₂.mo = (forChans requestStopping (axisChans s₁) s₁).mo := stopNotice_mo _ _ _ (by decide)
  have hstopping : s₂.sc.state = .stopping := by rw [(stopNotice_sc _ _ _).1, hstops.1.sc]; rfl
  have hcfg : s₂.cfg = s.cfg := (stopNotice_same _ _ _).cfg.trans hstops.1.cfg
  have hrest : allAtRest s₂ = allAtRest s := by
    refine allAtRest_congr (fun k => by unfold isAxis chanCfg; rw [hcfg]) (fun k => ?_) fun k => ?_
    all_goals
      rw [hmo, hstops.2 k]
      split
      · rw [requestStopping, modMo_get]
        split
        · rfl
        · next hoff => first | rfl | exact iff_of_false (fun h => nomatch h) hoff
      · rfl
  have henter : enterStopping s = if allAtRest s₂ then enterBraking s₂ else s₂ := rfl
  rw [henter, hrest]
  split
  · rw [enterBraking_stopping hstopping]
  · exact hstopping

/-- A RAMP cause of this station met in RUN or RELEASING (R121, R122, R127, R167). -/
theorem raiseSilent_underWay (n : Nat) (h : underWay s.sc.state = true) :
    let t := raiseCause .peerSilent (BitVec.ofNat 8 n) 0 0 s
    t.sc.state = (if allAtRest s then .braking else .stopping)
      ∧ (s.sc.state = .run → workingPhase t.te.phase = false)
      ∧ ∀ ch, isAxis s ch = true → (s.mo.get ch).mode ≠ .off →
          (t.mo.get ch).mode = .hold ∧ (t.mo.get ch).hold = floorDiv (s.mo.get ch).p 256 := by
  let s₁ := makeStopBody .peerSilent (BitVec.ofNat 8 n) 0 0 (recordCause .peerSilent (BitVec.ofNat 8 n) 0 0 s)
  have hact : raiseCause .peerSilent (BitVec.ofNat 8 n) 0 0 s = enterStopping s₁ := by
    show actOnCause (isCut .peerSilent) (if _ && underWay s.sc.state then s₁ else _) = _
    rw [h]
    cases hs : s.sc.state <;> simp_all [actOnCause, underWay, isCut, s₁, makeStopBody, offerStop, recordCause]
  intro t
  have ht : t = enterStopping s₁ := hact
  rw [ht]
  refine ⟨enterStopping_state s₁, fun hrun => (enterStopping_fromRun (s := s₁) hrun).1, fun ch haxis hmode => ?_⟩
  have hmo := enterStopping_mo s₁ ch
  have hrecord : (requestStopping ch s₁).mo.get ch = heldRecord (s.mo.get ch) := (modMo_get _ _ _).trans (if_neg hmode)
  rw [if_pos (show isAxis s₁ ch = true from haxis), hrecord] at hmo
  rw [hmo]
  exact ⟨rfl, rfl⟩

/-- Silent peers met in RUN or RELEASING: the first stops the station and names itself, the others are recorded (R120, R121). -/
theorem raiseAll_underWay {silent : List Nat} {low : Nat} (hlow : silent.head? = some low) (h : underWay s.sc.state = true) :
    let t := raiseAll silent s
    t.sc.first = some
        { kind := .peerSilent, origin := BitVec.ofNat 8 low, channel := 0, zone := 0, frame := s.ft.count, met := s.sc.state }
      ∧ t.sc.state = (if allAtRest s then .braking else .stopping)
      ∧ (t.tk.stopSlot.map fun x => (x.body.kind, x.body.origin, x.repeats)) = some (.peerSilent, BitVec.ofNat 8 low, 3)
      ∧ (s.sc.state = .run → workingPhase t.te.phase = false)
      ∧ ∀ ch, isAxis s ch = true → (s.mo.get ch).mode ≠ .off →
          (t.mo.get ch).mode = .hold ∧ (t.mo.get ch).hold = floorDiv (s.mo.get ch).p 256 := by
  obtain ⟨rest, rfl⟩ := List.head?_eq_some_iff.mp hlow
  let s₁ := raiseCause .peerSilent (BitVec.ofNat 8 low) 0 0 s
  obtain ⟨-, hfirst, -⟩ := raiseCause_records .peerSilent (BitVec.ofNat 8 low) 0 0 s
  obtain ⟨-, hslot⟩ := raiseCause_underWay (kind := .peerSilent) (origin := BitVec.ofNat 8 low) (channel := 0) (zone := 0)
    (by decide) h
  obtain ⟨hstate, hphase, hmo⟩ := raiseSilent_underWay low h
  have hstopped : underWay s₁.sc.state = false := by
    show underWay (raiseCause .peerSilent (BitVec.ofNat 8 low) 0 0 s).sc.state = false
    rw [hstate]; split <;> rfl
  intro t
  have ht : t = { s₁ with sc := { s₁.sc with last := (raiseAll rest s₁).sc.last, causes := (raiseAll rest s₁).sc.causes } } :=
    raiseAll_recorded rest hstopped
  rw [ht]
  refine ⟨hfirst.trans (if_pos h), hstate, ?_, hphase, hmo⟩
  show (s₁.tk.stopSlot.map _) = _
  rw [show s₁.tk.stopSlot = _ from hslot]
  rfl

end Sys2Proof.Machine
end

section
/-! PROOFS. O31: the ageing of a frame event among the other blocks' work, and the expiry of the deadline (R60 to R63, R66, R93, R95, R121,
R130, R168). -/

namespace Sys2Proof.Machine

variable {s t u v w : State} {ch : Chan}

/-! ## The ageing among the other tasks -/

/-- The station after the ageing of an event handed over as `s`: the causes of `r`, the station right after the ageing, and with silent peers
its modes and its STOP slot too. -/
structure Silenced (s r t : State) : Prop where
  sc : t.sc = { r.sc with dupWindow := t.sc.dupWindow }
  stopSlot : t.tk.stopSlot = r.tk.stopSlot
  confirmed : t.pt.confirmed = none
  mo : silentPeers (agePeers s) ≠ [] → t.mo = r.mo
  phase : silentPeers (agePeers s) ≠ [] → s.sc.state = .run → workingPhase t.te.phase = false

/-- The station `v` right after its ageing. -/
def aged (s v : State) : State := raiseAll (silentPeers (agePeers s)) (agePeers v)

theorem Unheard.ages (h : Unheard s v) : ageFrameEvent v = aged s v := by
  rw [ageFrameEvent_raises, h.silent]; rfl

theorem Unheard.state (h : Unheard s v) : v.sc.state = s.sc.state := by rw [h.sc]

theorem Unheard.agedRest (h : Unheard s v) : Machine.allAtRest (agePeers v) = Machine.allAtRest s := h.allAtRest

/-- Silent peers leave no station in RUN. -/
theorem Unheard.aged_stopped (h : Unheard s v) (hsilent : silentPeers (agePeers s) ≠ []) : (aged s v).sc.state ≠ .run := by
  have hstate : (agePeers v).sc.state = s.sc.state := h.state
  by_cases hunder : underWay (agePeers v).sc.state = true
  · obtain ⟨low, hlow⟩ : ∃ low, (silentPeers (agePeers s)).head? = some low := by
      cases hl : silentPeers (agePeers s) with
      | nil => exact absurd hl hsilent
      | cons n rest => exact ⟨n, rfl⟩
    obtain ⟨-, hst, -⟩ := raiseAll_underWay hlow hunder
    show (raiseAll _ _).sc.state ≠ .run
    rw [hst]
    split <;> simp
  · have hnot := Bool.eq_false_iff.mpr hunder
    have hkeep : (aged s v).sc.state = (agePeers v).sc.state := by
      show (raiseAll _ _).sc.state = _
      rw [raiseAll_recorded _ hnot]
    rw [hkeep]
    exact fun hrun => hunder (by rw [hrun]; rfl)

theorem Unheard.aged_release (h : Unheard s v) (hrelease : s.sc.pendingRelease = false) : (aged s v).sc.pendingRelease = false := by
  have hkeep : (aged s v).sc.pendingRelease = (agePeers v).sc.pendingRelease :=
    congrArg Standing.pendingRelease (raiseAll_stands _ (agePeers v))
  rw [hkeep]
  show v.sc.pendingRelease = false
  rw [h.sc]; exact hrelease

theorem Unheard.silenced (h : Unheard s v) : Silenced s (aged s v) (ageFrameEvent v) := by
  rw [h.ages]
  refine ⟨rfl, rfl, ?_, fun _ => rfl, fun hsilent hrun => ?_⟩
  · exact (congrArg Standing.confirmed (raiseAll_stands _ (agePeers v))).trans h.confirmed
  · cases hl : silentPeers (agePeers s) with
    | nil => exact absurd hl hsilent
    | cons low rest =>
      have hstate : (agePeers v).sc.state = .run := h.state.trans hrun
      obtain ⟨-, -, -, hphase, -⟩ := raiseAll_underWay (silent := low :: rest) (low := low) (s := agePeers v) rfl (by rw [hstate]; rfl)
      unfold aged
      rw [hl]
      exact hphase hstate

theorem Silenced.other (h : Silenced s (aged s v) t) (hv : Unheard s v) (g : OtherWork t u) : Silenced s (aged s v) u := by
  have hsc : u.sc = { t.sc with dupWindow := u.sc.dupWindow } := congrArg State.sc g.eq
  refine ⟨hsc.trans (by rw [h.sc]), g.stopSlot.trans h.stopSlot,
    (congrArg (fun x : State => x.pt.confirmed) g.eq).trans h.confirmed, fun hsilent => ?_,
    fun hsilent hrun => g.rests (h.phase hsilent hrun)⟩
  refine (g.stopped ?_).trans (h.mo hsilent)
  rw [h.sc]
  exact hv.aged_stopped hsilent

/-- With nothing confirmed and no release pending, the ageing of a frame event alone decides its causes. -/
theorem frameTasks_silenced (stamp : Word) (old new : Lock) (hconfirmed : s.pt.confirmed = none)
    (hrelease : s.sc.pendingRelease = false) :
    ∃ v, Unheard s v ∧ Silenced s (aged s v) (inAnyOrder (frameTasks stamp old new) s) := by
  refine inAnyOrder_one (P := Unheard s) (Q := fun t => ∃ v, Unheard s v ∧ Silenced s (aged s v) t) (g := ageFrameEvent)
    (fun t ht => ⟨t, ht, ht.silenced⟩) (fun f hf => ⟨fun t ht => ?_, fun t ⟨v, hv, ht⟩ => ⟨v, hv, ?_⟩⟩)
    (List.Perm.swap ageFrameEvent (buildState stamp) _)
    fun o d => ⟨rfl, rfl, rfl, rfl, hconfirmed, rfl, fun _ => rfl, fun _ => rfl, fun _ => Iff.rfl⟩
  · exact ht.other (otherTasks_work hf ht.confirmed (by rw [ht.sc]; exact hrelease))
  · exact ht.other hv (otherTasks_work hf ht.confirmed (by rw [ht.sc]; exact hv.aged_release hrelease))

/-! ## The event as a whole -/

theorem completeBuild_keeps (s : State) :
    (completeBuild s).sc = s.sc ∧ (completeBuild s).te = s.te ∧ (completeBuild s).ts = s.ts ∧ (completeBuild s).mo = s.mo
      ∧ (completeBuild s).rf = s.rf ∧ (completeBuild s).pt = s.pt ∧ (completeBuild s).tk.stopSlot = s.tk.stopSlot := by
  rw [completeBuild_frame]; exact ⟨rfl, rfl, rfl, rfl, rfl, rfl, rfl⟩

section
variable (pulse : Bool) (stamp : Word) (next : FrameTimer → FrameTimer) (s : State)

/-- The duplicate window, the pending release and what the ageing empties, after the event (R93, R130, R131). -/
theorem frameEvent_windows :
    (frameEvent pulse stamp next s).sc.dupWindow = s.sc.dupWindow - 1
      ∧ (frameEvent pulse stamp next s).sc.pendingRelease = false
      ∧ (frameEvent pulse stamp next s).pt.earlier = (if deskFades s then none else s.pt.earlier)
      ∧ (frameEvent pulse stamp next s).pt.join = if deskFades s then none else s.pt.join := by
  obtain ⟨hsc, -, -, -, -, hpt, -⟩ := completeBuild_keeps (tasksDone pulse stamp next s)
  obtain ⟨hdup, hrelease⟩ := frameTasks_stopPart stamp s.ft.lock (next s.ft).lock (stamped pulse stamp next s)
  obtain ⟨hearlier, hjoin⟩ := frameTasks_fades stamp s.ft.lock (next s.ft).lock (stamped pulse stamp next s)
  rw [frameEvent_eq, hsc, hpt]
  exact ⟨hdup, hrelease, hearlier, hjoin⟩

/-- With nothing confirmed and no release pending, the ageing alone decides the causes of the event. -/
theorem frameEvent_silenced (hconfirmed : s.pt.confirmed = none) (hrelease : s.sc.pendingRelease = false) :
    ∃ v, Unheard (stamped pulse stamp next s) v
      ∧ Silenced (stamped pulse stamp next s) (aged (stamped pulse stamp next s) v) (frameEvent pulse stamp next s) := by
  obtain ⟨hsc, hte, -, hmo, -, hpt, hslot⟩ := completeBuild_keeps (tasksDone pulse stamp next s)
  obtain ⟨v, hv, h⟩ := frameTasks_silenced (s := stamped pulse stamp next s) stamp s.ft.lock (next s.ft).lock hconfirmed hrelease
  refine ⟨v, hv, ?_, ?_, ?_, fun hsilent => ?_, fun hsilent hrun => ?_⟩ <;> rw [frameEvent_eq]
  · rw [hsc]; exact h.sc
  · rw [hslot]; exact h.stopSlot
  · rw [hpt]; exact h.confirmed
  · rw [hmo]; exact h.mo hsilent
  · rw [hte]; exact h.phase hsilent hrun

/-- A frame event that loses the lock leaves no take work that waits for a frame (R168). -/
theorem frameEvent_lost (hold : s.ft.lock ≠ .free) (hnew : (next s.ft).lock = .free) :
    restsAtFrames (frameEvent pulse stamp next s).te.phase := by
  obtain ⟨-, hte, -⟩ := completeBuild_keeps (tasksDone pulse stamp next s)
  rw [frameEvent_eq, hte]
  unfold tasksDone
  rw [hnew]
  exact frameTasks_lost stamp hold hnew

end

/-! ## The expiry of the deadline -/

theorem expiryLock_keeps (f : FrameTimer) :
    (expiryLock f).count = f.count ∧ (expiryLock f).period = f.period ∧ (expiryLock f).glitches = f.glitches := by
  unfold expiryLock
  split
  · exact ⟨rfl, rfl, rfl⟩
  · exact ⟨rfl, rfl, rfl⟩
  · exact ⟨rfl, rfl, rfl⟩
  · split <;> exact ⟨rfl, rfl, rfl⟩

/-- The lock table at a synthetic event (R60 to R63). -/
theorem expiryLock_table (f : FrameTimer) :
    let g := expiryLock f
    (f.lock = .free → g.lock = .free)
    ∧ (f.lock = .locking → g.lock = .free ∧ g.lockCount = 0)
    ∧ (f.lock = .locked → g.lock = .holdover ∧ g.holdCount = 1)
    ∧ (f.lock = .holdover → f.holdCount ≠ 2 → g.lock = .holdover ∧ g.holdCount = f.holdCount + 1)
    ∧ (f.lock = .holdover → f.holdCount = 2 → g.lock = .free ∧ g.holdCount = 0) := by
  intro g
  refine ⟨fun h => ?_, fun h => ?_, fun h => ?_, fun h hcount => ?_, fun h hcount => ?_⟩
  · simp [g, expiryLock, h]
  · simp [g, expiryLock, h]
  · simp [g, expiryLock, h]
  · simp [g, expiryLock, h, hcount]
  · simp [g, expiryLock, h, hcount]

theorem deadlineAfter_eq (code : Nat) (lock : Lock) (stamp : Word) :
    deadlineAfter code lock stamp =
      after stamp (Config.nominalPeriod code + if lock = .free then 0 else Config.tolerance code) := by
  cases lock <;> rfl

theorem deskFades_iff (s : State) :
    deskFades s = true ↔ s.cfg.desk ≠ 0 ∧ (peerRecord s s.cfg.desk).freshness ≠ .absent ∧ (peerRecord s s.cfg.desk).age = 63 := by
  simp [deskFades, and_assoc]

/-- The causes of an event's ageing, read from the silent peers after it (R95, R120, R121). -/
theorem Silenced.causes (h : Silenced s (aged s v) t) (hv : Unheard s v) {low high : Nat}
    (hlow : (silentPeers (agePeers s)).head? = some low) (hhigh : (silentPeers (agePeers s)).getLast? = some high) :
    (s.sc.causes ≤ 255 → t.sc.causes = min 255 (s.sc.causes + (silentPeers (agePeers s)).length))
    ∧ (t.sc.last.map fun r => (r.kind, r.origin, r.channel, r.zone, r.frame))
        = some (.peerSilent, BitVec.ofNat 8 high, 0, 0, s.ft.count)
    ∧ (s.sc.state = .stopping ∨ s.sc.state = .braking ∨ s.sc.state = .halted →
        t.sc.state = s.sc.state ∧ t.sc.first = s.sc.first)
    ∧ (s.sc.state = .run → workingPhase t.te.phase = false)
    ∧ (s.sc.state = .run ∨ s.sc.state = .releasing →
        t.sc.first = some
          { kind := .peerSilent, origin := BitVec.ofNat 8 low, channel := 0, zone := 0, frame := s.ft.count, met := s.sc.state }
        ∧ t.sc.state = (if allAtRest s then .braking else .stopping)
        ∧ (t.tk.stopSlot.map fun x => (x.body.kind, x.body.origin, x.repeats)) = some (.peerSilent, BitVec.ofNat 8 low, 3)
        ∧ ∀ ch, isAxis s ch = true → (s.mo.get ch).mode ≠ .off →
            (t.mo.get ch).mode = .hold ∧ (t.mo.get ch).hold = floorDiv (s.mo.get ch).p 256) := by
  have hsilent : silentPeers (agePeers s) ≠ [] := fun hnil => by simp [hnil] at hlow
  have hstate : (agePeers v).sc.state = s.sc.state := hv.state
  have hft : (agePeers v).ft = s.ft := hv.ft
  refine ⟨fun hle => ?_, ?_, fun hstopped => ?_, h.phase hsilent, fun hunder => ?_⟩
  · have hcauses : v.sc.causes = s.sc.causes := by rw [hv.sc]
    rw [h.sc]
    show (raiseAll _ (agePeers v)).sc.causes = _
    rw [raiseAll_causes _ (by show v.sc.causes ≤ 255; rw [hcauses]; exact hle), show (agePeers v).sc.causes = _ from hcauses]
  · rw [h.sc]
    show ((raiseAll _ (agePeers v)).sc.last.map _) = _
    rw [raiseAll_last hhigh, hft]
  · have hnot : underWay (agePeers v).sc.state = false := by
      rw [hstate]; rcases hstopped with h | h | h <;> rw [h] <;> rfl
    have hfirst : v.sc.first = s.sc.first := by rw [hv.sc]
    rw [h.sc]
    show (raiseAll _ (agePeers v)).sc.state = _ ∧ (raiseAll _ (agePeers v)).sc.first = _
    rw [raiseAll_recorded _ hnot]
    exact ⟨hstate, hfirst⟩
  · have hunder' : underWay (agePeers v).sc.state = true := by
      rw [hstate]; rcases hunder with h | h <;> rw [h] <;> rfl
    obtain ⟨hfirst, hst, hslot, -, hmo⟩ := raiseAll_underWay hlow hunder'
    rw [hv.agedRest] at hst
    rw [hstate, hft] at hfirst
    rw [h.sc, h.stopSlot, h.mo hsilent]
    refine ⟨hfirst, hst, hslot, fun ch haxis hmode => ?_⟩
    obtain ⟨hhold, hpoint⟩ := hmo ch (by unfold isAxis chanCfg at haxis ⊢; rwa [show (agePeers v).cfg = s.cfg from hv.cfg])
      (fun hoff => hmode ((hv.off ch).mp hoff))
    exact ⟨hhold, hpoint.trans (by rw [show ((agePeers v).mo.get ch).p = _ from hv.p ch])⟩

theorem exec_frameDeadlineExpiry {time : Word} (h : s.ft.deadline = some time) :
    ∃ clock, exec .frameDeadlineExpiry s = .next (frameEvent false time expiryLock { s with clock := clock }) := by
  refine ⟨if reached s.clock time then s.clock else time, ?_⟩
  rw [← advanceTo_eq]
  show execFrameDeadlineExpiry s = _
  simp [execFrameDeadlineExpiry, h]

/-- Settles O31: the event's tasks in their free order leave the lock table's line, the ages and the causes of the silent peers, whichever
comes first. -/
theorem deadlineExpiry : Obligations.DeadlineExpiry := by
  intro time s hdeadline
  obtain ⟨clock, hexec⟩ := exec_frameDeadlineExpiry hdeadline
  refine ⟨_, hexec, ?_⟩
  let s₁ : State := { s with clock := clock }
  let u := stamped false time expiryLock s₁
  obtain ⟨w, report, hdone, -⟩ := frameEvent_done false time expiryLock s₁
  obtain ⟨hdup, hrelease, hearlier, hjoin⟩ := frameEvent_windows false time expiryLock s₁
  have hsilenced := frameEvent_silenced false time expiryLock s₁
  have hlost := frameEvent_lost false time expiryLock s₁
  generalize frameEvent false time expiryLock s₁ = t at *
  obtain ⟨hfixed, hpeers, -⟩ := hdone
  have hft : t.ft = u.ft := congrArg Standing.ft hfixed
  have hcfg : t.cfg = s.cfg := congrArg Standing.cfg hfixed
  obtain ⟨hcount, hperiod, hglitches⟩ := expiryLock_keeps s.ft
  obtain ⟨hfree, hlocking, hlocked, hholdover, hthird⟩ := expiryLock_table s.ft
  have hrise : u.ft.count = s.ft.count + 1 := congrArg (· + 1) hcount
  have hsilent : (peerNumbers.filter fun n => requiredPeer s n && (peerRecord t n).freshness ≠ .fresh) = silentPeers (agePeers u) := by
    refine List.filter_congr fun n _ => ?_
    have hrecord : peerRecord t n = peerRecord (agePeers u) n := by
      unfold peerRecord; rw [hpeers]; rfl
    rw [hrecord]; rfl
  rw [hft]
  refine ⟨hrise, rfl, rfl, hperiod, hglitches, hfree, hlocking, hlocked, hholdover, hthird,
    congrArg some (deadlineAfter_eq _ _ _), fun n _ => ?_, hdup, hrelease, hcfg, congrArg Standing.zm hfixed,
    ⟨fun hfades => ?_, fun hnot => ?_, congrArg Standing.adopted hfixed⟩, ?_, fun hold hnew => hlost hold hnew⟩
  · have hrecord : peerRecord t n = ageRecord s.cfg.peerTimeout (peerRecord s n) := peerRecord_aged (s := u) hpeers n
    rw [hrecord]
    exact ageRecord_spec _ _
  · have hfade : deskFades s₁ = true := (deskFades_iff s₁).mpr hfades
    rw [hearlier, hjoin, hfade]
    exact ⟨rfl, rfl⟩
  · have hfade : deskFades s₁ = false := Bool.eq_false_iff.mpr fun h => hnot ((deskFades_iff s₁).mp h)
    rw [hearlier, hjoin, hfade]
    exact ⟨rfl, rfl⟩
  · rw [hsilent]
    intro silent hnone hpending
    obtain ⟨v, hv, hcauses⟩ := hsilenced hnone hpending
    refine ⟨fun hnil => ?_, fun low high hlow hhigh => ?_⟩
    · have hraised : aged u v = agePeers v := by
        show raiseAll (silentPeers (agePeers u)) (agePeers v) = _
        rw [show silentPeers (agePeers u) = [] from hnil]; rfl
      rw [hcauses.sc, hdup, hraised, show (agePeers v).sc = _ from hv.sc]
      rfl
    · rw [← hrise]
      exact hcauses.causes hv hlow hhigh

end Sys2Proof.Machine
end

section
/-! PROOFS. O50, the take store: what a written frame leaves in the slots, and what create and append give by the conditions they meet (R135,
R138 to R141). -/

namespace Sys2Proof.Machine

variable {s : State} {ts : Store} {e : Entry}

/-! ## Samples in consecutive slots (R135, R138) -/

/-- The slots before and after a written frame stay as they were. -/
theorem slotRead_writeSamples_outside (m : List (Nat × Word)) {a b : Nat} {ws : List Word} (h : b < a ∨ a + ws.length ≤ b) :
    slotRead (writeSamples m a ws) b = slotRead m b := by
  induction ws generalizing m a with
  | nil => rfl
  | cons x xs ih =>
    rw [List.length_cons] at h
    exact (ih (a := a + 1) _ (by omega)).trans (slotRead_slotWrite_ne m a b x (by omega))

/-- Each sample of a written frame is read back from its slot. -/
theorem slotRead_writeSamples (m : List (Nat × Word)) {a : Nat} {ws : List Word} {j : Nat} {w : Word}
    (hfits : a + ws.length ≤ 65536) (hwf : Memory.wf m = true) (hw : ws[j]? = some w) :
    slotRead (writeSamples m a ws) (a + j) = w := by
  induction ws generalizing m a j with
  | nil => simp at hw
  | cons x xs ih =>
    rw [List.length_cons] at hfits
    cases j with
    | zero =>
      obtain rfl : x = w := by simpa using hw
      exact (slotRead_writeSamples_outside _ (.inl (Nat.lt_succ_self a))).trans (slotRead_slotWrite_same m 0 a x hwf)
    | succ j =>
      have hnext := ih (a := a + 1) (slotWrite m a x) (by omega) (slotWrite_wf m a x (by omega) hwf) (by simpa using hw)
      rwa [show a + 1 + j = a + (j + 1) by omega] at hnext

theorem maskChans_length (m : PerChan Bool) : (maskChans m).length = maskCount m := by
  obtain ⟨a, b, c⟩ := m
  revert a b c; decide

@[simp] theorem frameSamples_length (mask kinds : PerChan Bool) (s : State) :
    (frameSamples mask kinds s).length = maskCount mask := by
  rw [frameSamples, List.length_map, maskChans_length]

theorem maskCount_le (m : PerChan Bool) : maskCount m ≤ 3 := by
  obtain ⟨a, b, c⟩ := m
  revert a b c; decide

/-- A page of a list of existing pages, or page 0 beyond it, exists (R135). -/
theorem getD_page_lt {pages : List Nat} (h : ∀ p ∈ pages, p < 128) (i : Nat) : pages.getD i 0 < 128 := by
  rw [List.getD_eq_getElem?_getD]
  cases hp : pages[i]? with
  | none => simp
  | some p => exact h p (List.mem_of_getElem? hp)

/-! ## Create (R140) -/

theorem recordings_eq_zero (dir : List Entry) : recordings dir = 0 ↔ recordingEntry dir = none := by
  simp [recordings, recordingEntry, List.filter_eq_nil_iff, List.find?_eq_none]

/-- What create needs beside a free page. -/
structure HasRoom (dir : List Entry) (take : Nat) : Prop where
  recording : recordingEntry dir = none
  missing : lookupTake dir take = none
  entries : dir.length < 16

theorem hasRoom_iff (dir : List Entry) (take : Nat) :
    HasRoom dir take ↔ recordings dir = 0 ∧ lookupTake dir take = none ∧ dir.length < 16 := by
  rw [recordings_eq_zero]
  exact ⟨fun ⟨h₁, h₂, h₃⟩ => ⟨h₁, h₂, h₃⟩, fun ⟨h₁, h₂, h₃⟩ => ⟨h₁, h₂, h₃⟩⟩

/-- With room create asks for a page alone. -/
theorem storeCreate_room {take : Nat} (mask kinds : PerChan Bool) (rate : Nat) (samples : List Word) (h : HasRoom ts.dir take) :
    storeCreate take mask kinds rate samples ts =
      match ts.free with
      | [] => (.storeFull, ts)
      | page :: rest =>
        (.none,
          { ts with
            free := rest
            slots := writeSamples ts.slots (memorySlot page 0) samples
            dir := ts.dir ++
              [{ take := take, status := .recording, protect := false, mask := mask, normalized := kinds, rate := rate, length := 1
                 pages := [page], crc := samples.foldl crc32Sample crc32Start }] }) := by
  obtain ⟨hrecording, hmissing, hentries⟩ := h
  simp [storeCreate, hrecording, hmissing, Nat.not_le.mpr hentries] <;> rfl

/-- Without room or without a page create answers why, in the order of R140. -/
theorem storeCreate_refused {take : Nat} (mask kinds : PerChan Bool) (rate : Nat) (samples : List Word)
    (h : ¬HasRoom ts.dir take ∨ ts.free = []) :
    ∃ fault, storeCreate take mask kinds rate samples ts = (fault, ts)
      ∧ (fault = .busy ∨ fault = .takeExists ∨ fault = .dirFull ∨ fault = .storeFull)
      ∧ (HasRoom ts.dir take → fault = .storeFull) := by
  by_cases hroom : HasRoom ts.dir take
  · refine ⟨.storeFull, ?_, by simp, fun _ => rfl⟩
    rw [storeCreate_room _ _ _ _ hroom, h.resolve_left (not_not.mpr hroom)]
  · unfold storeCreate
    split
    · exact ⟨_, rfl, by simp, fun h => absurd h hroom⟩
    · next hrecording =>
      split
      · exact ⟨_, rfl, by simp, fun h => absurd h hroom⟩
      · next hmissing =>
        split
        · exact ⟨_, rfl, by simp, fun h => absurd h hroom⟩
        · next hentries =>
          exact absurd ⟨by simpa using hrecording, by simpa using hmissing, Nat.not_le.mp hentries⟩ hroom

/-! ## Append (R141) -/

/-- The frame to come begins a page. -/
def beginsPage (e : Entry) : Prop := e.length % framesPerPage (maskCount e.mask) = 0

/-- The store has no room for another frame of an entry. -/
def fullFor (e : Entry) (ts : Store) : Prop := e.length = 65535 ∨ (beginsPage e ∧ ts.free = [])

theorem storeAppend_full {samples : List Word} (hentry : recordingEntry ts.dir = some e) (h : fullFor e ts) :
    storeAppend samples ts = storeFull e ts := by
  rcases h with h | ⟨hbegins, hfree⟩
  · simp [storeAppend, hentry, h]
  · have hbegins' : e.length % framesPerPage (maskCount e.mask) = 0 := hbegins
    simp [storeAppend, hentry, hbegins', hfree]

/-- The page list and the free-page list with the page that a frame beginning a page takes (R138, R141). -/
def pagesFor (e : Entry) (ts : Store) : List Nat :=
  if e.length % framesPerPage (maskCount e.mask) = 0 then e.pages ++ ts.free.take 1 else e.pages

def freeAfter (e : Entry) (ts : Store) : List Nat :=
  if e.length % framesPerPage (maskCount e.mask) = 0 then ts.free.drop 1 else ts.free

theorem storeAppend_next {samples : List Word} (hentry : recordingEntry ts.dir = some e) (h : ¬fullFor e ts) :
    storeAppend samples ts = (.none, writeFrame e (pagesFor e ts) samples { ts with free := freeAfter e ts }) := by
  obtain ⟨hlength, hpage⟩ := not_or.mp h
  by_cases hbegins : e.length % framesPerPage (maskCount e.mask) = 0
  · cases hfree : ts.free with
    | nil => exact absurd ⟨hbegins, hfree⟩ hpage
    | cons page rest => simp [storeAppend, hentry, hlength, hbegins, hfree, pagesFor, freeAfter]
  · simp [storeAppend, hentry, hlength, hbegins, pagesFor, freeAfter]

/-- The entry being recorded after its frame is written (R141). -/
def appended (e : Entry) (pages : List Nat) (samples : List Word) : Entry → Entry := fun x =>
  { x with pages := pages, length := e.length + 1, crc := samples.foldl crc32Sample e.crc }

/-- The entry being recorded stays the one, its length risen by one. -/
theorem recordingEntry_appended {pages : List Nat} {samples : List Word} (hentry : recordingEntry ts.dir = some e) :
    recordingEntry (writeFrame e pages samples ts).dir = some (appended e pages samples e) := by
  show (ts.dir.map fun x => if x.take = e.take then appended e pages samples x else x).find? _ = _
  rw [List.find?_map]
  have hstatus : ((fun x : Entry => decide (x.status = .recording)) ∘
      fun x => if x.take = e.take then appended e pages samples x else x) = fun x => decide (x.status = .recording) := by
    funext x
    simp only [Function.comp_apply]
    split <;> rfl
  rw [hstatus, show ts.dir.find? (fun x => decide (x.status = .recording)) = some e from hentry]
  simp

end Sys2Proof.Machine
end

section
/-! PROOFS. O50: what a frame event does in the take engine by the phase it meets (R139 to R143, R153, R154, R160, R161, R166). -/

namespace Sys2Proof.Machine

variable {s t : State} {ch : Chan}

/-! ## By the phase -/

theorem takeFrameEvent_armed (h : s.te.phase = .armedRec) :
    takeFrameEvent s = if s.te.start = some s.ft.count then startRecording s else s := by
  simp [takeFrameEvent, h]

theorem takeFrameEvent_recording (h : s.te.phase = .recording) : takeFrameEvent s = appendFrame s := by
  simp [takeFrameEvent, h]

theorem takeFrameEvent_cued (h : s.te.phase = .cued) :
    takeFrameEvent s = if s.te.start = some s.ft.count then startPlay s else s := by
  simp [takeFrameEvent, h]

theorem takeFrameEvent_playing (h : s.te.phase = .playing) : takeFrameEvent s = advancePlay s := by
  simp [takeFrameEvent, h]

/-! ## The start of a recording (R153) -/

theorem startRecording_refused (h : ¬HasRoom s.ts.dir s.te.take ∨ s.ts.free = []) :
    ∃ fault, startRecording s = endPhase .refused fault s
      ∧ (fault = .busy ∨ fault = .takeExists ∨ fault = .dirFull ∨ fault = .storeFull)
      ∧ (HasRoom s.ts.dir s.te.take → fault = .storeFull) := by
  obtain ⟨fault, hcreate, hcases, hfull⟩ := storeCreate_refused (axisMask s) (axisKinds s) s.cfg.frameRate
    (frameSamples (axisMask s) (axisKinds s) s) h
  refine ⟨fault, ?_, hcases, hfull⟩
  unfold startRecording
  rw [hcreate]
  rcases hcases with rfl | rfl | rfl | rfl <;> rfl

/-- The store with the entry that a recording begins. -/
def createdStore (page : Nat) (rest : List Nat) (s : State) : Store :=
  { s.ts with
    free := rest
    slots := writeSamples s.ts.slots (memorySlot page 0) (frameSamples (axisMask s) (axisKinds s) s)
    dir := s.ts.dir ++
      [{ take := s.te.take, status := .recording, protect := false, mask := axisMask s, normalized := axisKinds s
         rate := s.cfg.frameRate, length := 1, pages := [page]
         crc := (frameSamples (axisMask s) (axisKinds s) s).foldl crc32Sample crc32Start }] }

theorem startRecording_creates {page : Nat} {rest : List Nat} (hroom : HasRoom s.ts.dir s.te.take) (hfree : s.ts.free = page :: rest) :
    startRecording s =
      { s with ts := createdStore page rest s, te := { s.te with phase := .recording, length := 1, start := none } } := by
  unfold startRecording
  rw [storeCreate_room _ _ _ _ hroom, hfree]
  rfl

/-- The samples of a frame in its slots, and every other slot as it was. -/
theorem writeSamples_slots {m : List (Nat × Word)} {base k : Nat} {samples : List Word} (hwf : Memory.wf m = true)
    (hlength : samples.length = k) (hfits : base + k ≤ 65536) :
    (∀ (j : Nat) (w : Word), samples[j]? = some w → slotRead (writeSamples m base samples) (base + j) = w)
    ∧ ∀ a, a < base ∨ base + k ≤ a → slotRead (writeSamples m base samples) a = slotRead m a := by
  refine ⟨fun j w hw => slotRead_writeSamples m ?_ hwf hw, fun a ha => slotRead_writeSamples_outside m ?_⟩
  · rwa [hlength]
  · rwa [hlength]

theorem memorySlot_first (page : Nat) : memorySlot page 0 = page * 512 := Nat.add_zero _

/-! ## A frame recorded (R154) -/

theorem appendFrame_full {e : Entry} (hentry : recordingEntry s.ts.dir = some e) (h : fullFor e s.ts) :
    appendFrame s = endDone .storeFull
      { s with
        ts := { s.ts with dir := changeTake e.take (fun x => { x with status := .complete }) s.ts.dir }
        te := { s.te with filledAt := some s.clock } } := by
  unfold appendFrame
  rw [storeAppend_full hentry h]
  rfl

theorem nextSamples_entry {e : Entry} (hentry : recordingEntry s.ts.dir = some e) :
    nextSamples s = frameSamples e.mask e.normalized s := by
  simp [nextSamples, hentry]

theorem appendFrame_next {e : Entry} (hentry : recordingEntry s.ts.dir = some e) (h : ¬fullFor e s.ts) :
    appendFrame s =
      { s with
        ts := writeFrame e (pagesFor e s.ts) (frameSamples e.mask e.normalized s) { s.ts with free := freeAfter e s.ts }
        te := { s.te with length := e.length + 1 } } := by
  unfold appendFrame
  rw [storeAppend_next hentry h, nextSamples_entry hentry]
  simp only [recordingLength]
  rw [recordingEntry_appended (ts := { s.ts with free := freeAfter e s.ts }) hentry]
  rfl

/-- The pages that a frame is written into exist. -/
theorem pagesFor_lt {e : Entry} {ts : Store} (hfree : ∀ p ∈ ts.free, p < 128) (hpages : ∀ p ∈ e.pages, p < 128) :
    ∀ p ∈ pagesFor e ts, p < 128 := by
  intro p hp
  unfold pagesFor at hp
  split at hp
  · rcases List.mem_append.mp hp with hp | hp
    · exact hpages p hp
    · exact hfree p (List.mem_of_mem_take hp)
  · exact hpages p hp

/-! ## A request on every channel (R22) -/

theorem requestAll_state (r : ModeRequest) (chans : List Chan) (s : State) : (requestAll r chans s).2 = forChans (ask r) chans s := by
  induction chans generalizing s with
  | nil => rfl
  | cons ch rest ih => exact ih _

/-- Each channel's request is answered as it stands alone. -/
theorem requestAll_accepted (r : ModeRequest) (chans : List Chan) (hnodup : chans.Nodup) (s : State) :
    (requestAll r chans s).1 = none ↔ ∀ ch ∈ chans, refusal r ch s = none := by
  induction chans generalizing s with
  | nil => simp [requestAll]
  | cons ch rest ih =>
    obtain ⟨hnot, hrest⟩ := List.nodup_cons.mp hnodup
    have hkeep : ∀ c ∈ rest, refusal r c (ask r ch s) = refusal r c s := fun c hc =>
      refusal_reads r c s _ (ask_reads r ch s) (ask_other r ch c s fun h => hnot (h ▸ hc))
    have hanswer : (requestAll r (ch :: rest) s).1 = (refusal r ch s).orElse fun _ => (requestAll r rest (ask r ch s)).1 := by
      obtain ⟨why, hwhy, hreq⟩ | ⟨hnone, hreq⟩ := request_cases r ch s
      · simp [requestAll, ask, hreq, hwhy]
      · simp [requestAll, ask, hreq, hnone]
    rw [hanswer, List.forall_mem_cons]
    cases hown : refusal r ch s with
    | some why => simp
    | none =>
      simp only [Option.orElse_none, true_and]
      rw [ih hrest]
      exact forall₂_congr fun c hc => by rw [hkeep c hc]

/-- Outside RUN every request is refused with BUSY (R22). -/
theorem requestAll_busy {r : ModeRequest} {chans : List Chan} {why : Refused} (hstop : s.sc.state ≠ .run)
    (h : (requestAll r chans s).1 = some why) : why = .busy := by
  cases chans with
  | nil => simp [requestAll] at h
  | cons ch rest =>
    have hown : refusal r ch s = some .busy := if_pos hstop
    simp [requestAll, request, hown] at h
    exact h.symm

theorem requestAll_frame (r : ModeRequest) (chans : List Chan) (s : State) :
    (requestAll r chans s).2 = { s with mo := (requestAll r chans s).2.mo } := by
  rw [requestAll_state]
  refine forChans_induct (fun t => t = { s with mo := t.mo }) _ chans s (fun ch t ht => ?_) rfl
  rw [ask_frame]
  generalize (ask r ch t).mo = mo
  rw [ht]

theorem requestAll_get (r : ModeRequest) (s : State) (ch : Chan) :
    (requestAll r (axisChans s) s).2.mo.get ch = if isAxis s ch = true then (ask r ch s).mo.get ch else s.mo.get ch := by
  have hall := forChans_mo (ask r) (ask_reads r) (ask_other r) (ask_own r) (axisChans s) (axisChans_nodup s) s
  rw [requestAll_state, hall.2 ch]
  simp only [mem_axisChans]

/-! ## The start of a play (R160) -/

/-- The channels after their requests for PLAY. -/
def askedToPlay (s : State) : State := (requestAll .play (axisChans s) s).2

theorem startPlay_of_none (h : (requestAll .play (axisChans s) s).1 = none) :
    startPlay s =
      { askedToPlay s with
        te := { (askedToPlay s).te with
          phase := .playing, tau := 0, length := (askedToPlay s).te.playLen, start := none, spoiled := false
          holdover := (askedToPlay s).ft.lock = .holdover } } := by
  unfold startPlay askedToPlay
  split
  · next heq => rw [heq] at h; cases h
  · next heq => rw [heq]

theorem startPlay_of_some {why : Refused} (h : (requestAll .play (axisChans s) s).1 = some why) :
    startPlay s = endPhase .aborted (faultOf why) (holdAtSetpoint (axisChans s) (askedToPlay s)) := by
  unfold startPlay askedToPlay
  split
  · next heq => rw [heq] at h ⊢; cases h; rfl
  · next heq => rw [heq] at h; cases h

theorem askedToPlay_frame (s : State) : askedToPlay s = { s with mo := (askedToPlay s).mo } := requestAll_frame _ _ _

theorem askedToPlay_get (s : State) (ch : Chan) :
    (askedToPlay s).mo.get ch =
      if isAxis s ch = true ∧ refusal .play ch s = none then { s.mo.get ch with mode := .play } else s.mo.get ch := by
  refine (requestAll_get .play s ch).trans ?_
  rw [ask_get]
  by_cases haxis : isAxis s ch = true
  · simp only [haxis, if_true, true_and]; rfl
  · simp [haxis]

/-- Every channel accepts PLAY: the play begins (R160). -/
theorem startPlay_accepted (h : ∀ ch, isAxis s ch = true → refusal .play ch s = none) :
    startPlay s =
      { s with
        mo := (startPlay s).mo
        te := { s.te with
          phase := .playing, tau := 0, length := s.te.playLen, start := none, spoiled := false
          holdover := decide (s.ft.lock = .holdover) } }
    ∧ ∀ ch, (startPlay s).mo.get ch = if isAxis s ch then { s.mo.get ch with mode := .play } else s.mo.get ch := by
  have hnone : (requestAll .play (axisChans s) s).1 = none :=
    (requestAll_accepted _ _ (axisChans_nodup s) s).mpr fun ch hch => h ch ((mem_axisChans s ch).mp hch)
  have heq := startPlay_of_none hnone
  refine ⟨?_, fun ch => ?_⟩
  · rw [heq, askedToPlay_frame]
  · rw [show (startPlay s).mo = (askedToPlay s).mo by rw [heq], askedToPlay_get]
    exact if_congr ⟨And.left, fun haxis => ⟨haxis, h ch haxis⟩⟩ rfl rfl

/-- A channel refuses PLAY: the play ends before it begins, with every channel held where it stands (R160). -/
theorem startPlay_refused (h : ∃ ch, isAxis s ch = true ∧ refusal .play ch s ≠ none) :
    ∃ fault, startPlay s = endPhase .aborted fault (holdAtSetpoint (axisChans s) (askedToPlay s))
      ∧ (s.sc.state ≠ .run → fault = .busy) := by
  obtain ⟨ch, haxis, hrefused⟩ := h
  cases hanswer : (requestAll .play (axisChans s) s).1 with
  | none =>
    have hall := (requestAll_accepted _ _ (axisChans_nodup s) s).mp hanswer
    exact absurd (hall ch ((mem_axisChans s ch).mpr haxis)) hrefused
  | some why =>
    refine ⟨faultOf why, startPlay_of_some hanswer, fun hstop => ?_⟩
    rw [requestAll_busy hstop hanswer]
    rfl

/-- The channels of a play that has been refused: none in PLAY, and none moved. -/
theorem refusedPlay_get (s : State) (ch : Chan) :
    let m := (holdAtSetpoint (axisChans s) (askedToPlay s)).mo.get ch
    m.p = (s.mo.get ch).p ∧ m.v = (s.mo.get ch).v
      ∧ (s.sc.state = .run → isAxis s ch = true → m.mode ≠ .play) := by
  have hwork : TakeWork s (holdAtSetpoint (axisChans s) (askedToPlay s)) :=
    (TakeWork.requestAll .play (axisChans s) s).trans (.hold _ _)
  refine ⟨hwork.p ch, hwork.v ch, fun hrun haxis => ?_⟩
  have hchans : axisChans (askedToPlay s) = axisChans s := by rw [askedToPlay_frame]; rfl
  have hheld := holdAtSetpoint_mo (s := askedToPlay s) (by rw [askedToPlay_frame]; exact hrun) ch
  rw [hchans, show isAxis (askedToPlay s) ch = true by rw [askedToPlay_frame]; exact haxis] at hheld
  rw [hheld]
  split
  · simp [heldRecord]
  · next hnot =>
    intro hplay
    exact hnot ⟨rfl, by rw [hplay]; decide, by rw [hplay]; decide⟩

/-! ## The last sample of a play (R161) -/

/-- The point that the engine holds a channel at when the play ends. -/
def lastPoint (s : State) (ch : Chan) : Int := takeCounts s ch (takeSample s (s.te.playLen - 1) ch)

theorem holdAtLast_frame (s : State) : holdAtLast s = { s with mo := (holdAtLast s).mo } := by
  refine forChans_induct (fun t => t = { s with mo := t.mo }) _ (axisChans s) s (fun ch t ht => ?_) rfl
  rw [ask_frame]
  generalize (ask _ ch t).mo = mo
  rw [ht]

theorem lastPoint_congr (hts : t.ts = s.ts) (hte : t.te = s.te) (hrf : t.rf = s.rf) (c : Chan) : lastPoint t c = lastPoint s c := by
  unfold lastPoint takeCounts takeNormalized takeSample
  rw [hts, hte, hrf]

theorem holdAtLast_def (s : State) :
    holdAtLast s = forChans (fun ch t => ask (.holdByEngine (lastPoint t ch)) ch t) (axisChans s) s := by
  unfold holdAtLast lastPoint
  rfl

theorem holdAtLast_eq (s : State) :
    holdAtLast s = forChans (fun ch t => ask (.holdByEngine (lastPoint s ch)) ch t) (axisChans s) s := by
  have key : ∀ (chans : List Chan) (t : State), (∀ c, lastPoint t c = lastPoint s c) →
      forChans (fun ch t => ask (.holdByEngine (lastPoint t ch)) ch t) chans t =
        forChans (fun ch t => ask (.holdByEngine (lastPoint s ch)) ch t) chans t := by
    intro chans
    induction chans with
    | nil =>
      intro t _
      simp only [forChans]
    | cons c rest ih =>
      intro t ht
      rw [forChans_cons, forChans_cons, ht c]
      refine ih _ fun k => (lastPoint_congr ?_ ?_ ?_ k).trans (ht k) <;> rw [ask_frame]
  rw [holdAtLast_def]
  exact key (axisChans s) s fun _ => rfl

/-- A channel in PLAY is held at the last sample (R161). -/
theorem holdAtLast_get (hrun : s.sc.state = .run) (haxis : isAxis s ch = true) (hplay : (s.mo.get ch).mode = .play) :
    (holdAtLast s).mo.get ch = { s.mo.get ch with mode := .hold, hold := lastPoint s ch } := by
  have hall := forChans_mo (fun ch t => ask (.holdByEngine (lastPoint s ch)) ch t) (fun _ _ => ask_reads _ _ _)
    (fun _ _ _ hc => ask_other _ _ _ _ hc) (fun _ _ _ hreads hm => ask_own _ _ _ _ hreads hm) (axisChans s) (axisChans_nodup s) s
  have hnone : refusal (.holdByEngine (lastPoint s ch)) ch s = none := by
    simp [refusal, hrun, acceptedFrom, needsReference, hplay]
  rw [holdAtLast_eq, hall.2 ch, if_pos ((mem_axisChans s ch).mpr haxis), ask_get, if_pos hnone]
  rfl

/-- The play that moves on before its last sample. -/
theorem advancePlay_on (h : s.te.tau + s.te.rate * 256 < (s.te.playLen - 1) * 65536) :
    advancePlay s = { s with te := { s.te with tau := s.te.tau + s.te.rate * 256 } } := by
  simp [advancePlay, Nat.not_le.mpr h]

/-- The station at the last sample of its play. -/
def atLast (s : State) : State := { s with te := { s.te with tau := (s.te.playLen - 1) * 65536 } }

theorem advancePlay_last (h : (s.te.playLen - 1) * 65536 ≤ s.te.tau + s.te.rate * 256) :
    advancePlay s = endDone .none (holdAtLast (atLast s)) := by
  simp [advancePlay, h, atLast]

/-- The end of a play leaves the store, the stop controller and the references. -/
theorem playDone_frame (s : State) :
    endDone .none (holdAtLast (atLast s)) =
      { endPhase .done .none (atLast s) with mo := (endDone .none (holdAtLast (atLast s))).mo } := by
  have hframe := endDone_frame .none (holdAtLast (atLast s))
  refine hframe.trans ?_
  generalize (endDone .none (holdAtLast (atLast s))).mo = mo
  rw [holdAtLast_frame]
  rfl

/-- A channel of a play that ends: HOLD at the last sample, and LIVE again when a live order was held for it (R161, R166). -/
theorem playDone_get (hrun : s.sc.state = .run) (haxis : isAxis s ch = true) (hplay : (s.mo.get ch).mode = .play) :
    (endDone .none (holdAtLast (atLast s))).mo.get ch =
      { s.mo.get ch with
        mode := if s.te.liveHeld ∧ (chanCfg s ch).bindKind ≠ .none ∧ referenced s ch then .live else .hold
        hold := lastPoint s ch } := by
  have hheld : (holdAtLast (atLast s)).mo.get ch = { s.mo.get ch with mode := .hold, hold := lastPoint s ch } :=
    holdAtLast_get (s := atLast s) hrun haxis hplay
  have hframe := holdAtLast_frame (atLast s)
  have hlive : (holdAtLast (atLast s)).te.liveHeld = s.te.liveHeld := by rw [hframe]; rfl
  have hgoes : GoesLive (holdAtLast (atLast s)) ch ↔ (chanCfg s ch).bindKind ≠ .none ∧ referenced s ch = true := by
    have hsc : (holdAtLast (atLast s)).sc.state = .run := by rw [hframe]; exact hrun
    have haxis' : isAxis (holdAtLast (atLast s)) ch = true := by rw [hframe]; exact haxis
    have hcfg : chanCfg (holdAtLast (atLast s)) ch = chanCfg s ch := by rw [hframe]; rfl
    have href : referenced (holdAtLast (atLast s)) ch = referenced s ch := by rw [hframe]; rfl
    simp [GoesLive, hsc, haxis', hcfg, href, hheld]
  rw [endDone_mo]
  refine (if_congr (and_congr (Iff.of_eq (congrArg (· = true) hlive)) hgoes)
    (congrArg (fun m : Motion => { m with mode := .live }) hheld) hheld).trans ?_
  split_ifs <;> rfl

end Sys2Proof.Machine
end

section
/-! PROOFS. O50: the take engine's frame event phase by phase, in the terms of the store and of the channels (R139 to R143, R153, R154, R160,
R161, R166). -/

namespace Sys2Proof.Machine

variable {s t : State} {ch : Chan}

/-- The samples of a frame, channel by channel (R139). -/
def samplesNow (s : State) (mask kinds : PerChan Bool) : List Word :=
  (maskChans mask).map fun ch =>
    if kinds.get ch then
      BitVec.ofInt 32 (clampInt 0 65535 (floorDiv ((floorDiv (s.mo.get ch).p 256 - (s.rf.get ch).softLo) * 65535)
        ((s.rf.get ch).softHi - (s.rf.get ch).softLo)))
    else BitVec.ofInt 32 (floorDiv (s.mo.get ch).p 256)

theorem samplesNow_eq (s : State) (mask kinds : PerChan Bool) : samplesNow s mask kinds = frameSamples mask kinds s := rfl

/-- ARMED_REC at its start frame (R140, R153). -/
theorem takeFrameEvent_starts (hwf : Memory.wf s.ts.slots = true) (hpages : ∀ p ∈ s.ts.free, p < 128)
    (hphase : s.te.phase = .armedRec) (hstart : s.te.start = some s.ft.count) :
    let t := takeFrameEvent s
    let room : Prop := recordings s.ts.dir = 0 ∧ lookupTake s.ts.dir s.te.take = none ∧ s.ts.dir.length < 16
    (¬room ∨ s.ts.free = [] →
      t = { s with te := t.te } ∧ t.te.phase = .idle ∧ t.te.result = .refused ∧ (room → t.te.fault = .storeFull)
        ∧ (t.te.fault = .busy ∨ t.te.fault = .takeExists ∨ t.te.fault = .dirFull ∨ t.te.fault = .storeFull))
    ∧ (∀ page rest, room → s.ts.free = page :: rest →
        (let mask := axisMask s
         let kinds := axisKinds s
         t = { s with ts := t.ts, te := { s.te with phase := .recording, length := 1, start := none } }
         ∧ t.ts.free = rest ∧ t.ts.check = s.ts.check
         ∧ t.ts.dir = s.ts.dir ++
             [{ take := s.te.take, status := .recording, protect := false, mask := mask, normalized := kinds
                rate := s.cfg.frameRate, length := 1, pages := [page]
                crc := (samplesNow s mask kinds).foldl crc32Sample crc32Start }]
         ∧ (∀ (j : Nat) (w : Word), (samplesNow s mask kinds)[j]? = some w → slotRead t.ts.slots (page * 512 + j) = w)
         ∧ ∀ a, a < page * 512 ∨ page * 512 + maskCount mask ≤ a → slotRead t.ts.slots a = slotRead s.ts.slots a)) := by
  have hstarts : takeFrameEvent s = startRecording s := by rw [takeFrameEvent_armed hphase, if_pos hstart]
  intro t room
  have ht : t = startRecording s := hstarts
  rw [ht]
  refine ⟨fun hrefused => ?_, fun page rest hroom hfree => ?_⟩
  · obtain ⟨fault, heq, hcases, hfull⟩ := startRecording_refused (hrefused.imp (fun hnot h => hnot ((hasRoom_iff _ _).mp h)) id)
    rw [heq]
    exact ⟨rfl, rfl, rfl, fun hroom => hfull ((hasRoom_iff _ _).mpr hroom), hcases⟩
  · have hpage : page < 128 := hpages page (by rw [hfree]; exact List.mem_cons_self)
    have hmask := maskCount_le (axisMask s)
    obtain ⟨hwritten, houtside⟩ := writeSamples_slots (m := s.ts.slots) (base := memorySlot page 0) hwf
      (frameSamples_length (axisMask s) (axisKinds s) s) (by rw [memorySlot_first]; omega)
    rw [memorySlot_first] at hwritten houtside
    rw [startRecording_creates ((hasRoom_iff _ _).mpr hroom) hfree]
    refine ⟨rfl, rfl, rfl, rfl, ?_, ?_⟩
    · show ∀ _ _, _ → slotRead (writeSamples s.ts.slots (memorySlot page 0) _) _ = _
      rw [memorySlot_first]; exact hwritten
    · show ∀ _, _ → slotRead (writeSamples s.ts.slots (memorySlot page 0) _) _ = _
      rw [memorySlot_first]; exact houtside

/-- RECORDING: the next frame, or a full store (R141, R143, R154, R166). -/
theorem takeFrameEvent_records {e : Entry} (hwf : Memory.wf s.ts.slots = true) (hfree : ∀ p ∈ s.ts.free, p < 128)
    (hpages : ∀ e ∈ s.ts.dir, ∀ p ∈ e.pages, p < 128) (hphase : s.te.phase = .recording)
    (hentry : recordingEntry s.ts.dir = some e) :
    let t := takeFrameEvent s
    let k := maskCount e.mask
    let newPage : Prop := e.length % (512 / k) = 0
    let full : Prop := e.length = 65535 ∨ (newPage ∧ s.ts.free = [])
    (full → t.te.phase = .idle ∧ t.te.result = .done ∧ t.te.fault = .storeFull ∧ t.te.length = s.te.length
      ∧ t.te.filledAt = some s.clock
      ∧ t.ts = { s.ts with dir := s.ts.dir.map fun x => if x.take = e.take then { x with status := .complete } else x }
      ∧ t.te.liveHeld = false ∧ (s.te.liveHeld = false → t.mo = s.mo))
    ∧ (¬full →
        (let pages := if e.length % (512 / k) = 0 then e.pages ++ s.ts.free.take 1 else e.pages
         let base := pages.getD (e.length / (512 / k)) 0 * 512 + e.length % (512 / k) * k
         let frame := samplesNow s e.mask e.normalized
         t = { s with ts := t.ts, te := { s.te with length := e.length + 1 } }
         ∧ t.ts.free = (if e.length % (512 / k) = 0 then s.ts.free.drop 1 else s.ts.free) ∧ t.ts.check = s.ts.check
         ∧ t.ts.dir = s.ts.dir.map (fun x => if x.take = e.take then
             { x with pages := pages, length := e.length + 1, crc := frame.foldl crc32Sample e.crc } else x)
         ∧ (∀ (j : Nat) (w : Word), frame[j]? = some w → slotRead t.ts.slots (base + j) = w)
         ∧ ∀ a, a < base ∨ base + k ≤ a → slotRead t.ts.slots a = slotRead s.ts.slots a)) := by
  have hrecords : takeFrameEvent s = appendFrame s := takeFrameEvent_recording hphase
  intro t k newPage full
  have ht : t = appendFrame s := hrecords
  rw [ht]
  refine ⟨fun hfull => ?_, fun hnot => ?_⟩
  · rw [appendFrame_full hentry hfull]
    refine ⟨?_, ?_, ?_, ?_, ?_, ?_, ?_, fun hheld => ?_⟩
    · rw [endDone_frame]; rfl
    · rw [endDone_frame]; rfl
    · rw [endDone_frame]; rfl
    · rw [endDone_frame]; rfl
    · rw [endDone_frame]; rfl
    · rw [endDone_frame]; rfl
    · rw [endDone_frame]; rfl
    · simp [endDone, hheld]
  · have hmem : e ∈ s.ts.dir := List.mem_of_find?_eq_some hentry
    have hpage := getD_page_lt (pagesFor_lt hfree (hpages e hmem)) (e.length / framesPerPage (maskCount e.mask))
    have hfits := frame_slots (maskCount e.mask) e.length _ (maskCount_le e.mask) hpage
    obtain ⟨hwritten, houtside⟩ := writeSamples_slots hwf (frameSamples_length e.mask e.normalized s) hfits
    rw [appendFrame_next hentry hnot]
    exact ⟨rfl, rfl, rfl, rfl, hwritten, houtside⟩

/-- CUED at the play's start frame (R160). -/
theorem takeFrameEvent_plays (hphase : s.te.phase = .cued) (hstart : s.te.start = some s.ft.count) :
    let t := takeFrameEvent s
    ((∀ ch, isAxis s ch = true → refusal .play ch s = none) →
      t = { s with mo := t.mo, te := t.te }
      ∧ t.te = { s.te with
          phase := .playing, tau := 0, length := s.te.playLen, start := none, spoiled := false
          holdover := decide (s.ft.lock = .holdover) }
      ∧ ∀ ch, t.mo.get ch = if isAxis s ch then { s.mo.get ch with mode := .play } else s.mo.get ch)
    ∧ ((∃ ch, isAxis s ch = true ∧ refusal .play ch s ≠ none) →
        t.te.phase = .idle ∧ t.te.result = .aborted ∧ (s.sc.state ≠ .run → t.te.fault = .busy)
          ∧ t = { s with mo := t.mo, te := t.te }
          ∧ ∀ ch, (t.mo.get ch).p = (s.mo.get ch).p ∧ (t.mo.get ch).v = (s.mo.get ch).v
              ∧ (s.sc.state = .run → isAxis s ch = true → (t.mo.get ch).mode ≠ .play)) := by
  have hplays : takeFrameEvent s = startPlay s := by rw [takeFrameEvent_cued hphase, if_pos hstart]
  intro t
  have ht : t = startPlay s := hplays
  rw [ht]
  refine ⟨fun haccepted => ?_, fun hrefused => ?_⟩
  · obtain ⟨heq, hmo⟩ := startPlay_accepted haccepted
    have hte := congrArg State.te heq
    exact ⟨heq.trans (by rw [hte]), hte, hmo⟩
  · obtain ⟨fault, heq, hbusy⟩ := startPlay_refused hrefused
    rw [heq]
    refine ⟨rfl, rfl, hbusy, ?_, refusedPlay_get s⟩
    rw [holdAtSetpoint_frame, askedToPlay_frame]
    rfl

/-- PLAYING: the play moves on, or ends on its last sample (R161, R166). -/
theorem takeFrameEvent_moves (hphase : s.te.phase = .playing) :
    let t := takeFrameEvent s
    let last := (s.te.playLen - 1) * 65536
    let tau := s.te.tau + s.te.rate * 256
    (tau < last → t = { s with te := { s.te with tau := tau } })
    ∧ (last ≤ tau → t.te.tau = last ∧ t.te.phase = .idle ∧ t.te.result = .done ∧ t.te.fault = .none
        ∧ t.te.start = none ∧ t.te.liveHeld = false ∧ t.ts = s.ts ∧ t.sc = s.sc ∧ t.rf = s.rf
        ∧ (s.sc.state = .run → ∀ ch, isAxis s ch = true → (s.mo.get ch).mode = .play →
            t.mo.get ch =
              { s.mo.get ch with
                mode := if s.te.liveHeld ∧ (chanCfg s ch).bindKind ≠ .none ∧ referenced s ch then .live else .hold
                hold := takeCounts s ch (takeSample s (s.te.playLen - 1) ch) })) := by
  have hmoves : takeFrameEvent s = advancePlay s := takeFrameEvent_playing hphase
  intro t last tau
  have ht : t = advancePlay s := hmoves
  rw [ht]
  refine ⟨advancePlay_on, fun hlast => ?_⟩
  rw [advancePlay_last hlast]
  refine ⟨?_, ?_, ?_, ?_, ?_, ?_, ?_, ?_, ?_, fun hrun ch haxis hplay => playDone_get hrun haxis hplay⟩
  all_goals rw [playDone_frame]; rfl

end Sys2Proof.Machine
end

section
/-! PROOFS. O50: the take engine's frame event and its lock notice do not read what the other blocks of the frame event change; so in an
event that asks nothing else of it the engine takes the event alone, before the notice or after it (R66, R168). -/

namespace Sys2Proof.Machine

variable {s t u v w : State} {ch : Chan}

/-! ## What the take engine does not read -/

/-- The parts of the station that the other blocks change when a frame event asks nothing of the take engine. -/
structure Aside where
  order : List Nat
  draws : Nat
  tk : Trunk
  pt : PeerTable
  dupWindow : Nat

def aside (a : Aside) (s : State) : State :=
  { s with order := a.order, draws := a.draws, tk := a.tk, pt := a.pt, sc := { s.sc with dupWindow := a.dupWindow } }

/-- An operation that neither reads nor changes those parts. -/
def KeepsAside (f : State → State) : Prop := ∀ a s, f (aside a s) = aside a (f s)

variable (a : Aside)

theorem ask_aside (r : ModeRequest) (ch : Chan) : KeepsAside (ask r ch) := fun a s => by
  have hsame : refusal r ch (aside a s) = refusal r ch s := rfl
  unfold ask request
  rw [hsame]
  cases refusal r ch s <;> rfl

theorem KeepsAside.chans {f : Chan → State → State} (h : ∀ ch, KeepsAside (f ch)) (chans : List Chan) :
    KeepsAside (forChans f chans) := fun a s => by
  induction chans generalizing s with
  | nil => simp only [forChans]
  | cons ch rest ih => rw [forChans_cons, forChans_cons, h ch, ih]

theorem axisChans_aside (s : State) : axisChans (aside a s) = axisChans s := rfl

theorem holdAtSetpoint_aside (chans : List Chan) : KeepsAside (holdAtSetpoint chans) :=
  fun a s => KeepsAside.chans (f := fun ch t => ask (.holdByEngine (wholeCounts (t.mo.get ch).p)) ch t)
    (fun ch a t => ask_aside (.holdByEngine (wholeCounts (t.mo.get ch).p)) ch a t) chans a s

theorem liveRequests_aside : KeepsAside liveRequests := fun a s =>
  KeepsAside.chans (fun ch a t => by
    show (if (chanCfg t ch).bindKind = .none then aside a t else ask .live ch (aside a t)) =
      aside a (if (chanCfg t ch).bindKind = .none then t else ask .live ch t)
    split
    · rfl
    · exact ask_aside _ ch a t) (axisChans s) a s

theorem holdAtLast_aside : KeepsAside holdAtLast := fun a s => by
  have hpoint : ∀ c, lastPoint (aside a s) c = lastPoint s c := lastPoint_congr rfl rfl rfl
  rw [holdAtLast_eq, holdAtLast_eq, funext hpoint, axisChans_aside]
  exact KeepsAside.chans (fun ch => ask_aside _ ch) _ a s

theorem endDone_aside (fault : TakeFault) : KeepsAside (endDone fault) := fun a s => by
  show (if s.te.liveHeld then liveRequests (aside a (endPhase .done fault s)) else aside a (endPhase .done fault s)) =
    aside a (if s.te.liveHeld then liveRequests (endPhase .done fault s) else endPhase .done fault s)
  split
  · exact liveRequests_aside a _
  · rfl

theorem loseTake_aside (fault : TakeFault) : KeepsAside (loseTake fault) := fun a s => by
  unfold loseTake
  rw [show (aside a s).te = s.te from rfl]
  split
  · rfl
  · rfl
  · rw [axisChans_aside, holdAtSetpoint_aside]; rfl
  · rw [axisChans_aside, holdAtSetpoint_aside]; rfl
  all_goals rfl

theorem lockNotice_aside (new : Lock) : KeepsAside (lockNotice new) := fun a s => by
  cases new with
  | free => exact loseTake_aside _ a s
  | holdover =>
    unfold lockNotice
    rw [show (aside a s).te = s.te from rfl]
    cases s.te.phase <;> rfl
  | locking => rfl
  | locked => rfl

theorem startRecording_aside : KeepsAside startRecording := fun a s => by
  unfold startRecording
  rw [show storeCreate (aside a s).te.take (axisMask (aside a s)) (axisKinds (aside a s)) (aside a s).cfg.frameRate
    (frameSamples (axisMask (aside a s)) (axisKinds (aside a s)) (aside a s)) (aside a s).ts
      = storeCreate s.te.take (axisMask s) (axisKinds s) s.cfg.frameRate (frameSamples (axisMask s) (axisKinds s) s) s.ts from rfl]
  split <;> rfl

theorem appendFrame_aside : KeepsAside appendFrame := fun a s => by
  unfold appendFrame
  rw [show storeAppend (nextSamples (aside a s)) (aside a s).ts = storeAppend (nextSamples s) s.ts from rfl]
  split
  · rfl
  · next ts _ => exact endDone_aside .storeFull a { s with ts := ts, te := { s.te with filledAt := some s.clock } }
  · rfl

theorem requestAll_aside (r : ModeRequest) (chans : List Chan) (s : State) :
    (requestAll r chans (aside a s)).1 = (requestAll r chans s).1
      ∧ (requestAll r chans (aside a s)).2 = aside a (requestAll r chans s).2 := by
  refine ⟨?_, ?_⟩
  · induction chans generalizing s with
    | nil => rfl
    | cons ch rest ih =>
      have hown : request r ch (aside a s) = ((request r ch s).1, aside a (request r ch s).2) := by
        have hsame : refusal r ch (aside a s) = refusal r ch s := rfl
        unfold request
        rw [hsame]
        cases refusal r ch s <;> rfl
      simp only [requestAll, hown, ih]
  · rw [requestAll_state, requestAll_state]
    exact KeepsAside.chans (fun ch => ask_aside r ch) chans a s

theorem startPlay_aside : KeepsAside startPlay := fun a s => by
  obtain ⟨hanswer, hstate⟩ := requestAll_aside a .play (axisChans s) s
  have hasked : askedToPlay (aside a s) = aside a (askedToPlay s) := hstate
  cases h : (requestAll .play (axisChans s) s).1 with
  | none =>
    rw [startPlay_of_none h, startPlay_of_none (hanswer.trans h), hasked]
    rfl
  | some why =>
    rw [startPlay_of_some h, startPlay_of_some (hanswer.trans h), hasked, axisChans_aside, holdAtSetpoint_aside]
    rfl

theorem advancePlay_aside : KeepsAside advancePlay := fun a s => by
  by_cases h : (s.te.playLen - 1) * 65536 ≤ s.te.tau + s.te.rate * 256
  · rw [advancePlay_last h, advancePlay_last (s := aside a s) h, ← endDone_aside, ← holdAtLast_aside]
    rfl
  · rw [advancePlay_on (Nat.not_le.mp h), advancePlay_on (s := aside a s) (Nat.not_le.mp h)]
    rfl

theorem takeFrameEvent_aside : KeepsAside takeFrameEvent := fun a s => by
  cases hphase : s.te.phase with
  | idle => rw [takeFrameEvent_rests (.inl hphase), takeFrameEvent_rests (s := aside a s) (.inl hphase)]
  | checking => rw [takeFrameEvent_rests (.inr (.inl hphase)), takeFrameEvent_rests (s := aside a s) (.inr (.inl hphase))]
  | cueing => rw [takeFrameEvent_rests (.inr (.inr hphase)), takeFrameEvent_rests (s := aside a s) (.inr (.inr hphase))]
  | armedRec =>
    rw [takeFrameEvent_armed hphase, takeFrameEvent_armed (s := aside a s) hphase]
    show (if s.te.start = some s.ft.count then _ else _) = aside a (if s.te.start = some s.ft.count then _ else _)
    split
    · exact startRecording_aside a s
    · rfl
  | recording =>
    rw [takeFrameEvent_recording hphase, takeFrameEvent_recording (s := aside a s) hphase]
    exact appendFrame_aside a s
  | cued =>
    rw [takeFrameEvent_cued hphase, takeFrameEvent_cued (s := aside a s) hphase]
    show (if s.te.start = some s.ft.count then _ else _) = aside a (if s.te.start = some s.ft.count then _ else _)
    split
    · exact startPlay_aside a s
    · rfl
  | playing =>
    rw [takeFrameEvent_playing hphase, takeFrameEvent_playing (s := aside a s) hphase]
    exact advancePlay_aside a s

/-! ## The engine beside other tasks -/

/-- An operation of the take engine acts on a station beside another as on that other. -/
theorem Beside.acts {f : State → State} (hf : KeepsAside f) (hstands : Stands f) (h : Beside s t) : Beside (f s) (f t) := by
  have haside : t = aside ⟨t.order, t.draws, t.tk, t.pt, t.sc.dupWindow⟩ s := h.eq
  have hft : f t = aside ⟨t.order, t.draws, t.tk, t.pt, t.sc.dupWindow⟩ (f s) := by
    rw [haside]; exact hf _ s
  refine ⟨?_, ?_, ?_⟩
  · rw [hft]; rfl
  · exact (congrArg Standing.confirmed (hstands t)).trans h.confirmed
  · exact (congrArg Standing.pendingRelease (hstands t)).trans h.release

/-- The tasks of a frame event that ask nothing of the take engine. -/
def besideTasks (stamp : Word) : List (State → State) := [buildState stamp, ageFrameEvent, handConfirmed, stopPart]

theorem Beside.keeps {stamp : Word} {f : State → State} (hf : f ∈ besideTasks stamp)
    (hnone : ∀ n ∈ peerNumbers, requiredPeer s n = false) (h : Beside s t) : Beside s (f t) := by
  simp only [besideTasks, List.mem_cons, List.not_mem_nil, or_false] at hf
  rcases hf with rfl | rfl | rfl | rfl
  · exact h.build stamp
  · refine h.age ((silentPeers_eq_nil _).mpr fun n hn hrequired => ?_)
    have hsame : requiredPeer (agePeers t) n = requiredPeer s n := by rw [h.eq]; rfl
    rw [hsame, hnone n hn] at hrequired
    cases hrequired
  · rw [h.handConfirmed]; exact h
  · exact h.stopPart

/-- An event that keeps the lock state hands the take engine the frame event alone. -/
theorem frameTasks_takes (stamp : Word) (lock : Lock) (hnone : ∀ n ∈ peerNumbers, requiredPeer s n = false)
    (hconfirmed : s.pt.confirmed = none) (hrelease : s.sc.pendingRelease = false) :
    Beside (takeFrameEvent s) (inAnyOrder (frameTasks stamp lock lock) s) := by
  have hnone' : ∀ n ∈ peerNumbers, requiredPeer (takeFrameEvent s) n = false := fun n hn => by
    rw [(TakeWork.frame s).eq]; exact hnone n hn
  refine inAnyOrder_one (P := Beside s) (Q := Beside (takeFrameEvent s)) (g := takeFrameEvent) (rest := besideTasks stamp)
    (fun t ht => ht.acts takeFrameEvent_aside takeFrameEvent_stands)
    (fun f hf => ⟨fun t => Beside.keeps hf hnone, fun t => Beside.keeps hf hnone'⟩)
    ?_ fun o d => (Beside.refl hconfirmed hrelease).reordered o d
  have htasks : frameTasks stamp lock lock = besideTasks stamp ++ [takeFrameEvent] := by simp [frameTasks, besideTasks]
  rw [htasks]
  exact List.perm_append_singleton _ _

/-- An event that changes the lock state hands the engine the frame event and the notice, in either order. -/
theorem frameTasks_takesNotice (stamp : Word) {old new : Lock} (hchange : old ≠ new) (hnone : ∀ n ∈ peerNumbers, requiredPeer s n = false)
    (hconfirmed : s.pt.confirmed = none) (hrelease : s.sc.pendingRelease = false) :
    Beside (takeFrameEvent (lockNotice new s)) (inAnyOrder (frameTasks stamp old new) s)
      ∨ Beside (lockNotice new (takeFrameEvent s)) (inAnyOrder (frameTasks stamp old new) s) := by
  have hwork : ∀ {x : State}, TakeWork s x → ∀ n ∈ peerNumbers, requiredPeer x n = false := fun hx n hn => by
    rw [hx.eq]; exact hnone n hn
  have htake := TakeWork.frame s
  have hlock := TakeWork.lock new s
  have act : TwoAct (Beside s) (Beside (takeFrameEvent s)) (Beside (lockNotice new s))
      (fun t => Beside (takeFrameEvent (lockNotice new s)) t ∨ Beside (lockNotice new (takeFrameEvent s)) t)
      takeFrameEvent (lockNotice new) (besideTasks stamp) :=
    { first := fun _ ht => ht.acts takeFrameEvent_aside takeFrameEvent_stands
      second := fun _ ht => ht.acts (lockNotice_aside new) (lockNotice_stands new)
      afterFirst := fun _ ht => .inr (ht.acts (lockNotice_aside new) (lockNotice_stands new))
      afterSecond := fun _ ht => .inl (ht.acts takeFrameEvent_aside takeFrameEvent_stands)
      others := fun f hf =>
        ⟨fun _ => Beside.keeps hf hnone, fun _ => Beside.keeps hf (hwork htake), fun _ => Beside.keeps hf (hwork hlock),
          fun _ ht => ht.imp (Beside.keeps hf (hwork (hlock.trans (.frame _)))) (Beside.keeps hf (hwork (htake.trans (.lock new _))))⟩ }
  refine inAnyOrder_two act ?_ fun o d => (Beside.refl hconfirmed hrelease).reordered o d
  have htasks : frameTasks stamp old new = besideTasks stamp ++ takeFrameEvent :: [lockNotice new] := by
    simp [frameTasks, besideTasks, hchange]
  rw [htasks]
  refine List.perm_middle.trans (List.Perm.cons _ ?_)
  exact List.perm_append_singleton _ _

/-! ## A lost lock -/

/-- The phases that a lost lock ends (R168). -/
def working (s : State) : Prop :=
  s.te.phase = .armedRec ∨ s.te.phase = .recording ∨ s.te.phase = .cued ∨ s.te.phase = .playing

/-- The engine at rest with no start frame. -/
def ended (s : State) : Prop := s.te.phase = .idle ∧ s.te.start = none

theorem loseTake_working (fault : TakeFault) (h : working s) :
    ended (loseTake fault s) ∧ (loseTake fault s).te.result = .aborted ∧ (loseTake fault s).te.fault = fault := by
  rcases h with h | h | h | h <;> simp [loseTake, h, endPhase, ended]

theorem endDone_ended (fault : TakeFault) (s : State) : ended (endDone fault s) := by
  rw [endDone_frame]; exact ⟨rfl, rfl⟩

theorem startRecording_phase (s : State) : (startRecording s).te.phase = .recording ∨ ended (startRecording s) := by
  unfold startRecording
  split
  · exact .inl rfl
  · exact .inr ⟨rfl, rfl⟩

theorem appendFrame_phase (s : State) : (appendFrame s).te.phase = s.te.phase ∨ ended (appendFrame s) := by
  unfold appendFrame
  split
  · exact .inl rfl
  · exact .inr (endDone_ended _ _)
  · exact .inl rfl

theorem startPlay_phase (s : State) : (startPlay s).te.phase = .playing ∨ ended (startPlay s) := by
  cases h : (requestAll .play (axisChans s) s).1 with
  | none => rw [startPlay_of_none h]; exact .inl rfl
  | some why => rw [startPlay_of_some h]; exact .inr ⟨rfl, rfl⟩

theorem advancePlay_phase (s : State) : (advancePlay s).te.phase = s.te.phase ∨ ended (advancePlay s) := by
  by_cases h : (s.te.playLen - 1) * 65536 ≤ s.te.tau + s.te.rate * 256
  · rw [advancePlay_last h]; exact .inr (endDone_ended _ _)
  · rw [advancePlay_on (Nat.not_le.mp h)]; exact .inl rfl

/-- A frame event leaves a working phase working, or ends it with no start frame. -/
theorem takeFrameEvent_working (h : working s) : working (takeFrameEvent s) ∨ ended (takeFrameEvent s) := by
  rcases h with h | h | h | h
  · rw [takeFrameEvent_armed h]
    split
    · exact (startRecording_phase s).imp_left fun hphase => .inr (.inl hphase)
    · exact .inl (.inl h)
  · rw [takeFrameEvent_recording h]
    exact (appendFrame_phase s).imp_left fun hphase => .inr (.inl (hphase.trans h))
  · rw [takeFrameEvent_cued h]
    split
    · exact (startPlay_phase s).imp_left fun hphase => .inr (.inr (.inr hphase))
    · exact .inl (.inr (.inr (.inl h)))
  · rw [takeFrameEvent_playing h]
    exact (advancePlay_phase s).imp_left fun hphase => .inr (.inr (.inr (hphase.trans h)))

/-- A start frame not reached changes nothing. -/
theorem takeFrameEvent_waits (hphase : s.te.phase = .armedRec ∨ s.te.phase = .cued) (hstart : s.te.start ≠ some s.ft.count) :
    takeFrameEvent s = s := by
  rcases hphase with h | h
  · rw [takeFrameEvent_armed h, if_neg hstart]
  · rw [takeFrameEvent_cued h, if_neg hstart]

/-- A frame event and a lost lock, in either order, end the work (R168). -/
theorem lostWork_ends (h : working s) :
    ended (takeFrameEvent (loseTake .lockLost s)) ∧ ended (loseTake .lockLost (takeFrameEvent s)) := by
  have hrests : ∀ {t : State}, ended t → restsAtFrames t.te.phase := fun ht => .inl ht.1
  refine ⟨?_, ?_⟩
  · have hlost := (loseTake_working .lockLost h).1
    rw [takeFrameEvent_rests (hrests hlost)]
    exact hlost
  · rcases takeFrameEvent_working h with hworks | hended
    · exact (loseTake_working .lockLost hworks).1
    · rw [loseTake_rests _ (hrests hended)]
      exact hended

/-- The lock lost before the start frame: ABORTED with LOCK_LOST in either order (R168). -/
theorem lostBeforeStart (hphase : s.te.phase = .armedRec ∨ s.te.phase = .cued) (hstart : s.te.start ≠ some s.ft.count) :
    takeFrameEvent (loseTake .lockLost s) = loseTake .lockLost s ∧ takeFrameEvent s = s := by
  have hworks : working s := hphase.elim .inl fun h => .inr (.inr (.inl h))
  exact ⟨takeFrameEvent_rests (.inl (loseTake_working _ hworks).1.1), takeFrameEvent_waits hphase hstart⟩

/-! ## O50 -/

/-- What the take engine has done is what it has done beside the other tasks. -/
theorem Beside.does {p : Bool} {stamp : Word} {next : FrameTimer → FrameTimer} (h : Beside s (tasksDone p stamp next u)) :
    (frameEvent p stamp next u).te = s.te ∧ (frameEvent p stamp next u).ts = s.ts ∧ (frameEvent p stamp next u).mo = s.mo
      ∧ (frameEvent p stamp next u).rf = s.rf := by
  obtain ⟨-, hte, hts, hmo, hrf, -⟩ := completeBuild_keeps (tasksDone p stamp next u)
  rw [frameEvent_eq, hte, hts, hmo, hrf, h.eq]
  exact ⟨rfl, rfl, rfl, rfl⟩

/-- A frame event that asks nothing else of the take engine. -/
theorem frameEvent_takes (pulse : Bool) (stamp : Word) (next : FrameTimer → FrameTimer) (s : State)
    (hconfirmed : s.pt.confirmed = none) (hrelease : s.sc.pendingRelease = false) (hnone : ∀ n ∈ peerNumbers, requiredPeer s n = false) :
    let t := frameEvent pulse stamp next s
    let new := (next s.ft).lock
    let s₁ := stamped pulse stamp next s
    let does : State → Prop := fun u => t.te = u.te ∧ t.ts = u.ts ∧ t.mo = u.mo ∧ t.rf = u.rf
    (new = s.ft.lock → does (takeFrameEvent s₁))
    ∧ (new ≠ s.ft.lock → does (takeFrameEvent (lockNotice new s₁)) ∨ does (lockNotice new (takeFrameEvent s₁))) := by
  refine ⟨fun hsame => Beside.does ?_, fun hchange => ?_⟩
  · unfold tasksDone
    rw [hsame]
    exact frameTasks_takes (s := stamped pulse stamp next s) stamp s.ft.lock hnone hconfirmed hrelease
  · exact (frameTasks_takesNotice (s := stamped pulse stamp next s) stamp (Ne.symm hchange) hnone hconfirmed hrelease).imp
      Beside.does Beside.does

/-- Settles O50: by the phase that the event meets; the lock notice and the frame event act beside every other task
(`frameTasks_takesNotice`). -/
theorem frameEventsDriveTheTake : Obligations.FrameEventsDriveTheTake := by
  unfold Obligations.FrameEventsDriveTheTake
  refine ⟨fun s hwf hfree hpages => ⟨takeFrameEvent_rests, takeFrameEvent_waits, takeFrameEvent_starts hwf hfree,
    fun _ => takeFrameEvent_records hwf hfree hpages, takeFrameEvent_plays, takeFrameEvent_moves⟩, ?_⟩
  intro pulse stamp next s hconfirmed hrelease hnone
  obtain ⟨hsame, hchange⟩ := frameEvent_takes pulse stamp next s hconfirmed hrelease hnone
  refine ⟨hsame, hchange, fun hold hnew hworking => ?_⟩
  have hworks : working (stamped pulse stamp next s) := hworking
  have hdoes := hchange (by rw [hnew]; exact Ne.symm hold)
  rw [hnew] at hdoes
  obtain ⟨hfirst, hlast⟩ := lostWork_ends hworks
  refine ⟨?_, ?_, fun hphase hstart => ?_⟩
  · rcases hdoes with ⟨hte, -⟩ | ⟨hte, -⟩ <;> rw [hte]
    exacts [hfirst.1, hlast.1]
  · rcases hdoes with ⟨hte, -⟩ | ⟨hte, -⟩ <;> rw [hte]
    exacts [hfirst.2, hlast.2]
  · obtain ⟨hlostRests, hwaits⟩ := lostBeforeStart (s := stamped pulse stamp next s) hphase hstart
    have hresult := (loseTake_working .lockLost hworks).2
    rcases hdoes with ⟨hte, -⟩ | ⟨hte, -⟩ <;> rw [hte]
    · rw [show lockNotice .free (stamped pulse stamp next s) = loseTake .lockLost (stamped pulse stamp next s) from rfl, hlostRests]
      exact hresult
    · rw [hwaits]
      exact hresult

end Sys2Proof.Machine
end

section
/-! PROOFS. O39, the layer below it: what desk commands, the take engine's notices and a peer's stop leave of the stop controller, of the
channels, and of the serial and the slots that the take engine holds (R98, R121, R129, R150, R167 to R169). -/

namespace Sys2Proof.Machine

variable {s t u : State} {ch : Chan}

/-! ## What yields to the stop controller -/

/-- What a desk command and a notice of the take engine leave: the stop controller but for a pending release, the trunk, the channels'
setpoints and which of them are OFF; and, outside RUN, the channels as they are and no take work begun. -/
structure Yields (s t : State) : Prop where
  sc : t.sc = { s.sc with pendingRelease := t.sc.pendingRelease }
  tk : t.tk = s.tk
  p : ∀ ch, (t.mo.get ch).p = (s.mo.get ch).p
  v : ∀ ch, (t.mo.get ch).v = (s.mo.get ch).v
  off : ∀ ch, (t.mo.get ch).mode = .off ↔ (s.mo.get ch).mode = .off
  stopped : s.sc.state ≠ .run → t.mo = s.mo
  idle : s.sc.state ≠ .run → workingPhase s.te.phase = false → workingPhase t.te.phase = false

/-- A change that reaches neither the stop controller nor the trunk, the channels' motion or the take engine. -/
theorem Yields.of_eq (hsc : t.sc = s.sc) (htk : t.tk = s.tk) (hmo : t.mo = s.mo) (hte : t.te = s.te) : Yields s t :=
  ⟨by rw [hsc], htk, fun _ => by rw [hmo], fun _ => by rw [hmo], fun _ => by rw [hmo], fun _ => hmo, fun _ h => by rwa [hte]⟩

theorem Yields.refl (s : State) : Yields s s := .of_eq rfl rfl rfl rfl

theorem Yields.state (h : Yields s t) : t.sc.state = s.sc.state := by rw [h.sc]

theorem Yields.trans (h : Yields s t) (g : Yields t u) : Yields s u :=
  ⟨g.sc.trans (by rw [h.sc]), g.tk.trans h.tk, fun ch => (g.p ch).trans (h.p ch), fun ch => (g.v ch).trans (h.v ch),
    fun ch => (g.off ch).trans (h.off ch), fun hs => (g.stopped (by rwa [h.state])).trans (h.stopped hs),
    fun hs hidle => g.idle (by rwa [h.state]) (h.idle hs hidle)⟩

theorem Yields.chans {f : Chan → State → State} (h : ∀ ch s, Yields s (f ch s)) (chans : List Chan) (s : State) :
    Yields s (forChans f chans s) :=
  forChans_induct (Yields s) f chans s (fun ch t ht => ht.trans (h ch t)) (.refl s)

theorem TakeWork.yields (h : TakeWork s t)
    (hidle : s.sc.state ≠ .run → workingPhase s.te.phase = false → workingPhase t.te.phase = false) : Yields s t :=
  ⟨by rw [h.eq], by rw [h.eq], h.p, h.v, h.off, h.stopped, hidle⟩

theorem Yields.ask (r : ModeRequest) (ch : Chan) (s : State) : Yields s (ask r ch s) :=
  (TakeWork.ask r ch s).yields fun _ h => by rwa [ask_frame]

theorem loseTake_yields (fault : TakeFault) (s : State) : Yields s (loseTake fault s) :=
  (TakeWork.lose fault s).yields fun _ h => by rwa [loseTake_rests _ (restsAtFrames_of_not_working h)]

/-! ## Desk commands -/

theorem takeCommand_yields (serial : Byte) {f : State → State} (hf : ∀ u, Yields u (f u)) (s : State) :
    Yields s (takeCommand serial f s) := by
  have hserial : Yields s { s with te := { s.te with serial := serial } } := (TakeWork.report s _ s.ts).yields fun _ h => h
  unfold takeCommand
  split
  · exact hserial.trans (hf _)
  · exact .refl s

theorem recordFault_stopped (take : Nat) (start : Word) (hstop : s.sc.state ≠ .run) : recordFault take start s ≠ .none := by
  unfold recordFault
  rw [if_pos hstop]
  split <;> exact fun h => nomatch h

/-- RECORD is refused outside RUN (R152). -/
theorem recordTake_yields (take : Nat) (start : Word) (s : State) : Yields s (recordTake take start s) := by
  unfold recordTake
  split
  · next h => exact (TakeWork.report s _ s.ts).yields fun hstop _ => absurd h (recordFault_stopped take start hstop)
  · exact (TakeWork.report s _ s.ts).yields fun _ h => h

theorem endTake_yields (s : State) : Yields s (endTake s) := by
  obtain ⟨-, h⟩ | ⟨-, h⟩ | ⟨-, -, h⟩ | ⟨-, -, -, h⟩ := endTake_cases s <;> rw [h]
  · refine (TakeWork.endDone (.report s s.te _) .none).yields fun _ _ => ?_
    rw [endDone_frame]; rfl
  · exact ((TakeWork.refl s).endPhase _ _).yields fun _ _ => rfl
  · exact .refl s
  · exact (TakeWork.report s _ s.ts).yields fun _ h => h

theorem cueTake_yields (take : Nat) (s : State) : Yields s (cueTake take s) := by
  unfold cueTake
  split
  · simp only []
    split
    · exact (TakeWork.report s _ _).yields fun _ _ => rfl
    · exact ((TakeWork.report s _ s.ts).endPhase _ _).yields fun _ _ => rfl
  · exact (TakeWork.report s _ s.ts).yields fun _ h => h

theorem runTake_yields (take : Nat) (start : Word) (rate length : Nat) (s : State) : Yields s (runTake take start rate length s) := by
  unfold runTake
  split <;> exact (TakeWork.report s _ s.ts).yields fun _ h => h

theorem abortTake_yields (s : State) : Yields s (abortTake s) := by
  have hidle : workingPhase (abortTake s).te.phase = false := by
    rw [abortTake_frame]
    show workingPhase (abortedReport s.te).phase = false
    rw [abortedReport_phase]; rfl
  have hwork : TakeWork s (abortTake s) := by
    obtain ⟨-, h⟩ | ⟨-, h⟩ | ⟨-, h⟩ | ⟨-, h⟩ | ⟨-, h⟩ := abortTake_cases s <;> rw [h]
    · exact .refl s
    · exact (TakeWork.refl s).endPhase _ _
    · exact TakeWork.endPhase (.report s s.te _) _ _
    · exact TakeWork.endPhase (.report s s.te _) _ _
    · exact (TakeWork.hold _ s).endPhase _ _
  exact hwork.yields fun _ _ => hidle

theorem eraseTake_yields (take : Nat) (s : State) : Yields s (eraseTake take s) := by
  unfold eraseTake
  split
  · exact (TakeWork.report s _ s.ts).yields fun _ h => h
  · split <;> exact (TakeWork.report s _ _).yields fun _ h => h

theorem protectTake_yields (take : Nat) (s : State) : Yields s (protectTake take s) := by
  unfold protectTake
  split <;> exact (TakeWork.report s _ _).yields fun _ h => h

theorem liveOrder_yields (s : State) : Yields s (liveOrder s) := by
  unfold liveOrder
  split
  · exact (TakeWork.live s).yields fun _ h => by rwa [liveRequests_te]
  · exact (TakeWork.report s _ s.ts).yields fun _ h => h

/-- A run begins by an accepted request. -/
theorem startRun_yields (ch : Chan) (s : State) : Yields s (startRun ch s) := by
  rw [startRun_eq]
  split
  · next h =>
    have hask : modMo ch (acceptMode .ref) s = ask .ref ch s := by
      obtain ⟨why, hwhy, -⟩ | ⟨-, hreq⟩ := request_cases .ref ch s
      · rw [h.2] at hwhy; cases hwhy
      · rw [ask, hreq]
    unfold runBegun
    rw [hask]
    exact (Yields.ask .ref ch s).trans (.of_eq rfl rfl rfl rfl)
  · exact .refl s

theorem abortRun_yields (ch : Chan) (s : State) : Yields s (abortRun ch s) := by
  unfold abortRun failRun
  split
  · refine Yields.trans (.of_eq ?_ ?_ ?_ ?_) (.ask _ ch _) <;> rfl
  · exact .refl s

theorem executeDesk_yields (c : DeskContent) (s : State) : Yields s (executeDesk c s) := by
  unfold executeDesk
  split
  · exact .refl s
  · exact takeCommand_yields _ (recordTake_yields _ _) s
  · exact takeCommand_yields _ endTake_yields s
  · exact takeCommand_yields _ (cueTake_yields _) s
  · exact takeCommand_yields _ (runTake_yields _ _ _ _) s
  · exact (takeCommand_yields _ abortTake_yields s).trans (.chans abortRun_yields _ _)
  · exact takeCommand_yields _ (eraseTake_yields _) s
  · exact takeCommand_yields _ (protectTake_yields _) s
  · exact takeCommand_yields _ liveOrder_yields s
  · unfold referenceCommand
    split
    · exact .chans startRun_yields _ s
    · exact .refl s
  · exact ⟨rfl, rfl, fun _ => rfl, fun _ => rfl, fun _ => Iff.rfl, fun _ => rfl, fun _ h => h⟩

/-! ## The serial and the slots that the take engine holds -/

/-- The adopted serial in the take report, and the samples in the store. -/
def filed (s : State) : Byte × List (Nat × Word) := (s.te.serial, s.ts.slots)

def KeepsFiled (f : State → State) : Prop := ∀ s, filed (f s) = filed s

theorem liveRequests_filed : KeepsFiled liveRequests := fun s => by rw [liveRequests_frame]; rfl

theorem holdAtSetpoint_filed (chans : List Chan) : KeepsFiled (holdAtSetpoint chans) := fun s => by rw [holdAtSetpoint_frame]; rfl

theorem loseTake_filed (fault : TakeFault) : KeepsFiled (loseTake fault) := fun s => by
  unfold loseTake
  split
  · rfl
  · rfl
  · exact holdAtSetpoint_filed _ s
  · exact holdAtSetpoint_filed _ s
  all_goals rfl

theorem endDone_filed (fault : TakeFault) : KeepsFiled (endDone fault) := fun s => by rw [endDone_frame]; rfl

theorem endTake_filed : KeepsFiled endTake := fun s => by
  obtain ⟨-, h⟩ | ⟨-, h⟩ | ⟨-, -, h⟩ | ⟨-, -, -, h⟩ := endTake_cases s <;> rw [h]
  · exact endDone_filed _ _
  all_goals rfl

theorem recordTake_serial (take : Nat) (start : Word) (s : State) : (recordTake take start s).te.serial = s.te.serial := by
  unfold recordTake; split <;> rfl

theorem cueTake_serial (take : Nat) (s : State) : (cueTake take s).te.serial = s.te.serial := by
  unfold cueTake
  split
  · simp only []; split <;> rfl
  · rfl

theorem runTake_serial (take : Nat) (start : Word) (rate length : Nat) (s : State) :
    (runTake take start rate length s).te.serial = s.te.serial := by
  unfold runTake; split <;> rfl

theorem protectTake_serial (take : Nat) (s : State) : (protectTake take s).te.serial = s.te.serial := by
  unfold protectTake; split <;> rfl

theorem liveOrder_serial (s : State) : (liveOrder s).te.serial = s.te.serial := by
  unfold liveOrder
  split
  · rw [liveRequests_te]
  · rfl

theorem abortTake_serial (s : State) : (abortTake s).te.serial = s.te.serial := by
  rw [abortTake_frame]; exact abortedReport_serial s.te

theorem takeCommand_serial (serial : Byte) {f : State → State} (hf : ∀ u, (f u).te.serial = u.te.serial) (hcapable : takeCapable s = true) :
    (takeCommand serial f s).te.serial = serial := by
  rw [takeCommand_capable serial f hcapable, hf]; rfl

/-- A desk command of the take engine leaves its serial in the report (R150). -/
theorem executeDesk_serial {c : DeskContent} (hkind : deskKind? c.kind ≠ none) (hcode : c.kind.toNat ≤ 8) (hcapable : takeCapable s = true) :
    (executeDesk c s).te.serial = c.serial := by
  have hother : ∀ k, 9 ≤ (codeDesk k).toNat → deskKind? c.kind ≠ some k := by
    intro k hk h
    have hfound := List.find?_some h
    have hcodes : codeDesk k = c.kind := of_decide_eq_true hfound
    rw [hcodes] at hk
    omega
  unfold executeDesk
  split
  · next h => exact absurd h hkind
  · exact takeCommand_serial _ (recordTake_serial _ _) hcapable
  · exact takeCommand_serial _ (fun u => congrArg Prod.fst (endTake_filed u)) hcapable
  · exact takeCommand_serial _ (cueTake_serial _) hcapable
  · exact takeCommand_serial _ (runTake_serial _ _ _ _) hcapable
  · rw [abortRuns_frame]
    exact takeCommand_serial _ abortTake_serial hcapable
  · exact takeCommand_serial _ (fun u => (eraseTake_frame _ u).2.1) hcapable
  · exact takeCommand_serial _ (protectTake_serial _) hcapable
  · exact takeCommand_serial _ liveOrder_serial hcapable
  · next h => exact absurd h (hother .reference (by decide))
  · next h => exact absurd h (hother .release (by decide))

/-! ## A peer's stop -/

theorem takeStopped_filed : KeepsFiled takeStopped := fun s => by unfold takeStopped; split <;> rfl

theorem failRunStopped_filed (ch : Chan) : KeepsFiled (failRunStopped ch) := fun s => by
  simp only [failRunStopped]; split <;> rfl

theorem KeepsFiled.chans {f : Chan → State → State} (h : ∀ ch, KeepsFiled (f ch)) (chans : List Chan) : KeepsFiled (forChans f chans) :=
  fun s => forChans_induct (fun t => filed t = filed s) f chans s (fun ch t ht => (h ch t).trans ht) rfl

theorem stopNotice_filed (old new : StopState) : KeepsFiled (stopNotice old new) := fun s => by
  have hleft : filed (if old = .run && new ≠ .run then takeStopped (forChans failRunStopped Chan.list s) else s) = filed s := by
    split
    · exact (takeStopped_filed _).trans (KeepsFiled.chans failRunStopped_filed _ s)
    · rfl
  simp only [stopNotice]
  generalize (if old = .run && new ≠ .run then takeStopped (forChans failRunStopped Chan.list s) else s) = u at hleft ⊢
  rw [stoppedLamp_frame]
  refine Eq.trans (b := filed (if new = .run then liveRequests u else u)) rfl ?_
  split
  · exact (liveRequests_filed u).trans hleft
  · exact hleft

theorem enterStopping_filed : KeepsFiled enterStopping := fun s => by
  simp only [enterStopping]
  have hramp := (stopNotice_filed s.sc.state .stopping _).trans
    (KeepsFiled.chans (f := requestStopping) (fun _ _ => rfl)
      (axisChans (setStop .stopping (some (after s.clock (s.cfg.stopTimeout * 1000))) none none s))
      (setStop .stopping (some (after s.clock (s.cfg.stopTimeout * 1000))) none none s))
  split
  · exact (stopNotice_filed _ _ _).trans hramp
  · exact hramp

theorem actOnCause_ramp_filed : KeepsFiled (actOnCause false) := fun s => by
  obtain ⟨-, h⟩ | ⟨-, h⟩ | ⟨-, h⟩ | ⟨-, h⟩ := actOnCause_cases false s <;> rw [h]
  · exact enterStopping_filed s
  · rfl
  · rfl

theorem peerStop_filed (origin channel zone : Byte) : KeepsFiled (raiseCause .peerStop origin channel zone) := fun s => by
  rw [raiseCause_peerStop]
  exact actOnCause_ramp_filed _

/-- A peer's stop leaves the release frame. -/
theorem peerStop_releaseFrame (origin channel zone : Byte) (s : State) :
    (raiseCause .peerStop origin channel zone s).sc.releaseFrame = s.sc.releaseFrame := by
  rw [raiseCause_peerStop]
  obtain ⟨-, h⟩ | ⟨-, h⟩ | ⟨-, h⟩ | ⟨-, h⟩ := actOnCause_cases false (recordCause .peerStop origin channel zone s) <;> rw [h]
  · obtain ⟨hsc | hsc, -⟩ := enterStopping_sc (recordCause .peerStop origin channel zone s) <;> rw [if_neg (by decide), hsc] <;> rfl
  · rfl
  · rfl
  · rfl

/-- In STOPPING, BRAKING and HALTED a peer's stop is recorded and no more (R121). -/
theorem peerStop_stopped {origin channel zone : Byte} (h : s.sc.state = .stopping ∨ s.sc.state = .braking ∨ s.sc.state = .halted) :
    raiseCause .peerStop origin channel zone s = recordCause .peerStop origin channel zone s := by
  rw [raiseCause_peerStop]
  rcases h with h | h | h <;> simp [actOnCause, recordCause_state, h]

end Sys2Proof.Machine
end

section
/-! PROOFS. O39: the notices of a STATE arrival one by one, and in their free order what each of them changes once while the others leave it
(R68, R69, R92, R99 to R101, R107, R129, R131, R168, R169). -/

namespace Sys2Proof.Machine

variable {s t u v : State} {ch : Chan} {source : Nat} {body : List Byte} {seq : Byte} {c : DeskContent}

/-! ## The alignment reading (R68, R69) -/

/-- A reading that confirms the difference of the reading before it. -/
def corrects (seq : Byte) (deskCount : Word) (f : FrameTimer) : Prop :=
  deskCount - f.count ≠ 0 ∧ f.reading = some (seq - 1, deskCount - f.count)

/-- The frame timer after a reading. -/
def readTimer (seq : Byte) (deskCount : Word) (f : FrameTimer) : FrameTimer :=
  if deskCount - f.count = 0 then { f with aligned := true, reading := some (seq, 0) }
  else if f.reading = some (seq - 1, deskCount - f.count) then { f with count := deskCount, aligned := true, reading := none }
  else { f with aligned := false, reading := some (seq, deskCount - f.count) }

theorem follows_iff (reading : Option (Byte × Word)) (seq : Byte) (d : Word) :
    (reading.any fun r => seq = r.1 + 1 && r.2 = d) = true ↔ reading = some (seq - 1, d) := by
  cases reading with
  | none => simp
  | some r =>
    obtain ⟨last, d'⟩ := r
    simp only [Option.any_some, Bool.and_eq_true, decide_eq_true_eq, Option.some.injEq, Prod.mk.injEq]
    exact and_congr_left fun _ => ⟨fun h => by rw [h]; bv_omega, fun h => by rw [h]; bv_omega⟩

theorem loseTake_ft (fault : TakeFault) (s : State) : (loseTake fault s).ft = s.ft := congrArg Standing.ft (loseTake_stands fault s)

/-- The take engine's loss with the timer and the release frame moved to the desk's count. -/
def countMoved (count : Word) (s : State) : State :=
  { loseTake .alignLost s with
    ft := { s.ft with count := count, aligned := true, reading := none }, sc := { s.sc with releaseFrame := count } }

theorem correctAlignment_eq (count : Word) (s : State) : correctAlignment (count - s.ft.count) s = countMoved count s := by
  have hsc : (loseTake .alignLost s).sc = s.sc := by rw [(TakeWork.lose .alignLost s).eq]
  have hcount : s.ft.count + (count - s.ft.count) = count := by bv_omega
  unfold correctAlignment countMoved
  simp only [loseTake_ft, hsc, hcount]

/-- A reading that corrects, and one that changes the timer alone. -/
theorem alignmentReading_cases (seq : Byte) (count : Word) (s : State) :
    (corrects seq count s.ft ∧ alignmentReading seq count s = countMoved count s) ∨
      (¬corrects seq count s.ft ∧ alignmentReading seq count s = { s with ft := readTimer seq count s.ft }) := by
  unfold alignmentReading corrects readTimer
  by_cases hd : count - s.ft.count = 0
  · exact .inr ⟨fun h => h.1 hd, by simp only [hd, if_true]⟩
  · have hfollows := follows_iff s.ft.reading seq (count - s.ft.count)
    by_cases hreading : s.ft.reading = some (seq - 1, count - s.ft.count)
    · exact .inl ⟨⟨hd, hreading⟩, by simp only [hd, if_false, if_pos (hfollows.mpr hreading), correctAlignment_eq]⟩
    · refine .inr ⟨fun h => hreading h.2, ?_⟩
      simp only [hd, if_false, if_neg (mt hfollows.mp hreading), if_neg hreading]

theorem readTimer_corrects {f : FrameTimer} {count : Word} (h : corrects seq count f) :
    readTimer seq count f = { f with count := count, aligned := true, reading := none } := by
  rw [readTimer, if_neg h.1, if_pos h.2]

theorem alignmentReading_ft (seq : Byte) (count : Word) (s : State) : (alignmentReading seq count s).ft = readTimer seq count s.ft := by
  obtain ⟨h, heq⟩ | ⟨-, heq⟩ := alignmentReading_cases seq count s <;> rw [heq]
  exact (readTimer_corrects h).symm

theorem alignmentReading_standing (seq : Byte) (count : Word) (s : State) :
    standing (alignmentReading seq count s) = { standing s with ft := readTimer seq count s.ft } := by
  obtain ⟨h, heq⟩ | ⟨-, heq⟩ := alignmentReading_cases seq count s <;> rw [heq]
  · rw [readTimer_corrects h, ← loseTake_stands .alignLost s]
    have hsc : (loseTake .alignLost s).sc = s.sc := by rw [(TakeWork.lose .alignLost s).eq]
    simp only [standing, countMoved, hsc]
  · rfl

/-- A station whose release frame is another. -/
def withRelease (count : Word) (s : State) : State := { s with sc := { s.sc with releaseFrame := count } }

theorem countMoved_yields (count : Word) (s : State) : Yields (withRelease count s) (countMoved count s) := by
  have h := loseTake_yields .alignLost s
  exact ⟨rfl, h.tk, h.p, h.v, h.off, h.stopped, h.idle⟩

/-! ## The reading of the desk command (R99 to R101) -/

theorem adoptArrival_standing (seq : Byte) (c : DeskContent) (s : State) :
    standing (adoptArrival seq c s) =
      { standing s with
        earlier := some (seq, c), adopted := (rememberReading seq c s.pt).adopted
        pendingRelease := s.sc.pendingRelease || (adopts seq c s.pt && c.kind = codeDesk .release) } := by
  unfold adoptArrival
  simp only []
  split
  · next hadopts =>
    by_cases hkind : deskKind? c.kind = some .release
    · rw [executeDesk_release hkind]
      simp [standing, holdRelease, hadopts, rememberReading, (deskKind?_release _).mp hkind]
    · have hother : c.kind ≠ codeDesk .release := fun h => hkind ((deskKind?_release _).mpr h)
      rw [executeDesk_stands hkind]
      simp [standing, rememberReading, hother]
  · next hnot => simp [standing, rememberReading, hnot]

theorem adoptArrival_yields (seq : Byte) (c : DeskContent) (s : State) : Yields s (adoptArrival seq c s) := by
  have hpt : Yields s { s with pt := rememberReading seq c s.pt } := .of_eq rfl rfl rfl rfl
  unfold adoptArrival
  simp only []
  split
  · exact hpt.trans (executeDesk_yields c _)
  · exact hpt

theorem adoptArrival_keeps (h : adopts seq c s.pt = false) :
    adoptArrival seq c s = { s with pt := rememberReading seq c s.pt } := by
  simp [adoptArrival, h]

/-- A content just remembered is not adopted again: its sequence number does not follow itself (R99). -/
theorem adopts_remembered (seq : Byte) (c : DeskContent) (pt : PeerTable) : adopts seq c (rememberReading seq c pt) = false := by
  simp [adopts, rememberReading]

theorem adopts_congr {pt pt' : PeerTable} (hearlier : pt'.earlier = pt.earlier) (hadopted : pt'.adopted = pt.adopted)
    (hjoin : pt'.join = pt.join) : adopts seq c pt' = adopts seq c pt := by
  unfold adopts; rw [hearlier, hadopted, hjoin]

theorem adopts_kind {pt : PeerTable} (h : adopts seq c pt = true) : deskKind? c.kind ≠ none := by
  simp only [adopts, adoptable, Bool.and_eq_true] at h
  obtain ⟨⟨⟨⟨⟨hkind, -⟩, -⟩, -⟩, -⟩, -⟩ := h
  exact Option.isSome_iff_ne_none.mp hkind

/-! ## The stop notice (R129) -/

theorem bodyStopped_iff (body : List Byte) :
    bodyStopped body = true ↔ byteAt body 6 = 1 ∨ byteAt body 6 = 2 ∨ byteAt body 6 = 3 := by
  simp only [bodyStopped, Bool.or_eq_true, decide_eq_true_eq, or_assoc]
  exact Iff.rfl

/-- The first-cause origin that a STATE body publishes, or its source. -/
def stopOrigin (source : Nat) (body : List Byte) : Byte := if byteAt body 8 = 0 then BitVec.ofNat 8 source else byteAt body 8

/-- The publication of a stop that the release frame lets through. -/
def stopsNow (body : List Byte) (s : State) : Prop := bodyStopped body = true ∧ s.sc.releaseFrame.toNat ≤ (bodyCount body).toNat

theorem peerStopNotice_stops (h : stopsNow body s) :
    peerStopNotice source body s = raiseCause .peerStop (stopOrigin source body) 0 0 s := by
  simp [peerStopNotice, h.1, h.2, stopOrigin]

theorem peerStopNotice_keeps (h : ¬stopsNow body s) : peerStopNotice source body s = s := by
  unfold peerStopNotice
  rw [if_neg fun hboth => h (by simpa [stopsNow] using hboth)]

theorem peerStopNotice_cases (source : Nat) (body : List Byte) (s : State) :
    peerStopNotice source body s = raiseCause .peerStop (stopOrigin source body) 0 0 s ∨ peerStopNotice source body s = s := by
  by_cases h : stopsNow body s
  · exact .inl (peerStopNotice_stops h)
  · exact .inr (peerStopNotice_keeps h)

theorem peerStopNotice_stands (source : Nat) (body : List Byte) : Stands (peerStopNotice source body) := fun s => by
  obtain h | h := peerStopNotice_cases source body s <;> rw [h]
  exact raiseCause_stands _ _ _ _ s

theorem peerStopNotice_filed (source : Nat) (body : List Byte) : KeepsFiled (peerStopNotice source body) := fun s => by
  obtain h | h := peerStopNotice_cases source body s <;> rw [h]
  exact peerStop_filed _ _ _ s

theorem peerStopNotice_rest (source : Nat) (body : List Byte) : KeepsRest (peerStopNotice source body) := fun s hs => by
  obtain h | h := peerStopNotice_cases source body s <;> rw [h]
  · exact raiseCause_rest _ _ _ _ s hs
  · exact hs

theorem peerStopNotice_releaseFrame (source : Nat) (body : List Byte) (s : State) :
    (peerStopNotice source body s).sc.releaseFrame = s.sc.releaseFrame := by
  obtain h | h := peerStopNotice_cases source body s <;> rw [h]
  exact peerStop_releaseFrame _ _ _ s

/-- What the stop notice finds of the station that the arrival met. -/
structure Unstopped (s t : State) : Prop where
  state : t.sc.state = s.sc.state
  first : t.sc.first = s.sc.first
  last : t.sc.last = s.sc.last
  causes : t.sc.causes = s.sc.causes
  stopSlot : t.tk.stopSlot = s.tk.stopSlot
  cfg : t.cfg = s.cfg
  p : ∀ ch, (t.mo.get ch).p = (s.mo.get ch).p
  v : ∀ ch, (t.mo.get ch).v = (s.mo.get ch).v
  off : ∀ ch, (t.mo.get ch).mode = .off ↔ (s.mo.get ch).mode = .off

theorem Unstopped.of_eq (hsc : t.sc = s.sc) (htk : t.tk = s.tk) (hmo : t.mo = s.mo) (hcfg : t.cfg = s.cfg) : Unstopped s t :=
  ⟨by rw [hsc], by rw [hsc], by rw [hsc], by rw [hsc], by rw [htk], hcfg, fun _ => by rw [hmo], fun _ => by rw [hmo],
    fun _ => by rw [hmo]⟩

theorem Unstopped.yields {count : Word} (h : Unstopped s t) (g : Yields (withRelease count t) u) (hcfg : u.cfg = t.cfg) : Unstopped s u := by
  refine ⟨?_, ?_, ?_, ?_, ?_, hcfg.trans h.cfg, fun ch => (g.p ch).trans (h.p ch), fun ch => (g.v ch).trans (h.v ch),
    fun ch => (g.off ch).trans (h.off ch)⟩
  · rw [g.sc]; exact h.state
  · rw [g.sc]; exact h.first
  · rw [g.sc]; exact h.last
  · rw [g.sc]; exact h.causes
  · rw [g.tk]; exact h.stopSlot

/-- What a PEER_STOP leaves of the station that the arrival met, but for the frame of its record (R121, R127, R129). -/
structure StoppedBy (origin : Byte) (s t : State) : Prop where
  last : (t.sc.last.map fun r => (r.kind, r.origin, r.channel, r.zone, r.met)) = some (.peerStop, origin, 0, 0, s.sc.state)
  causes : t.sc.causes = satIncr 255 s.sc.causes
  stopSlot : t.tk.stopSlot = s.tk.stopSlot
  fromRun : s.sc.state = .run → t.sc.first = t.sc.last ∧ t.sc.state = (if allAtRest s then .braking else .stopping)
    ∧ workingPhase t.te.phase = false
    ∧ ∀ ch, isAxis s ch = true → (s.mo.get ch).mode ≠ .off →
        (t.mo.get ch).mode = .hold ∧ (t.mo.get ch).hold = floorDiv (s.mo.get ch).p 256
  stopped : s.sc.state = .stopping ∨ s.sc.state = .braking ∨ s.sc.state = .halted →
    t.sc.first = s.sc.first ∧ t.sc.state = s.sc.state

/-- A PEER_STOP on the station, as the other notices have left it. -/
theorem Unstopped.stops (h : Unstopped s t) (origin : Byte) : StoppedBy origin s (raiseCause .peerStop origin 0 0 t) := by
  obtain ⟨hlast, hfirst, hcauses⟩ := raiseCause_records .peerStop origin 0 0 t
  obtain ⟨-, htk, -⟩ := peerStop_keeps origin 0 0 t
  refine ⟨?_, ?_, ?_, fun hrun => ?_, fun hstopped => ?_⟩
  · rw [hlast, Option.map_some, h.state]
  · rw [hcauses, h.causes]
  · rw [htk, h.stopSlot]
  · have hrun' : t.sc.state = .run := h.state.trans hrun
    have haxis : ∀ k, isAxis t k = isAxis s k := fun k => by unfold isAxis chanCfg; rw [h.cfg]
    obtain ⟨hphase, hstate, hchans⟩ := peerStop_fromRun origin 0 0 hrun'
    refine ⟨?_, ?_, hphase, fun k hk hmode => ?_⟩
    · rw [hfirst, hlast, hrun']; rfl
    · rw [hstate, allAtRest_congr haxis h.off h.v]
    · obtain ⟨hmode', hhold⟩ := hchans k (by rw [haxis]; exact hk) fun hoff => hmode ((h.off k).mp hoff)
      exact ⟨hmode', by rw [hhold, h.p]⟩
  · rw [peerStop_stopped (by rwa [h.state])]
    refine ⟨?_, h.state⟩
    have hnot : underWay t.sc.state = false := by rw [h.state]; rcases hstopped with h | h | h <;> rw [h] <;> rfl
    show (if underWay t.sc.state then _ else t.sc.first) = s.sc.first
    rw [hnot]
    exact h.first

/-- What yields leaves a stop as it is. -/
theorem StoppedBy.yields {origin : Byte} {count : Word} (h : StoppedBy origin s t) (g : Yields (withRelease count t) u) :
    StoppedBy origin s u := by
  have hstate : u.sc.state = t.sc.state := by rw [g.sc]; rfl
  have hfirst : u.sc.first = t.sc.first := by rw [g.sc]; rfl
  have hlast : u.sc.last = t.sc.last := by rw [g.sc]; rfl
  have hcauses : u.sc.causes = t.sc.causes := by rw [g.sc]; rfl
  refine ⟨by rw [hlast]; exact h.last, hcauses.trans h.causes, by rw [g.tk]; exact h.stopSlot, fun hrun => ?_, fun hstopped => ?_⟩
  · obtain ⟨hfirst', hstate', hphase, hchans⟩ := h.fromRun hrun
    have hleft : t.sc.state ≠ .run := by rw [hstate']; split <;> decide
    have hmo : u.mo = t.mo := g.stopped hleft
    rw [hstate, hfirst, hlast, hmo]
    exact ⟨hfirst', hstate', g.idle hleft hphase, hchans⟩
  · rw [hstate, hfirst]
    exact h.stopped hstopped

end Sys2Proof.Machine
end

section
/-! PROOFS. O39: the free order of an arrival's notices, each read where the others leave what it reads (R92, R107), and the obligation. -/

namespace Sys2Proof.Machine

variable {s t u v : State} {ch : Chan} {source : Nat} {body : List Byte} {seq : Byte} {c : DeskContent} {consec : Bool}

/-! ## The presence notice (R92, R107) -/

/-- A zone after the presence notice. -/
def presenceTaken (source : Nat) (body : List Byte) (consec : Bool) (now : Word) (station : Nat) (z : Zone) : Zone :=
  match z.cfg.source with
  | .always => z
  | .line st line => if st = source && st ≠ station then remoteReading now (bodyPresence body line) consec z else z

theorem presenceNotice_eq (source : Nat) (body : List Byte) (consec : Bool) (s : State) :
    presenceNotice source body consec s =
      { s with
        zm := { s.zm with zones := s.zm.zones.map (presenceTaken source body consec s.clock s.su.station.toNat) } } := rfl

theorem presenceTaken_line {z : Zone} {line station : Nat} (now : Word) (hline : z.cfg.source = .line source line)
    (hother : source ≠ station) :
    presenceTaken source body consec now station z = remoteReading now (bodyPresence body line) consec z := by
  simp [presenceTaken, hline, hother]

theorem presenceTaken_other {z : Zone} (now : Word) (station : Nat) (h : ∀ line, z.cfg.source ≠ .line source line) :
    presenceTaken source body consec now station z = z := by
  unfold presenceTaken
  cases hsource : z.cfg.source with
  | always => rfl
  | line st line =>
    have hst : st ≠ source := fun hst => h line (by rw [hsource, hst])
    simp [hst]

theorem consecutive_iff (held : Option Byte) (seq : Byte) : consecutive held seq = true ↔ held = some (seq - 1) := by
  cases held with
  | none => simp [consecutive]
  | some last =>
    simp only [consecutive, Option.any_some, decide_eq_true_eq, Option.some.injEq]
    exact ⟨fun h => by bv_omega, fun h => by rw [h]; bv_omega⟩

/-- The readings of a remote line (R107). -/
theorem remoteReading_spec (now : Word) (occupied : Bool) (z : Zone) :
    let z' := remoteReading now occupied consec z
    (occupied = true → z' = { z with arming := .armed, timer := none, mark := false })
    ∧ (occupied = false → consec = false → z' = { z with arming := .armed, timer := none, mark := true })
    ∧ (occupied = false → consec = true → z.mark = false → z' = { z with mark := true })
    ∧ (occupied = false → consec = true → z.mark = true → z.arming = .armed →
        z' = { z with arming := .holding, timer := some (after now (z.cfg.clearHold * 1000)) })
    ∧ (occupied = false → consec = true → z.mark = true → z.arming ≠ .armed → z' = z) := by
  intro z'
  refine ⟨fun ho => ?_, fun ho hc => ?_, fun ho hc hm => ?_, fun ho hc hm ha => ?_, fun ho hc hm ha => ?_⟩
  · simp [z', remoteReading, ho, armZone]
  · simp [z', remoteReading, ho, hc, armZone]
  · simp [z', remoteReading, ho, hc, hm]
  · simp [z', remoteReading, ho, hc, hm, ha, holdZone]
  · simp [z', remoteReading, ho, hc, hm, ha]

/-! ## The notices together -/

/-- The notices of an arrival from the desk but for the presence notice. -/
def deskReadings (source : Nat) (body : List Byte) : List (State → State) :=
  [peerStopNotice source body, alignmentReading (byteAt body 0) (bodyCount body), adoptArrival (byteAt body 0) (bodyDesk body)]

/-- The notices of an arrival from the desk. -/
def deskNotices (source : Nat) (body : List Byte) (consec : Bool) : List (State → State) :=
  presenceNotice source body consec :: deskReadings source body

/-- The notices of an arrival from a station that is not the desk. -/
def peerNotices (source : Nat) (body : List Byte) (consec : Bool) : List (State → State) :=
  [presenceNotice source body consec, peerStopNotice source body]

theorem mem_deskNotices {f : State → State} (h : f ∈ deskNotices source body consec) :
    f = presenceNotice source body consec ∨ f = peerStopNotice source body
      ∨ f = alignmentReading (byteAt body 0) (bodyCount body) ∨ f = adoptArrival (byteAt body 0) (bodyDesk body) := by
  simpa [deskNotices, deskReadings] using h

/-- What no notice changes. -/
def place (x : Standing) : Word × StartUp × Cfg × PerChan Binding × PerChan (Int × Option Int × Filt × Filt × Nat × Bool × Bool) :=
  (x.clock, x.su, x.cfg, x.bd, x.feedback)

theorem deskNotices_place {f : State → State} (h : f ∈ deskNotices source body consec) (t : State) :
    place (standing (f t)) = place (standing t) := by
  rcases mem_deskNotices h with rfl | rfl | rfl | rfl
  · rfl
  · rw [peerStopNotice_stands]
  · rw [alignmentReading_standing]; rfl
  · rw [adoptArrival_standing]; rfl

theorem deskReadings_zm {f : State → State} (h : f ∈ deskReadings source body) (t : State) : (f t).zm = t.zm := by
  show (standing (f t)).zm = (standing t).zm
  simp only [deskReadings, List.mem_cons, List.not_mem_nil, or_false] at h
  rcases h with rfl | rfl | rfl
  · rw [peerStopNotice_stands]
  · rw [alignmentReading_standing]
  · rw [adoptArrival_standing]

theorem deskNotices_placed (s : State) :
    place (standing (inAnyOrder (deskNotices source body consec) s)) = place (standing s) := by
  obtain ⟨l, o, d, hperm, heq⟩ := inAnyOrder_eq (deskNotices source body consec) s
  rw [heq]
  exact runAll_keeps (P := fun t => place (standing t) = place (standing s))
    (fun f hf t ht => (deskNotices_place (hperm.mem_iff.mp hf) t).trans ht) rfl

/-- The presence notice finds the zones, the station number and the station time as they were. -/
theorem notices_zm {rest : List (State → State)} (hsub : ∀ f ∈ rest, f ∈ deskReadings source body) :
    (inAnyOrder (presenceNotice source body consec :: rest) s).zm = (presenceNotice source body consec s).zm := by
  let Unread : State → Prop := fun t => t.zm = s.zm ∧ t.clock = s.clock ∧ t.su = s.su
  refine inAnyOrder_one (P := Unread) (Q := fun t => t.zm = (presenceNotice source body consec s).zm)
    (fun t ⟨hzm, hclock, hsu⟩ => ?_) (fun f hf => ⟨fun t ⟨hzm, hclock, hsu⟩ => ?_, fun t ht => ?_⟩) (List.Perm.refl _)
    fun _ _ => ⟨rfl, rfl, rfl⟩
  · rw [presenceNotice_eq, presenceNotice_eq, hzm, hclock, hsu]
  · have hplace := deskNotices_place (consec := consec) (List.mem_cons_of_mem _ (hsub f hf)) t
    simp only [place, Prod.mk.injEq] at hplace
    obtain ⟨hclock', hsu', -⟩ := hplace
    exact ⟨(deskReadings_zm (hsub f hf) t).trans hzm, Eq.trans hclock' hclock, Eq.trans hsu' hsu⟩
  · exact (deskReadings_zm (hsub f hf) t).trans ht

/-! ## An arrival from the desk -/

theorem deskNotices_perm_stop :
    (deskNotices source body consec).Perm (peerStopNotice source body ::
      [presenceNotice source body consec, alignmentReading (byteAt body 0) (bodyCount body), adoptArrival (byteAt body 0) (bodyDesk body)]) :=
  List.Perm.swap _ _ _

theorem deskNotices_perm_align :
    (deskNotices source body consec).Perm (alignmentReading (byteAt body 0) (bodyCount body) ::
      [presenceNotice source body consec, peerStopNotice source body, adoptArrival (byteAt body 0) (bodyDesk body)]) :=
  List.perm_middle (l₁ := [presenceNotice source body consec, peerStopNotice source body])

theorem deskNotices_perm_adopt :
    (deskNotices source body consec).Perm (adoptArrival (byteAt body 0) (bodyDesk body) ::
      [presenceNotice source body consec, peerStopNotice source body, alignmentReading (byteAt body 0) (bodyCount body)]) :=
  List.perm_middle (l₁ := [presenceNotice source body consec, peerStopNotice source body, alignmentReading (byteAt body 0) (bodyCount body)])

theorem adoptArrival_release (seq : Byte) (c : DeskContent) (s : State) :
    (adoptArrival seq c s).sc.releaseFrame = s.sc.releaseFrame := by
  rw [(adoptArrival_yields seq c s).sc]

/-- The notices that change neither the timer nor the release frame. -/
theorem notRead {f : State → State}
    (h : f ∈ [presenceNotice source body consec, peerStopNotice source body, adoptArrival (byteAt body 0) (bodyDesk body)]) (t : State) :
    (f t).ft = t.ft ∧ (f t).sc.releaseFrame = t.sc.releaseFrame := by
  simp only [List.mem_cons, List.not_mem_nil, or_false] at h
  rcases h with rfl | rfl | rfl
  · exact ⟨rfl, rfl⟩
  · exact ⟨congrArg Standing.ft (peerStopNotice_stands source body t), peerStopNotice_releaseFrame _ _ t⟩
  · exact ⟨congrArg Standing.ft (adoptArrival_standing _ _ t), adoptArrival_release _ _ t⟩

/-- The alignment reading finds the timer and the release frame as they were (R68, R69). -/
theorem deskNotices_timer (s : State) :
    let t := inAnyOrder (deskNotices source body consec) s
    t.ft = readTimer (byteAt body 0) (bodyCount body) s.ft
      ∧ (corrects (byteAt body 0) (bodyCount body) s.ft → t.sc.releaseFrame = bodyCount body)
      ∧ (¬corrects (byteAt body 0) (bodyCount body) s.ft → t.sc.releaseFrame = s.sc.releaseFrame) := by
  intro t
  refine inAnyOrder_one (P := fun t => t.ft = s.ft ∧ t.sc.releaseFrame = s.sc.releaseFrame)
    (Q := fun t => t.ft = readTimer (byteAt body 0) (bodyCount body) s.ft
      ∧ (corrects (byteAt body 0) (bodyCount body) s.ft → t.sc.releaseFrame = bodyCount body)
      ∧ (¬corrects (byteAt body 0) (bodyCount body) s.ft → t.sc.releaseFrame = s.sc.releaseFrame))
    (fun t ⟨hft, hrelease⟩ => ⟨by rw [alignmentReading_ft, hft], ?_⟩) (fun f hf => ⟨fun t ht => ?_, fun t ht => ?_⟩)
    deskNotices_perm_align fun _ _ => ⟨rfl, rfl⟩
  · obtain ⟨h, heq⟩ | ⟨h, heq⟩ := alignmentReading_cases (byteAt body 0) (bodyCount body) t <;> rw [hft] at h <;> rw [heq]
    · exact ⟨fun _ => rfl, fun hnot => absurd h hnot⟩
    · exact ⟨fun hyes => absurd hyes h, fun _ => hrelease⟩
  · obtain ⟨hft, hrelease⟩ := notRead hf t
    exact ⟨hft.trans ht.1, hrelease.trans ht.2⟩
  · obtain ⟨hft, hrelease⟩ := notRead hf t
    rw [hft, hrelease]
    exact ht

/-- A correction with no command adopted leaves no take armed, recorded, cued or played (R169). -/
theorem deskNotices_corrected (hcorrects : corrects (byteAt body 0) (bodyCount body) s.ft)
    (hadopts : adopts (byteAt body 0) (bodyDesk body) s.pt = false) :
    restsAtFrames (inAnyOrder (deskNotices source body consec) s).te.phase := by
  let Unadopted : State → Prop := fun t => adopts (byteAt body 0) (bodyDesk body) t.pt = false
  have hstill : ∀ f ∈ deskNotices source body consec, ∀ t, Unadopted t → Unadopted (f t) := by
    intro f hf t ht
    have hsame : standing (f t) = standing t → Unadopted (f t) := fun h =>
      (adopts_congr (congrArg Standing.earlier h) (congrArg Standing.adopted h) (congrArg Standing.join h)).trans ht
    rcases mem_deskNotices hf with rfl | rfl | rfl | rfl
    · exact ht
    · exact hsame (peerStopNotice_stands _ _ t)
    · have h := alignmentReading_standing (byteAt body 0) (bodyCount body) t
      exact (adopts_congr (congrArg Standing.earlier h) (congrArg Standing.adopted h) (congrArg Standing.join h)).trans ht
    · rw [adoptArrival_keeps ht]
      exact adopts_remembered _ _ _
  refine (inAnyOrder_one (P := fun t => t.ft = s.ft ∧ Unadopted t) (Q := fun t => restsAtFrames t.te.phase ∧ Unadopted t)
    (fun t ⟨hft, ht⟩ => ⟨?_, hstill _ (by simp [deskNotices, deskReadings]) t ht⟩) (fun f hf => ?_) deskNotices_perm_align
    fun _ _ => ⟨rfl, hadopts⟩).1
  · obtain ⟨-, heq⟩ | ⟨h, -⟩ := alignmentReading_cases (byteAt body 0) (bodyCount body) t
    · rw [heq]; exact loseTake_ends .alignLost t
    · rw [hft] at h; exact absurd hcorrects h
  · have hmem := deskNotices_perm_align.mem_iff.mpr (List.mem_cons_of_mem _ hf)
    refine ⟨fun t ht => ⟨(notRead hf t).1.trans ht.1, hstill f hmem t ht.2⟩, fun t ht => ⟨?_, hstill f hmem t ht.2⟩⟩
    simp only [List.mem_cons, List.not_mem_nil, or_false] at hf
    rcases hf with rfl | rfl | rfl
    · exact ht.1
    · exact peerStopNotice_rest _ _ t ht.1
    · rw [adoptArrival_keeps ht.2]; exact ht.1

end Sys2Proof.Machine
end

section
/-! PROOFS. O39: what an arrival's notices leave of the desk command and of the stop controller, the arrival whole, a lost lock, and the
obligation (R92, R99 to R101, R129, R131, R168, R169). -/

namespace Sys2Proof.Machine

variable {s t u v : State} {ch : Chan} {source : Nat} {body : List Byte} {consec : Bool}

/-! ## The desk command (R99, R100, R131, R150) -/

/-- What the reading of the desk command finds of the station that the arrival met. -/
structure Unadopted (s t : State) : Prop where
  cfg : t.cfg = s.cfg
  su : t.su = s.su
  pt : t.pt = s.pt
  release : t.sc.pendingRelease = s.sc.pendingRelease
  serial : t.te.serial = s.te.serial

/-- What the reading of the desk command leaves (R99 to R101). -/
structure Adopted (seq : Byte) (c : DeskContent) (s t : State) : Prop where
  join : t.pt.join = s.pt.join
  earlier : t.pt.earlier = some (seq, c)
  confirmed : t.pt.confirmed = s.pt.confirmed
  adopted : t.pt.adopted = (rememberReading seq c s.pt).adopted
  release : t.sc.pendingRelease = (s.sc.pendingRelease || (adopts seq c s.pt && c.kind = codeDesk .release))
  serial : adopts seq c s.pt = true → c.kind.toNat ≤ 8 → takeCapable s = true → t.te.serial = c.serial
  kept : adopts seq c s.pt = false → t.te.serial = s.te.serial

/-- What stands and the serial are all that the reading of the desk command finds or leaves. -/
theorem Unadopted.congr (h : Unadopted s t) (hcfg : u.cfg = t.cfg) (hsu : u.su = t.su) (hpt : u.pt = t.pt)
    (hrelease : u.sc.pendingRelease = t.sc.pendingRelease) (hserial : u.te.serial = t.te.serial) : Unadopted s u :=
  ⟨hcfg.trans h.cfg, hsu.trans h.su, hpt.trans h.pt, hrelease.trans h.release, hserial.trans h.serial⟩

theorem Adopted.congr {seq : Byte} {c : DeskContent} (h : Adopted seq c s t) (hpt : u.pt = t.pt)
    (hrelease : u.sc.pendingRelease = t.sc.pendingRelease) (hserial : u.te.serial = t.te.serial) : Adopted seq c s u :=
  ⟨by rw [hpt]; exact h.join, by rw [hpt]; exact h.earlier, by rw [hpt]; exact h.confirmed, by rw [hpt]; exact h.adopted,
    hrelease.trans h.release, fun ha hk hc => hserial.trans (h.serial ha hk hc), fun ha => hserial.trans (h.kept ha)⟩

theorem Unadopted.adopts (h : Unadopted s t) (seq : Byte) (c : DeskContent) : Adopted seq c s (adoptArrival seq c t) := by
  have hstanding := adoptArrival_standing seq c t
  refine ⟨?_, congrArg Standing.earlier hstanding, ?_, ?_, ?_, fun hadopts hcode hcapable => ?_, fun hnot => ?_⟩
  · exact (congrArg Standing.join hstanding).trans (congrArg PeerTable.join h.pt)
  · exact (congrArg Standing.confirmed hstanding).trans (congrArg PeerTable.confirmed h.pt)
  · rw [← h.pt]; exact congrArg Standing.adopted hstanding
  · rw [← h.pt, ← h.release]; exact congrArg Standing.pendingRelease hstanding
  · have hcapable' : takeCapable t = true := by
      rw [← hcapable]; unfold takeCapable validImage isAxis chanCfg; rw [h.cfg, h.su]
    have heq : adoptArrival seq c t = executeDesk c { t with pt := rememberReading seq c t.pt } := by
      unfold adoptArrival; rw [if_pos (by rw [h.pt]; exact hadopts)]
    rw [heq]
    exact executeDesk_serial (adopts_kind hadopts) hcode hcapable'
  · rw [adoptArrival_keeps (by rw [h.pt]; exact hnot)]
    exact h.serial

theorem pt_of_standing (h : standing t = standing s) : t.pt = s.pt := by
  have hpeers := congrArg Standing.peers h
  have hearlier := congrArg Standing.earlier h
  have hjoin := congrArg Standing.join h
  have hadopted := congrArg Standing.adopted h
  have hconfirmed := congrArg Standing.confirmed h
  cases hs : s.pt; cases ht : t.pt
  simp_all [standing]

/-- The notices that leave the peer table, a pending release and the serial. -/
theorem notAdopting {f : State → State}
    (h : f ∈ [presenceNotice source body consec, peerStopNotice source body, alignmentReading (byteAt body 0) (bodyCount body)])
    (t : State) : (f t).pt = t.pt ∧ (f t).sc.pendingRelease = t.sc.pendingRelease ∧ (f t).te.serial = t.te.serial := by
  simp only [List.mem_cons, List.not_mem_nil, or_false] at h
  rcases h with rfl | rfl | rfl
  · exact ⟨rfl, rfl, rfl⟩
  · have hstands := peerStopNotice_stands source body t
    exact ⟨pt_of_standing hstands, congrArg Standing.pendingRelease hstands, congrArg Prod.fst (peerStopNotice_filed source body t)⟩
  · obtain ⟨-, heq⟩ | ⟨-, heq⟩ := alignmentReading_cases (byteAt body 0) (bodyCount body) t <;> rw [heq]
    · have hpt : (loseTake .alignLost t).pt = t.pt := pt_of_standing (loseTake_stands .alignLost t)
      exact ⟨hpt, rfl, congrArg Prod.fst (loseTake_filed .alignLost t)⟩
    · exact ⟨rfl, rfl, rfl⟩

/-- The desk's command is read once, beside the other notices. -/
theorem deskNotices_adopted (s : State) :
    Adopted (byteAt body 0) (bodyDesk body) s (inAnyOrder (deskNotices source body consec) s) := by
  refine inAnyOrder_one (P := Unadopted s) (fun t ht => ht.adopts _ _) (fun f hf => ⟨fun t ht => ?_, fun t ht => ?_⟩)
    deskNotices_perm_adopt fun _ _ => ⟨rfl, rfl, rfl, rfl, rfl⟩
  · obtain ⟨hpt, hrelease, hserial⟩ := notAdopting hf t
    have hplace := deskNotices_place (consec := consec) (deskNotices_perm_adopt.mem_iff.mpr (List.mem_cons_of_mem _ hf)) t
    simp only [place, Prod.mk.injEq] at hplace
    obtain ⟨-, hsu, hcfg, -⟩ := hplace
    exact ht.congr hcfg hsu hpt hrelease hserial
  · obtain ⟨hpt, hrelease, hserial⟩ := notAdopting hf t
    exact ht.congr hpt hrelease hserial

/-! ## The stop controller (R121, R129) -/

/-- The notices but the stop notice yield to the stop controller, the release frame moved by a correction alone. -/
theorem notStopping {f : State → State}
    (h : f ∈ [presenceNotice source body consec, alignmentReading (byteAt body 0) (bodyCount body),
      adoptArrival (byteAt body 0) (bodyDesk body)]) (t : State) : ∃ count, Yields (withRelease count t) (f t) ∧ (f t).cfg = t.cfg
      ∧ (f t).sc.releaseFrame = count ∧ (count = t.sc.releaseFrame ∨ count = bodyCount body) := by
  simp only [List.mem_cons, List.not_mem_nil, or_false] at h
  rcases h with rfl | rfl | rfl
  · exact ⟨t.sc.releaseFrame, .of_eq rfl rfl rfl rfl, rfl, rfl, .inl rfl⟩
  · have hcfg := congrArg Standing.cfg (alignmentReading_standing (byteAt body 0) (bodyCount body) t)
    obtain ⟨-, heq⟩ | ⟨-, heq⟩ := alignmentReading_cases (byteAt body 0) (bodyCount body) t
    · refine ⟨bodyCount body, ?_, hcfg, ?_, .inr rfl⟩
      · rw [heq]; exact countMoved_yields _ t
      · rw [heq]; rfl
    · refine ⟨t.sc.releaseFrame, ?_, hcfg, ?_, .inl rfl⟩
      · rw [heq]; exact .of_eq rfl rfl rfl rfl
      · rw [heq]
  · exact ⟨t.sc.releaseFrame, adoptArrival_yields _ _ t, congrArg Standing.cfg (adoptArrival_standing _ _ t),
      adoptArrival_release _ _ t, .inl rfl⟩

/-- A stop published by the desk is met once, beside the other notices. -/
theorem deskNotices_stopped (h : stopsNow body s) :
    StoppedBy (stopOrigin source body) s (inAnyOrder (deskNotices source body consec) s) := by
  refine inAnyOrder_one (P := fun t => Unstopped s t ∧ stopsNow body t) (fun t ⟨ht, hstops⟩ => ?_)
    (fun f hf => ⟨fun t ⟨ht, hstops⟩ => ?_, fun t ht => ?_⟩) deskNotices_perm_stop fun _ _ => ⟨.of_eq rfl rfl rfl rfl, h⟩
  · rw [peerStopNotice_stops hstops]
    exact ht.stops _
  · obtain ⟨count, hyields, hcfg, hrelease, hcount⟩ := notStopping hf t
    refine ⟨ht.yields hyields hcfg, hstops.1, ?_⟩
    rw [hrelease]
    rcases hcount with rfl | rfl
    · exact hstops.2
    · exact Nat.le_refl _
  · obtain ⟨count, hyields, -⟩ := notStopping hf t
    exact ht.yields hyields

/-- No stop published, or one from before the release that no correction moves: no cause is raised. -/
theorem deskNotices_unstopped (h : bodyStopped body = false
      ∨ ((bodyCount body).toNat < s.sc.releaseFrame.toNat ∧ ¬corrects (byteAt body 0) (bodyCount body) s.ft)) :
    Unstopped s (inAnyOrder (deskNotices source body consec) s) := by
  let Quiet : State → Prop := fun t => bodyStopped body = false ∨ (bodyCount body).toNat < t.sc.releaseFrame.toNat
  let Unread : State → Prop := fun t => Unstopped s t ∧ t.ft = s.ft ∧ t.sc.releaseFrame = s.sc.releaseFrame
  have hstop : ∀ t, Quiet t → peerStopNotice source body t = t := fun t ht => peerStopNotice_keeps fun hstops =>
    ht.elim (fun hnot => Bool.false_ne_true (hnot.symm.trans hstops.1)) fun hbefore => absurd hstops.2 (Nat.not_le.mpr hbefore)
  have hquiet : ∀ t, t.sc.releaseFrame = s.sc.releaseFrame → Quiet t := fun t hrelease =>
    h.imp_right fun hboth => by rw [hrelease]; exact hboth.1
  have hkeeps : ∀ f ∈ [presenceNotice source body consec, peerStopNotice source body, adoptArrival (byteAt body 0) (bodyDesk body)],
      ∀ t, Quiet t → Unstopped s t → Unstopped s (f t) := by
    intro f hf t hq ht
    simp only [List.mem_cons, List.not_mem_nil, or_false] at hf
    rcases hf with rfl | rfl | rfl
    · exact ht.yields (count := t.sc.releaseFrame) (.of_eq rfl rfl rfl rfl) rfl
    · rw [hstop t hq]; exact ht
    · exact ht.yields (count := t.sc.releaseFrame) (adoptArrival_yields _ _ t) (congrArg Standing.cfg (adoptArrival_standing _ _ t))
  refine (inAnyOrder_one (P := Unread) (Q := fun t => Unstopped s t ∧ Quiet t) (fun t ⟨ht, hft, hrelease⟩ => ?_)
    (fun f hf => ⟨fun t ⟨ht, hft, hrelease⟩ => ?_, fun t ⟨ht, hq⟩ => ⟨hkeeps f hf t hq ht, ?_⟩⟩) deskNotices_perm_align
    fun _ _ => ⟨.of_eq rfl rfl rfl rfl, rfl, rfl⟩).1
  · obtain ⟨count, hyields, hcfg, -⟩ := notStopping (source := source) (body := body) (consec := consec)
      (f := alignmentReading (byteAt body 0) (bodyCount body)) (by simp) t
    refine ⟨ht.yields hyields hcfg, ?_⟩
    obtain ⟨hcorrects, -⟩ | ⟨-, heq⟩ := alignmentReading_cases (byteAt body 0) (bodyCount body) t
    · rw [hft] at hcorrects
      exact .inl (h.resolve_right fun hboth => hboth.2 hcorrects)
    · rw [heq]; exact hquiet t hrelease
  · obtain ⟨hft', hrelease'⟩ := notRead hf t
    exact ⟨hkeeps f hf t (hquiet t hrelease) ht, hft'.trans hft, hrelease'.trans hrelease⟩
  · exact hq.imp_right fun hbefore => by rw [(notRead hf t).2]; exact hbefore

/-! ## An arrival from another station than the desk -/

/-- What the notices of such an arrival find: the zones alone may have changed. -/
def ZonesAside (s t : State) : Prop := t = { s with zm := t.zm, order := t.order, draws := t.draws }

/-- What such a stop leaves of the station (R121, R127, R129). -/
structure PeerStopped (origin : Byte) (s t : State) : Prop where
  stopped : StoppedBy origin s t
  last : t.sc.last = some { kind := .peerStop, origin := origin, channel := 0, zone := 0, frame := s.ft.count, met := s.sc.state }

theorem ZonesAside.unstopped (h : ZonesAside s t) : Unstopped s t := by rw [h]; exact .of_eq rfl rfl rfl rfl

theorem peerNotices_stopped (h : stopsNow body s) :
    PeerStopped (stopOrigin source body) s (inAnyOrder (peerNotices source body consec) s) := by
  refine inAnyOrder_one (P := ZonesAside s) (fun t ht => ?_)
    (fun f hf => ⟨fun t ht => ?_, fun t ht => ?_⟩) (List.Perm.swap (peerStopNotice source body) (presenceNotice source body consec) [])
    fun _ _ => rfl
  · have hstops : stopsNow body t := by unfold stopsNow; rw [ht]; exact h
    obtain ⟨hlast, -, -⟩ := raiseCause_records .peerStop (stopOrigin source body) 0 0 t
    rw [peerStopNotice_stops hstops]
    exact ⟨ht.unstopped.stops _, by rw [hlast, ht]⟩
  · rw [List.mem_singleton.mp hf, presenceNotice_eq]
    unfold ZonesAside at ht ⊢
    rw [ht]
  · rw [List.mem_singleton.mp hf]
    exact ⟨ht.stopped.yields (count := t.sc.releaseFrame) (.of_eq rfl rfl rfl rfl), ht.last⟩

theorem peerNotices_unstopped (h : ¬stopsNow body s) : ZonesAside s (inAnyOrder (peerNotices source body consec) s) := by
  obtain ⟨l, o, d, hperm, heq⟩ := inAnyOrder_eq (peerNotices source body consec) s
  rw [heq]
  refine runAll_keeps (P := ZonesAside s) (fun f hf t ht => ?_) rfl
  have hmem : f = presenceNotice source body consec ∨ f = peerStopNotice source body := by
    simpa [peerNotices] using hperm.mem_iff.mp hf
  rcases hmem with rfl | rfl
  · rw [presenceNotice_eq]
    unfold ZonesAside at ht ⊢
    rw [ht]
  · rw [peerStopNotice_keeps (by unfold stopsNow; rw [ht]; exact h)]
    exact ht

/-- What no arrival of a station that is not the desk changes. -/
def beside (s : State) : FrameTimer × List (Nat × Word) × PeerTable × (Word × StartUp × Cfg × PerChan Binding
    × PerChan (Int × Option Int × Filt × Filt × Nat × Bool × Bool)) :=
  (s.ft, s.ts.slots, s.pt, place (standing s))

theorem peerNotices_beside (s : State) : beside (inAnyOrder (peerNotices source body consec) s) = beside s := by
  obtain ⟨l, o, d, hperm, heq⟩ := inAnyOrder_eq (peerNotices source body consec) s
  rw [heq]
  refine runAll_keeps (P := fun t => beside t = beside s) (fun f hf t ht => Eq.trans ?_ ht) rfl
  have hmem : f = presenceNotice source body consec ∨ f = peerStopNotice source body := by
    simpa [peerNotices] using hperm.mem_iff.mp hf
  rcases hmem with rfl | rfl
  · rfl
  · have hstands := peerStopNotice_stands source body t
    unfold beside
    rw [hstands, pt_of_standing hstands, show (peerStopNotice source body t).ft = t.ft from congrArg Standing.ft hstands,
      show (peerStopNotice source body t).ts.slots = t.ts.slots from congrArg Prod.snd (peerStopNotice_filed source body t)]

end Sys2Proof.Machine
end

section
/-! PROOFS. O39: a STATE arrival whole, by its source, and a lost lock or correction by the phase it finds (R68, R69, R92, R99 to R101, R107,
R129, R131, R168, R169). -/

namespace Sys2Proof.Machine

variable {s t u v : State} {ch : Chan} {source : Nat} {body : List Byte} {consec : Bool}

/-! ## The record before the notices (R91, R101) -/

theorem modPeer_frame (n : Nat) (f : PeerRecord → PeerRecord) (s : State) :
    modPeer n f s = { s with pt := { s.pt with peers := (modPeer n f s).pt.peers } } := by
  unfold modPeer; split <;> rfl

/-- The join serial after an arrival from the desk. -/
def joinNow (source : Nat) (body : List Byte) (s : State) : Option Byte :=
  joinAfter (decide ((peerRecord s source).freshness = .absent)) (bodyDesk body) s.pt.join

/-- The station as the notices of an arrival from the desk find it. -/
def deskRecorded (source : Nat) (body : List Byte) (s : State) : State :=
  { s with pt := { s.pt with peers := (modPeer source (takeState body) s).pt.peers, join := joinNow source body s } }

/-- Whether an arrival is consecutive with the frame before it from its source. -/
def inSequence (source : Nat) (body : List Byte) (s : State) : Bool := consecutive (peerRecord s source).seq (byteAt body 0)

theorem stateArrival_desk (h : fromDesk s source = true) :
    stateArrival source body s =
      inAnyOrder (deskNotices source body (inSequence source body s)) (deskRecorded source body s) := by
  unfold stateArrival
  simp only [h, if_true]
  rw [modPeer_frame source (takeState body) s]
  rfl

theorem stateArrival_peer (h : fromDesk s source = false) :
    stateArrival source body s =
      inAnyOrder (peerNotices source body (inSequence source body s)) (modPeer source (takeState body) s) := by
  unfold stateArrival
  simp only [h]
  rfl

/-! ## The zones, and what no arrival changes (R107) -/

theorem stateArrival_zm (source : Nat) (body : List Byte) (s : State) :
    (stateArrival source body s).zm = (presenceNotice source body (inSequence source body s) s).zm := by
  cases h : fromDesk s source with
  | true =>
    rw [stateArrival_desk h]
    exact notices_zm (rest := deskReadings source body) (fun _ hf => hf)
  | false =>
    rw [stateArrival_peer h]
    refine (notices_zm (rest := [peerStopNotice source body]) fun f hf => ?_).trans ?_
    · rw [List.mem_singleton.mp hf]; exact List.mem_cons_self
    · rw [modPeer_frame]; rfl

theorem stateArrival_place (source : Nat) (body : List Byte) (s : State) :
    place (standing (stateArrival source body s)) = place (standing s) := by
  cases h : fromDesk s source with
  | true => rw [stateArrival_desk h, deskNotices_placed]; rfl
  | false =>
    have hbeside := peerNotices_beside (source := source) (body := body) (consec := inSequence source body s)
      (modPeer source (takeState body) s)
    simp only [beside, Prod.mk.injEq] at hbeside
    obtain ⟨-, -, -, hplace⟩ := hbeside
    rw [stateArrival_peer h, hplace, modPeer_frame]
    rfl

theorem x_of_place (h : place (standing t) = place (standing s)) (ch : Chan) : (t.fb.get ch).x = (s.fb.get ch).x := by
  have hfeedback : t.fb.map shownFeedback = s.fb.map shownFeedback := congrArg (fun x => x.2.2.2.2) h
  have hget : shownFeedback (t.fb.get ch) = shownFeedback (s.fb.get ch) := by
    have := congrArg (PerChan.get · ch) hfeedback
    cases ch <;> exact this
  exact congrArg Prod.fst hget

/-- The zones after an arrival, by their source and the reading of their line (R107). -/
theorem stateArrival_zones (hother : source ≠ s.su.station.toNat) :
    let t := stateArrival source body s
    let follows : Prop := (peerRecord s source).seq = some (byteAt body 0 - 1)
    ∀ (k : Nat) (z z' : Zone), s.zm.zones[k]? = some z → t.zm.zones[k]? = some z' →
      (∀ line, z.cfg.source = .line source line →
        (let occupied := (byteAt body 14).getLsbD (line - 1)
         (occupied = true → z' = { z with arming := .armed, timer := none, mark := false })
         ∧ (occupied = false → ¬follows → z' = { z with arming := .armed, timer := none, mark := true })
         ∧ (occupied = false → follows → z.mark = false → z' = { z with mark := true })
         ∧ (occupied = false → follows → z.mark = true → z.arming = .armed →
             z' = { z with arming := .holding, timer := some (after t.clock (z.cfg.clearHold * 1000)) })
         ∧ (occupied = false → follows → z.mark = true → z.arming ≠ .armed → z' = z)))
      ∧ ((∀ line, z.cfg.source ≠ .line source line) → z' = z) := by
  intro t follows k z z' hz hz'
  have hclock : t.clock = s.clock := congrArg Prod.fst (stateArrival_place source body s)
  have htaken : z' = presenceTaken source body (inSequence source body s) s.clock s.su.station.toNat z := by
    have hzones : t.zm.zones = s.zm.zones.map _ := congrArg ZoneMonitor.zones (stateArrival_zm source body s)
    rw [hzones, List.getElem?_map, hz] at hz'
    exact (Option.some.inj hz').symm
  have hfollows : inSequence source body s = true ↔ follows := consecutive_iff _ _
  have hbreaks : ¬follows → inSequence source body s = false := fun h => Bool.eq_false_iff.mpr (mt hfollows.mp h)
  refine ⟨fun line hline => ?_, fun hnot => ?_⟩
  · rw [htaken, presenceTaken_line _ hline hother, hclock]
    obtain ⟨hoccupied, hfirst, hmark, hhold, hkeep⟩ :=
      remoteReading_spec (consec := inSequence source body s) s.clock (bodyPresence body line) z
    exact ⟨hoccupied, fun ho hf => hfirst ho (hbreaks hf), fun ho hf => hmark ho (hfollows.mpr hf),
      fun ho hf => hhold ho (hfollows.mpr hf), fun ho hf => hkeep ho (hfollows.mpr hf)⟩
  · rw [htaken, presenceTaken_other _ _ hnot]

/-! ## From another station than the desk -/

/-- The published origin of a frame's body. -/
theorem stopOrigin_source (b body : List Byte) :
    stopOrigin (natAt b 4) body = if byteAt body 8 = 0 then byteAt b 4 else byteAt body 8 := by
  unfold stopOrigin natAt
  rw [BitVec.ofNat_toNat, BitVec.setWidth_eq]

theorem stateArrival_fromPeer (h : fromDesk s source = false) :
    let t := stateArrival source body s
    t.ft = s.ft ∧ t.ts.slots = s.ts.slots ∧ t.pt = { s.pt with peers := t.pt.peers }
      ∧ (stopsNow body s → PeerStopped (stopOrigin source body) s t)
      ∧ (¬stopsNow body s → t.sc = s.sc ∧ t.mo = s.mo ∧ t.rf = s.rf ∧ t.te = s.te ∧ t.ts = s.ts) := by
  intro t
  have ht : t = inAnyOrder (peerNotices source body (inSequence source body s)) (modPeer source (takeState body) s) := stateArrival_peer h
  have hframe := modPeer_frame source (takeState body) s
  rw [ht]
  generalize modPeer source (takeState body) s = w at hframe ⊢
  have hbeside := peerNotices_beside (source := source) (body := body) (consec := inSequence source body s) w
  simp only [beside, Prod.mk.injEq] at hbeside
  obtain ⟨hft, hslots, hpt, -⟩ := hbeside
  refine ⟨?_, ?_, ?_, fun hstops => ?_, fun hnot => ?_⟩
  · rw [hft, hframe]
  · rw [hslots, hframe]
  · rw [hpt, hframe]
  · have hstops' : stopsNow body w := by unfold stopsNow; rw [hframe]; exact hstops
    obtain ⟨hstopped, hlast⟩ := peerNotices_stopped (source := source) (consec := inSequence source body s) hstops'
    rw [hframe] at hstopped hlast ⊢
    exact ⟨⟨hstopped.last, hstopped.causes, hstopped.stopSlot, hstopped.fromRun, hstopped.stopped⟩, hlast⟩
  · have hnot' : ¬stopsNow body w := by unfold stopsNow; rw [hframe]; exact hnot
    have haside := peerNotices_unstopped (source := source) (consec := inSequence source body s) hnot'
    rw [haside, hframe]
    exact ⟨rfl, rfl, rfl, rfl, rfl⟩

/-! ## From the desk -/

theorem stateArrival_fromDesk (h : fromDesk s source = true) :
    let t := stateArrival source body s
    let u := deskRecorded source body s
    t.ft = readTimer (byteAt body 0) (bodyCount body) s.ft
      ∧ (corrects (byteAt body 0) (bodyCount body) s.ft → t.sc.releaseFrame = bodyCount body
          ∧ (adopts (byteAt body 0) (bodyDesk body) u.pt = false → restsAtFrames t.te.phase))
      ∧ (¬corrects (byteAt body 0) (bodyCount body) s.ft → t.sc.releaseFrame = s.sc.releaseFrame)
      ∧ Adopted (byteAt body 0) (bodyDesk body) u t
      ∧ (stopsNow body s → StoppedBy (stopOrigin source body) u t)
      ∧ (bodyStopped body = false ∨ ((bodyCount body).toNat < s.sc.releaseFrame.toNat
            ∧ ¬corrects (byteAt body 0) (bodyCount body) s.ft) → Unstopped u t) := by
  intro t u
  have ht : t = inAnyOrder (deskNotices source body (inSequence source body s)) u := stateArrival_desk h
  rw [ht]
  obtain ⟨hft, hmoved, hkept⟩ := deskNotices_timer (source := source) (body := body) (consec := inSequence source body s) u
  exact ⟨hft, fun hcorrects => ⟨hmoved hcorrects, fun hadopts => deskNotices_corrected (s := u) hcorrects hadopts⟩, hkept,
    deskNotices_adopted u, fun hstops => deskNotices_stopped (s := u) hstops, fun hquiet => deskNotices_unstopped (s := u) hquiet⟩

/-! ## A lost lock or a correction (R168, R169) -/

theorem loseTake_idle (fault : TakeFault) (h : ¬working s) : loseTake fault s = s := by
  unfold working at h
  cases hphase : s.te.phase with
  | idle => exact loseTake_rests _ (.inl hphase)
  | checking => exact loseTake_rests _ (.inr (.inl hphase))
  | cueing => exact loseTake_rests _ (.inr (.inr hphase))
  | armedRec | recording | cued | playing => simp [hphase] at h

theorem loseTake_playing (fault : TakeFault) (h : s.te.phase = .cued ∨ s.te.phase = .playing) :
    loseTake fault s = endPhase .aborted fault (holdAtSetpoint (axisChans s) s) := by
  rcases h with h | h <;> simp [loseTake, h]

/-- What a loss leaves of a working phase. -/
theorem loseTake_spec (fault : TakeFault) (h : working s) :
    let t := loseTake fault s
    t.te.phase = .idle ∧ t.te.result = .aborted ∧ t.te.fault = fault ∧ t.te.start = none ∧ t.te.liveHeld = false
      ∧ t.sc = s.sc ∧ t.rf = s.rf ∧ t.ts.slots = s.ts.slots
      ∧ t.ts.dir = (if s.te.phase = .recording then
          s.ts.dir.map (fun e => if e.status = .recording then { e with status := .interrupted } else e) else s.ts.dir) := by
  have hplaying : s.te.phase = .cued ∨ s.te.phase = .playing →
      loseTake fault s = { endPhase .aborted fault s with mo := (holdAtSetpoint (axisChans s) s).mo } := fun hphase => by
    rw [loseTake_playing fault hphase, holdAtSetpoint_frame]; rfl
  intro t
  rcases h with h | h | h | h
  · have ht : t = endPhase .aborted fault s := by simp [t, loseTake, h]
    rw [ht, if_neg (by rw [h]; decide)]
    exact ⟨rfl, rfl, rfl, rfl, rfl, rfl, rfl, rfl, rfl⟩
  · have ht : t = endPhase .aborted fault (finishTake .interrupted s) := by simp [t, loseTake, h]
    rw [ht, if_pos h]
    exact ⟨rfl, rfl, rfl, rfl, rfl, rfl, rfl, rfl, rfl⟩
  · have ht : t = { endPhase .aborted fault s with mo := (holdAtSetpoint (axisChans s) s).mo } := hplaying (.inl h)
    rw [ht, if_neg (by rw [h]; decide)]
    exact ⟨rfl, rfl, rfl, rfl, rfl, rfl, rfl, rfl, rfl⟩
  · have ht : t = { endPhase .aborted fault s with mo := (holdAtSetpoint (axisChans s) s).mo } := hplaying (.inr h)
    rw [ht, if_neg (by rw [h]; decide)]
    exact ⟨rfl, rfl, rfl, rfl, rfl, rfl, rfl, rfl, rfl⟩

/-- A loss while recording moves no channel. -/
theorem loseTake_recording_mo (fault : TakeFault) (h : s.te.phase = .armedRec ∨ s.te.phase = .recording) :
    (loseTake fault s).mo = s.mo := by
  rcases h with h | h <;> simp [loseTake, h, endPhase]

/-- The lock notices of HOLDOVER (R168). -/
theorem lockNotice_holdover (s : State) :
    (working s → lockNotice .holdover s = { s with te := { s.te with holdover := true } })
      ∧ (¬working s → lockNotice .holdover s = s) := by
  unfold working
  cases h : s.te.phase <;> simp [lockNotice, h]

/-- The frame timer and the release frame by the difference that a reading finds (R68, R69). -/
theorem readTimer_spec (seq : Byte) (count : Word) (f : FrameTimer) :
    let d := count - f.count
    let confirmed : Prop := f.reading = some (seq - 1, d)
    let t := readTimer seq count f
    (d = 0 → t = { f with aligned := true, reading := some (seq, 0) })
      ∧ (d ≠ 0 → confirmed → t = { f with count := count, aligned := true, reading := none })
      ∧ (d ≠ 0 → ¬confirmed → t = { f with aligned := false, reading := some (seq, d) }) := by
  intro d confirmed t
  refine ⟨fun hd => if_pos hd, fun hd hconfirmed => ?_, fun hd hnot => ?_⟩
  · exact (if_neg hd).trans (if_pos hconfirmed)
  · exact (if_neg hd).trans (if_neg hnot)

theorem rememberReading_adopted (seq : Byte) (c : DeskContent) (pt : PeerTable) :
    (rememberReading seq c pt).adopted =
      if adopts seq c pt then c.serial else if c.kind = 0 ∧ c.serial = 0 then 0 else pt.adopted := by
  have hnone : isNone c = true ↔ c.kind = 0 ∧ c.serial = 0 := by simp [isNone]
  unfold rememberReading
  simp only [hnone]

/-- An adopted RELEASE waits for the next frame event (R131). -/
theorem Adopted.released {seq : Byte} {c : DeskContent} (h : Adopted seq c s t) (hadopts : adopts seq c s.pt = true) (hkind : c.kind = 10) :
    t.sc.pendingRelease = true := by
  rw [h.release, hadopts, hkind]
  exact Bool.or_true _

theorem Adopted.notReleased {seq : Byte} {c : DeskContent} (h : Adopted seq c s t) (hnot : adopts seq c s.pt = false ∨ c.kind ≠ 10) :
    t.sc.pendingRelease = s.sc.pendingRelease := by
  have hother : (adopts seq c s.pt && decide (c.kind = codeDesk .release)) = false := by
    rcases hnot with hnot | hkind
    · rw [hnot]; rfl
    · rw [show decide (c.kind = codeDesk .release) = false from decide_eq_false hkind, Bool.and_false]
  rw [h.release, hother, Bool.or_false]

/-! ## O39 -/

/-- Settles O39: each notice acts once in the free order while the others leave what it reads. -/
theorem stateArrivalNotices : Obligations.StateArrivalNotices := by
  unfold Obligations.StateArrivalNotices
  refine ⟨?arrival, fun fault s => ?loss⟩
  case loss =>
    obtain ⟨hholdover, hkeeps⟩ := lockNotice_holdover s
    exact ⟨loseTake_idle fault, loseTake_spec fault, loseTake_recording_mo fault,
      fun hphase hrun ch => by rw [loseTake_playing fault hphase]; exact holdAtSetpoint_mo hrun ch, rfl, hholdover, hkeeps, rfl, rfl⟩
  case arrival =>
    intro heard s hstarted hquiet hflight hrx b body n seq count c follows hlength hchecks hkind hother
    have hexec := exec_lineQuiet_handsOn hstarted hquiet hflight hrx hlength hchecks hother
    have hhand : handOn b (quietDeclared s) = stateArrival n body (quietDeclared s) := if_pos hkind
    rw [hhand, quietDeclared_frame] at hexec
    generalize (quietDeclared s).clock = now at hexec
    generalize (quietDeclared s).tk.quietAt = quietAt at hexec
    refine ⟨_, hexec, ?_⟩
    let w : State := { s with clock := now, tk := { s.tk with quietAt := quietAt, rx := .idle, heard := [] } }
    have horigin : stopOrigin n body = if byteAt body 8 = 0 then byteAt b 4 else byteAt body 8 := stopOrigin_source b body
    have hplace := stateArrival_place n body w
    have hzm := stateArrival_zm n body w
    have hzones := stateArrival_zones (s := w) (body := body) (source := n) (source_ne hother)
    have hpeer := stateArrival_fromPeer (s := w) (source := n) (body := body)
    have hdesk := stateArrival_fromDesk (s := w) (source := n) (body := body)
    generalize stateArrival n body w = t at hplace hzm hzones hpeer hdesk
    refine ⟨x_of_place (s := w) hplace, congrArg (fun x => x.2.2.2.1) hplace, by rw [hzm]; rfl, by rw [hzm]; rfl, ?_, hzones,
      fun hfrom => ?peer, fun hfrom => ?desk⟩
    · rw [hzm]; exact List.length_map _
    case peer =>
      obtain ⟨hft, hslots, hpt, hstops, hkeeps⟩ := hpeer hfrom
      refine ⟨hft, hslots, hpt, fun hstopped hrelease => ?_, fun hnot => hkeeps ?_⟩
      · obtain ⟨hstop, hlast⟩ := hstops ⟨(bodyStopped_iff body).mpr hstopped, hrelease⟩
        rw [horigin] at hlast
        refine ⟨hlast, hstop.causes, hstop.stopSlot, fun hrun => ?_⟩
        obtain ⟨-, hstate, hphase, -⟩ := hstop.fromRun hrun
        exact ⟨hstate, hphase⟩
      · rintro ⟨hstopped, hrelease⟩
        exact hnot.elim (fun h => h ((bodyStopped_iff body).mp hstopped)) fun h => absurd hrelease (Nat.not_le.mpr h)
    case desk =>
      obtain ⟨hft, hmoved, hkept, hadopted, hstops, hquietly⟩ := hdesk hfrom
      obtain ⟨hsame, hconfirm, hbegin⟩ := readTimer_spec seq count s.ft
      have hread : adopts seq c { s.pt with join := joinNow n body w } = adopts seq c (deskRecorded n body w).pt := adopts_congr rfl rfl rfl
      refine ⟨fun hd => ⟨hft.trans (hsame hd), hkept fun h => h.1 hd⟩, fun hd hconfirmed => ?_,
        fun hd hnot => ⟨hft.trans (hbegin hd hnot), hkept fun h => hnot h.2⟩,
        hadopted.join, hadopted.earlier, hadopted.confirmed, ?_, fun hadopts => hadopted.released (hread.symm.trans hadopts),
        fun hnot => hadopted.notReleased (hnot.imp_left hread.symm.trans), fun hadopts => hadopted.serial (hread.symm.trans hadopts),
        fun hnot => hadopted.kept (hread.symm.trans hnot), fun hstopped hfrom => ?_, fun hnot => ?_⟩
      · obtain ⟨hrelease, hrests⟩ := hmoved ⟨hd, hconfirmed⟩
        exact ⟨hft.trans (hconfirm hd hconfirmed), hrelease, fun hnot => hrests (hread.symm.trans hnot)⟩
      · refine (hadopted.adopted.trans (rememberReading_adopted _ _ _)).trans ?_
        rw [← hread]
        rfl
      · have hstop := hstops ⟨(bodyStopped_iff body).mpr hstopped, hfrom⟩
        rw [horigin] at hstop
        exact ⟨hstop.last, hstop.causes, hstop.stopSlot, hstop.fromRun, hstop.stopped⟩
      · have hunstopped := hquietly (hnot.imp (fun h => Bool.eq_false_iff.mpr (mt (bodyStopped_iff body).mp h)) fun ⟨hbefore, hd⟩ =>
          ⟨hbefore, fun h => hd.elim h.1 fun hnot => hnot h.2⟩)
        exact ⟨hunstopped.last, hunstopped.first, hunstopped.causes, hunstopped.state⟩

end Sys2Proof.Machine
end

section
/-! PROOFS. The timers of the slots, the transition that begins a frame and the 145th byte of one (R78, R80, R82). -/

namespace Sys2Proof.Machine

variable {s : State}

theorem exec_publishTimeExpiry {body : StateBody} {time : Word} (h : s.tk.stateSlot = .waiting body time) :
    exec .publishTimeExpiry s =
      .next { s with clock := (advanceTo time s).clock, tk := { s.tk with stateSlot := .ready body } } := by
  show execPublishTimeExpiry s = _
  simp [execPublishTimeExpiry, h, advanceTo_eq]

/-- The WHEEL frame carries the values published when its timer ends (R80). -/
theorem exec_wheelTimerExpiry {time : Word} (h : s.tk.wheelTimer = some time) :
    exec .wheelTimerExpiry s =
      .next { s with
        clock := (advanceTo time s).clock
        tk := { s.tk with
          wheelTimer := some (after time (s.cfg.wheelPeriod * 1000)), wheelSeq := s.tk.wheelSeq + 1
          wheelSlot := some (wheelBytes s.tk.wheelSeq (wheelValues s)) } } := by
  show execWheelTimerExpiry s = _
  simp only [execWheelTimerExpiry, h, advanceTo_eq]
  rfl

theorem exec_frameStart (h : s.tk.quietAt.isSome = true) :
    exec .frameStart s =
      .next { s with
        tk := { s.tk with
          quietAt := none, rx := .gathering
          lastTransition := if s.tk.heard = [] then s.clock else s.tk.lastTransition } } :=
  if_pos h

theorem exec_frameOversize (h : s.tk.rx = .gathering) :
    exec .frameOversize s =
      .next { s with
        tk := { s.tk with
          rx := .oversize, heard := []
          counters := { s.tk.counters with oversize := satIncr 65535 s.tk.counters.oversize } } } :=
  if_pos h

/-- Settles O32: each of the four events is the trunk controller's alone. -/
theorem slotTimersAndFrames : Obligations.SlotTimersAndFrames := by
  intro s
  refine ⟨fun body time hslot => ?_, fun time htimer => ?_, fun hquiet => ?_, fun hrx => ?_⟩
  · exact ⟨_, exec_publishTimeExpiry hslot, rfl⟩
  · exact ⟨_, exec_wheelTimerExpiry htimer, rfl⟩
  · exact ⟨_, exec_frameStart hquiet, rfl, fun hheard => if_pos hheard⟩
  · exact ⟨_, exec_frameOversize hrx, rfl⟩

end Sys2Proof.Machine
end

section
/-! PROOFS. The quiet and the frame it ends: the checks in their order, what is discarded, a duplicate station, and the records that a
STATE frame refreshes (R72, R82 to R84, R86, R91, R130). -/

namespace Sys2Proof.Machine

variable {s t : State} {b : List Byte} {source : Nat} {body : List Byte} {consec : Bool}

/-! ## The checks of R83, each in its own words -/

abbrev badFraming (b : List Byte) : Prop := b.length < 7 ∨ byteAt b 0 ≠ 0x35 ∨ byteAt b 1 ≠ 0xCA

abbrev badCrc (b : List Byte) : Prop :=
  crc16 ((b.drop 2).take (b.length - 4)) ≠ byteAt b (b.length - 2) ++ byteAt b (b.length - 1)

abbrev namesNoKind (b : List Byte) : Prop := natAt b 2 = 0 ∨ 4 ≤ natAt b 2

/-- The body length that a frame's kind byte asks for, where it names a kind. -/
def kindSize (b : List Byte) : Nat := if natAt b 2 = 1 then 123 else if natAt b 2 = 2 then 13 else 9

abbrev badLength (b : List Byte) : Prop := natAt b 3 ≠ kindSize b ∨ b.length ≠ 7 + kindSize b

abbrev badSource (b : List Byte) : Prop := natAt b 4 = 0 ∨ 31 ≤ natAt b 4

theorem bodyLength?_byteAt (b : List Byte) :
    bodyLength? (byteAt b 2) = if namesNoKind b then none else some (kindSize b) := by
  have hnat : ∀ k : Nat, k < 256 → (byteAt b 2 = BitVec.ofNat 8 k ↔ natAt b 2 = k) := fun k hk => by
    rw [← BitVec.toNat_inj, BitVec.toNat_ofNat, Nat.mod_eq_of_lt hk]; rfl
  have h₁ : byteAt b 2 = 1 ↔ natAt b 2 = 1 := hnat 1 (by decide)
  have h₂ : byteAt b 2 = 2 ↔ natAt b 2 = 2 := hnat 2 (by decide)
  have h₃ : byteAt b 2 = 3 ↔ natAt b 2 = 3 := hnat 3 (by decide)
  unfold bodyLength? kindSize namesNoKind
  simp only [h₁, h₂, h₃]
  split_ifs <;> first | rfl | omega

/-- The checks are made in the order framing, CRC, kind, length, source (R83). -/
theorem failedCheck_eq (b : List Byte) :
    failedCheck b =
      if badFraming b then some .framing else if badCrc b then some .crc else if namesNoKind b then some .kind
      else if badLength b then some .length else if badSource b then some .source else none := by
  unfold failedCheck
  rw [bodyLength?_byteAt]
  by_cases hframing : badFraming b
  · rw [if_pos hframing, if_pos (by simpa [badFraming, or_assoc] using hframing)]
  · have hlength : ¬b.length < 7 := fun h => hframing (.inl h)
    have hlast : b.length - 2 + 1 = b.length - 1 := by omega
    rw [if_neg hframing, if_neg (by simpa [badFraming, or_assoc] using hframing), word16At, hlast]
    by_cases hcrc : badCrc b
    · rw [if_pos hcrc, if_pos hcrc]
    · rw [if_neg hcrc, if_neg hcrc]
      by_cases hkind : namesNoKind b
      · rw [if_pos hkind, if_pos hkind]
      · rw [if_neg hkind, if_neg hkind]
        by_cases hsize : natAt b 3 = kindSize b
        · simp [badLength, badSource, hsize]
        · simp [badLength, hsize]

/-- A frame that passes every check names a station 1 to 30. -/
theorem source_of_valid (h : failedCheck b = none) : 1 ≤ natAt b 4 ∧ natAt b 4 ≤ 30 := by
  rw [failedCheck_eq] at h
  split_ifs at h with _ _ _ _ hsource
  omega

/-! ## What a frame that has ended leaves of the line -/

/-- What no frame changes when it is handed on: the station time, and what the quiet has set of the receive path. -/
structure LineKept (s t : State) : Prop where
  clock : t.clock = s.clock
  quietAt : t.tk.quietAt = s.tk.quietAt
  rx : t.tk.rx = s.tk.rx
  heard : t.tk.heard = s.tk.heard

theorem LineKept.of_tk (hclock : t.clock = s.clock) (htk : t.tk = s.tk) : LineKept s t :=
  ⟨hclock, by rw [htk], by rw [htk], by rw [htk]⟩

/-- A cause reaches the trunk controller by its STOP body alone (R81, R127). -/
theorem raiseCause_tk (kind : CauseKind) (origin channel zone : Byte) (s : State) :
    (raiseCause kind origin channel zone s).tk =
      { s.tk with
        stopSlot := (raiseCause kind origin channel zone s).tk.stopSlot
        flight := (raiseCause kind origin channel zone s).tk.flight } := by
  simp only [raiseCause, (actOnCause_keeps _ _).2]
  split <;> rfl

theorem raiseCause_lineKept (kind : CauseKind) (origin channel zone : Byte) (s : State) :
    LineKept s (raiseCause kind origin channel zone s) :=
  ⟨(raiseCause_same _ _ _ _ s).clock, by rw [raiseCause_tk], by rw [raiseCause_tk], by rw [raiseCause_tk]⟩

/-- No notice of a STATE arrival reaches the clock, the trunk controller or the peer records. -/
theorem deskNotices_keep {f : State → State} (hf : f ∈ deskNotices source body consec) (t : State) :
    (f t).clock = t.clock ∧ (f t).tk = t.tk ∧ (f t).pt.peers = t.pt.peers := by
  have hclock : (f t).clock = t.clock := congrArg Prod.fst (deskNotices_place hf t)
  rcases mem_deskNotices hf with rfl | rfl | rfl | rfl
  · exact ⟨rfl, rfl, rfl⟩
  · refine ⟨hclock, ?_, congrArg Standing.peers (peerStopNotice_stands source body t)⟩
    obtain h | h := peerStopNotice_cases source body t <;> rw [h]
    exact (peerStop_keeps _ _ _ t).2.1
  · refine ⟨hclock, ?_, congrArg Standing.peers (alignmentReading_standing _ _ t)⟩
    obtain ⟨-, h⟩ | ⟨-, h⟩ := alignmentReading_cases (byteAt body 0) (bodyCount body) t <;> rw [h]
    exact (countMoved_yields _ t).tk
  · exact ⟨hclock, (adoptArrival_yields _ _ t).tk, congrArg Standing.peers (adoptArrival_standing _ _ t)⟩

theorem notices_keep {events : List (State → State)} (h : ∀ f ∈ events, f ∈ deskNotices source body consec) (s : State) :
    let t := inAnyOrder events s
    t.clock = s.clock ∧ t.tk = s.tk ∧ t.pt.peers = s.pt.peers :=
  inAnyOrder_induct (fun t => t.clock = s.clock ∧ t.tk = s.tk ∧ t.pt.peers = s.pt.peers) events s (fun _ _ _ ht => ht)
    (fun f hf t ⟨hclock, htk, hpeers⟩ => by
      obtain ⟨hclock', htk', hpeers'⟩ := deskNotices_keep (h f hf) t
      exact ⟨hclock'.trans hclock, htk'.trans htk, hpeers'.trans hpeers⟩) ⟨rfl, rfl, rfl⟩

/-- A STATE arrival refreshes its record before the notices, which leave the records as they are (R91, R92). -/
theorem stateArrival_keeps (source : Nat) (body : List Byte) (s : State) :
    let t := stateArrival source body s
    t.clock = s.clock ∧ t.tk = s.tk ∧ t.pt.peers = (modPeer source (takeState body) s).pt.peers := by
  cases h : fromDesk s source with
  | true =>
    rw [stateArrival_desk h]
    exact notices_keep (consec := inSequence source body s) (fun _ hf => hf) _
  | false =>
    have hsub : ∀ f ∈ peerNotices source body (inSequence source body s), f ∈ deskNotices source body (inSequence source body s) :=
      fun f hf => by
        simp only [peerNotices, List.mem_cons, List.not_mem_nil, or_false] at hf
        rcases hf with rfl | rfl <;> simp [deskNotices, deskReadings]
    obtain ⟨hclock, htk, hpeers⟩ := notices_keep hsub (modPeer source (takeState body) s)
    rw [modPeer_frame] at hclock htk
    rw [stateArrival_peer h]
    refine ⟨?_, ?_, hpeers⟩
    · rw [modPeer_frame]; exact hclock
    · rw [modPeer_frame]; exact htk

theorem stopArrival_lineKept (source : Nat) (body : List Byte) (s : State) : LineKept s (stopArrival source body s) := by
  obtain ⟨-, h⟩ | ⟨-, -, h⟩ | ⟨-, -, h⟩ := stopArrival_cases source body s <;> rw [h]
  · exact .of_tk rfl rfl
  · exact .of_tk rfl rfl
  · obtain ⟨hsame, htk, -⟩ := peerStopped_spec source body s
    exact .of_tk hsame.clock htk

theorem handOn_lineKept (b : List Byte) (s : State) : LineKept s (handOn b s) := by
  unfold handOn
  split
  · obtain ⟨hclock, htk, -⟩ := stateArrival_keeps (natAt b 4) (frameBody b) s
    exact .of_tk hclock htk
  · split
    · rw [(wheelArrival_spec _ _ _ s).1]
      exact .of_tk rfl rfl
    · exact stopArrival_lineKept _ _ s

theorem duplicateArrival_lineKept (s : State) : LineKept s (duplicateArrival s) := by
  obtain ⟨hclock, hquiet, hrx, hheard⟩ :=
    raiseCause_lineKept .duplicateStation (stationByte s) 0 0 { s with sc := { s.sc with dupWindow := 64 } }
  exact ⟨hclock, hquiet, hrx, hheard⟩

theorem receive_lineKept (heard : List Bool) (s : State) : LineKept s (receive heard s) := by
  simp only [receive, frameEnd]
  split
  · exact ⟨rfl, rfl, rfl, rfl⟩
  · split
    · exact ⟨rfl, rfl, rfl, rfl⟩
    · split
      · exact duplicateArrival_lineKept s
      · exact handOn_lineKept _ s

/-! ## What becomes of the frame -/

theorem receive_oversize {heard : List Bool} (h : 145 ≤ (gather heard).length) : receive heard s = countOversize s := if_pos h

theorem receive_fits {heard : List Bool} (h : (gather heard).length < 145) : receive heard s = frameEnd (gather heard) s :=
  if_neg (Nat.not_le.mpr h)

theorem frameEnd_discards {d : Discard} (h : failedCheck b = some d) :
    frameEnd b s = { s with tk := { s.tk with counters := countDiscard d s.tk.counters } } := by
  simp [frameEnd, h]

theorem frameEnd_duplicate (h : failedCheck b = none) (hown : byteAt b 4 = stationByte s) : frameEnd b s = duplicateArrival s := by
  simp [frameEnd, h, hown]

/-- A frame with the own number is recorded and opens the window (R86, R130). -/
theorem duplicateArrival_spec (s : State) :
    let t := duplicateArrival s
    t.sc.dupWindow = 64 ∧ t.tk.counters = s.tk.counters ∧ t.pt = s.pt ∧ t.bd = s.bd ∧ t.zm = s.zm ∧ t.ft = s.ft
      ∧ (t.sc.last.map fun r => (r.kind, r.origin)) = some (.duplicateStation, stationByte s)
      ∧ t.sc.causes = satIncr 255 s.sc.causes := by
  let w : State := { s with sc := { s.sc with dupWindow := 64 } }
  have hstands := raiseCause_stands .duplicateStation (stationByte s) 0 0 w
  obtain ⟨hlast, -, hcauses⟩ := raiseCause_records .duplicateStation (stationByte s) 0 0 w
  refine ⟨congrArg Standing.dupWindow hstands, congrArg Standing.counters hstands, (pt_of_standing hstands :),
    congrArg Standing.bd hstands, congrArg Standing.zm hstands, congrArg Standing.ft hstands, congrArg _ hlast, hcauses⟩

/-! ## The quiet -/

/-- The station after LINE_QUIET: the quiet declared, and the frame under reception, if there is one, ended. -/
def quietTaken (heard : List Bool) (s : State) : State :=
  if s.tk.rx = .gathering then receive heard (quietDeclared s) else quietDeclared s

theorem exec_lineQuiet {heard : List Bool} (hstarted : started s = true) (hquiet : s.tk.quietAt = none) (hflight : s.tk.flight = none) :
    exec (.lineQuiet heard) s = .next (quietTaken heard s) := by
  show execLineQuiet heard s = _
  simp [execLineQuiet, hstarted, hquiet, hflight, quietTaken, quietDeclared]

/-- The station with the quiet declared at a station time, and with the trunk's counters as given. -/
def quietWith (clock : Word) (counters : Counters) (s : State) : State :=
  { s with clock := clock, tk := { s.tk with quietAt := some clock, rx := .idle, heard := [], counters := counters } }

theorem quietDeclared_eq (s : State) : quietDeclared s = quietWith (quietDeclared s).clock s.tk.counters s := by
  simp [quietDeclared, quietWith, declareQuiet, advanceTo_eq]

theorem quietDeclared_clock (s : State) :
    (quietDeclared s).clock = if reached s.clock (after s.tk.lastTransition 4) then s.clock else after s.tk.lastTransition 4 := by
  simp [quietDeclared, advanceTo_eq]

theorem quietTaken_lineKept (heard : List Bool) (s : State) : LineKept (quietDeclared s) (quietTaken heard s) := by
  unfold quietTaken
  split
  · exact receive_lineKept heard _
  · exact ⟨rfl, rfl, rfl, rfl⟩

theorem quietTaken_alone {heard : List Bool} (hrx : s.tk.rx ≠ .gathering) :
    quietTaken heard s = quietWith (quietDeclared s).clock s.tk.counters s :=
  (if_neg hrx).trans (quietDeclared_eq s)

theorem quietTaken_oversize {heard : List Bool} (hrx : s.tk.rx = .gathering) (h : 145 ≤ (gather heard).length) :
    quietTaken heard s =
      quietWith (quietDeclared s).clock { s.tk.counters with oversize := satIncr 65535 s.tk.counters.oversize } s := by
  rw [quietTaken, if_pos hrx, receive_oversize h, quietDeclared_eq]
  rfl

theorem quietTaken_discards {heard : List Bool} {d : Discard} (hrx : s.tk.rx = .gathering) (h : (gather heard).length < 145)
    (hfails : failedCheck (gather heard) = some d) :
    quietTaken heard s = quietWith (quietDeclared s).clock (countDiscard d s.tk.counters) s := by
  rw [quietTaken, if_pos hrx, receive_fits h, frameEnd_discards hfails, quietDeclared_eq]
  rfl

/-- Settles O36: the quiet is declared in every case, and the frame that it ends is discarded, recorded as a duplicate or handed on. -/
theorem quietEndsTheFrame : Obligations.QuietEndsTheFrame := by
  intro heard s hstarted hquiet hflight
  obtain ⟨hclock, hat, hrx, hheard⟩ := quietTaken_lineKept heard s
  refine ⟨quietTaken heard s, exec_lineQuiet hstarted hquiet hflight, ?_, hrx, hheard, ?_, ?_, ?_⟩
  · rw [hclock]; exact hat
  · rw [hclock, quietDeclared_clock]
    exact ⟨fun h => if_neg (by simp [h]), fun h => if_pos h⟩
  · rw [hclock]
    refine ⟨quietTaken_alone, quietTaken_oversize, fun hg h d => quietTaken_discards hg h, fun hg h => ?_⟩
    have hfails : ∀ d, failedCheck (gather heard) = some d →
      quietTaken heard s = quietWith (quietDeclared s).clock (countDiscard d s.tk.counters) s := fun d => quietTaken_discards hg h
    have hcheck := failedCheck_eq (gather heard)
    rw [hcheck] at hfails
    refine ⟨fun h₁ => hfails .framing (if_pos h₁), fun h₁ h₂ => hfails .crc ?_, fun h₁ h₂ h₃ => hfails .kind ?_,
      fun h₁ h₂ h₃ h₄ => hfails .length ?_, fun h₁ h₂ h₃ h₄ h₅ => hfails .source ?_,
      fun h₁ h₂ h₃ h₄ h₅ => hcheck.trans ?_⟩
    · exact (if_neg h₁).trans (if_pos h₂)
    · exact (if_neg h₁).trans ((if_neg h₂).trans (if_pos h₃))
    · exact (if_neg h₁).trans ((if_neg h₂).trans ((if_neg h₃).trans (if_pos h₄)))
    · exact (if_neg h₁).trans ((if_neg h₂).trans ((if_neg h₃).trans ((if_neg h₄).trans (if_pos h₅))))
    · exact (if_neg h₁).trans ((if_neg h₂).trans ((if_neg h₃).trans ((if_neg h₄).trans (if_neg h₅))))
  · intro hg h hvalid hown
    have hstation : stationByte (quietDeclared s) = stationByte s := by rw [quietDeclared_eq]; rfl
    rw [quietTaken, if_pos hg, receive_fits h, frameEnd_duplicate hvalid (hown.trans hstation.symm)]
    have hspec := duplicateArrival_spec (quietDeclared s)
    rw [hstation] at hspec
    rw [quietDeclared_eq] at hspec ⊢
    exact hspec

/-! ## The records (R91) -/

/-- A change of a record reads the peer table alone. -/
theorem modPeer_pt {n : Nat} {f : PeerRecord → PeerRecord} (h : t.pt = s.pt) : (modPeer n f t).pt = (modPeer n f s).pt := by
  simp only [modPeer, h]
  split
  · exact h
  · rfl

theorem peerRecord_modPeer_same {n : Nat} (f : PeerRecord → PeerRecord) (hn : 1 ≤ n) (hlength : n ≤ s.pt.peers.length) :
    peerRecord (modPeer n f s) n = f (peerRecord s n) := by
  have hlt : n - 1 < s.pt.peers.length := by omega
  rw [modPeer, if_neg (by omega)]
  simp [peerRecord, List.getD_eq_getElem?_getD, hlt]

theorem peerRecord_modPeer_ne {n k : Nat} (f : PeerRecord → PeerRecord) (hk : 1 ≤ k) (hne : k ≠ n) :
    peerRecord (modPeer n f s) k = peerRecord s k := by
  unfold modPeer
  split
  · rfl
  · have hplace : n - 1 ≠ k - 1 := by omega
    simp [peerRecord, List.getD_eq_getElem?_getD, List.getElem?_set_ne hplace]

/-- The gap count rises by the sequence numbers missed, when they are 1 to 126 (R91). -/
theorem gapsAfter_some (last seq : Byte) (gaps : Nat) :
    let d := (seq - last).toNat
    (2 ≤ d → d ≤ 127 → gapsAfter (some last) seq gaps = min 65535 (gaps + (d - 1)))
      ∧ (d < 2 ∨ 127 < d → gapsAfter (some last) seq gaps = gaps) := by
  intro d
  have heq : gapsAfter (some last) seq gaps = if 2 ≤ d && d ≤ 127 then min 65535 (gaps + (d - 1)) else gaps := rfl
  rw [heq]
  refine ⟨fun hlo hhi => if_pos (by simp [hlo, hhi]), fun hout => if_neg ?_⟩
  simp only [Bool.and_eq_true, decide_eq_true_eq]
  omega

/-- Settles O37: the record is refreshed first, and the notices that follow leave every record. -/
theorem stateFrameRefreshesRecord : Obligations.StateFrameRefreshesRecord := by
  intro heard n s hstarted hquiet hflight hrx hpeers b hlength hchecks hkind hother hn
  have hexec := exec_lineQuiet_handsOn hstarted hquiet hflight hrx hlength hchecks hother
  have hhand : handOn b (quietDeclared s) = stateArrival n (frameBody b) (quietDeclared s) := by rw [hn]; exact if_pos hkind
  obtain ⟨hlow, hhigh⟩ := source_of_valid hchecks
  rw [← hn] at hlow hhigh
  obtain ⟨-, htk, hrecords⟩ := stateArrival_keeps n (frameBody b) (quietDeclared s)
  have hpt : (quietDeclared s).pt = s.pt := by rw [quietDeclared_eq]; rfl
  have hcounters : (quietDeclared s).tk.counters = s.tk.counters := by rw [quietDeclared_eq]; rfl
  refine ⟨_, hexec, ?_⟩
  rw [hhand]
  generalize stateArrival n (frameBody b) (quietDeclared s) = t at htk hrecords
  have hrecord : ∀ k, peerRecord t k = peerRecord (modPeer n (takeState (frameBody b)) s) k := fun k => by
    unfold peerRecord
    rw [hrecords, modPeer_pt hpt]
  have hown : peerRecord t n = takeState (frameBody b) (peerRecord s n) :=
    (hrecord n).trans (peerRecord_modPeer_same _ hlow (hhigh.trans_eq hpeers.symm))
  refine ⟨?_, fun k hk hne => ?_, by rw [htk, hcounters]⟩
  · rw [hown]
    refine ⟨rfl, rfl, rfl, rfl, fun hnone => ?_, fun last hlast => ?_⟩
    · simp [takeState, gapsAfter, hnone]
    · simp only [takeState, hlast]
      exact gapsAfter_some _ _ _
  · have hk' : 1 ≤ k := by
      obtain ⟨i, -, rfl⟩ := List.mem_map.mp hk
      omega
    exact (hrecord k).trans (peerRecord_modPeer_ne _ hk' hne)

end Sys2Proof.Machine
end

section
/-! PROOFS. O33, the sends: the slot a frame begins in, what its end leaves, and the sent notice as a reading of the desk (R72, R73, R75,
R76, R78, R81, R98 to R100, R102). -/

namespace Sys2Proof.Machine

variable {s t : State} {cls : FrameClass} {f : Flight} {others : List Bool}

/-! ## The begin of a send (R72, R73) -/

/-- The slot that equals a gap, below 128 slots on. -/
theorem gapTime_slot (now quiet : Word) {gap : Nat} (h : gap < 128) :
    elapsed (gapTime now quiet gap) quiet % 128 = gap ∧ elapsed (gapTime now quiet gap) now < 128 := by
  unfold gapTime currentSlot elapsed after
  have hlater : now + BitVec.ofNat 32 ((gap + 128 - (now - quiet).toNat % 128) % 128) - quiet
      = (now - quiet) + BitVec.ofNat 32 ((gap + 128 - (now - quiet).toNat % 128) % 128) := by
    generalize BitVec.ofNat 32 _ = k
    bv_omega
  have hnow : now + BitVec.ofNat 32 ((gap + 128 - (now - quiet).toNat % 128) % 128) - now
      = BitVec.ofNat 32 ((gap + 128 - (now - quiet).toNat % 128) % 128) := by
    generalize BitVec.ofNat 32 _ = k
    bv_omega
  rw [hlater, hnow]
  generalize now - quiet = d
  simp only [BitVec.toNat_add, BitVec.toNat_ofNat]
  omega

theorem accessGap_eq (cls : FrameClass) (station : BitVec 5) :
    accessGap cls station = (match cls with | .stop => 0 | .wheel => 32 | .state => 64) + station.toNat := by
  cases cls <;> rfl

theorem accessGap_lt (cls : FrameClass) (station : BitVec 5) : accessGap cls station < 128 := by
  have hstation : station.toNat < 32 := station.isLt
  unfold accessGap
  cases cls <;> simp only [gapBase] <;> omega

theorem exec_sendStart {quiet : Word} {body : List Byte} (hquiet : s.tk.quietAt = some quiet) (hbody : readyBody cls s.tk = some body)
    (hflight : s.tk.flight = none) :
    exec (.sendStart cls) s =
      .next (beginSend cls body { s with clock := gapTime s.clock quiet (accessGap cls s.su.station) }) := by
  show execSendStart cls s = _
  simp [execSendStart, hquiet, hbody, hflight]

/-! ## The end of a send (R75, R76) -/

/-- No bit collides when the line reads back what the station drives (R75). -/
theorem collisionAt_eq_none (bits others : List Bool) : collisionAt bits others = none ↔ wired bits others = bits := by
  induction bits generalizing others with
  | nil => simp [collisionAt, wired]
  | cons b bs ih =>
    cases others with
    | nil => simp [collisionAt, wired]
    | cons o os =>
      by_cases hbo : (b && !o) = true
      · obtain ⟨rfl, rfl⟩ : b = true ∧ o = false := by simpa using hbo
        simp [collisionAt, wired]
      · have hbit : (b && o) = b := by cases b <;> cases o <;> simp_all
        simp only [collisionAt, hbo, Bool.false_eq_true, if_false, Option.map_eq_none_iff, ih, wired, hbit, List.cons.injEq, true_and]

/-- A send that ends reads back what the station drove. -/
def readsBack (f : Flight) (others : List Bool) : Bool := (collisionAt f.bits others).isNone

theorem readsBack_iff (f : Flight) (others : List Bool) : readsBack f others = true ↔ wired f.bits others = f.bits := by
  rw [readsBack, Option.isNone_iff_eq_none, collisionAt_eq_none]

/-- The station at the end of a send, before the frame's slot takes it. -/
def landed (f : Flight) (others : List Bool) (s : State) : State :=
  countCollision (readsBack f others)
    (endFlight f others (advanceTo (after f.started (ceilDiv (bitsSent f.bits others) 4)) s))

/-- The end of a send empties the transmitter, and a collision is counted (R75). -/
theorem landed_frame (f : Flight) (others : List Bool) (s : State) :
    landed f others s =
      { s with
        clock := (landed f others s).clock
        tk := { s.tk with
          flight := none, lastTransition := (landed f others s).tk.lastTransition
          counters := if readsBack f others then s.tk.counters
            else { s.tk.counters with collisions := satIncr 65535 s.tk.counters.collisions } } } := by
  unfold landed countCollision endFlight
  rw [advanceTo_eq]
  cases readsBack f others <;> rfl

/-- The slot takes the end of its send in the peer table or in the STOP slot alone (R76). -/
theorem slotAfterSend_frame (f : Flight) (success : Bool) (s : State) :
    slotAfterSend f success s =
      { s with
        pt := (slotAfterSend f success s).pt, tk := { s.tk with stopSlot := (slotAfterSend f success s).tk.stopSlot } } := by
  unfold slotAfterSend
  split
  · split
    · rw [sentNotice_frame]
    · rfl
  · rfl
  · split <;> rfl

/-- Only a STATE frame sent without a collision gives a notice (R76). -/
theorem slotAfterSend_pt {success : Bool} (h : f.cls ≠ .state ∨ success = false) : (slotAfterSend f success s).pt = s.pt := by
  unfold slotAfterSend
  split
  · next hstate => rw [h.resolve_left (not_not.mpr hstate)]; rfl
  · rfl
  · split <;> rfl

theorem slotAfterSend_sent (hcls : f.cls = .state) : slotAfterSend f true s = sentNotice f.seq f.desk s := by
  simp [slotAfterSend, hcls]

/-- A body handed over meanwhile, and any other class, leave the STOP slot (R81). -/
theorem slotAfterSend_keepsStop {success : Bool} (h : f.cls ≠ .stop ∨ f.replaced = true) :
    (slotAfterSend f success s).tk.stopSlot = s.tk.stopSlot := by
  unfold slotAfterSend
  split
  · split
    · rw [sentNotice_frame]
    · rfl
  · rfl
  · next hstop => rw [if_pos (h.resolve_left (not_not.mpr hstop))]

theorem slotAfterSend_usesRepeat {success : Bool} (hcls : f.cls = .stop) (hkept : f.replaced = false) :
    (slotAfterSend f success s).tk.stopSlot = useRepeat s.tk.stopSlot := by
  simp [slotAfterSend, hcls, hkept]

/-- The station after the end of a send. -/
def sent (f : Flight) (others : List Bool) (s : State) : State := slotAfterSend f (readsBack f others) (landed f others s)

theorem exec_sendEnd (hflight : s.tk.flight = some f) :
    exec (.sendEnd others) s = .next (sent f others s) := by
  show execSendEnd others s = _
  simp [execSendEnd, hflight, sent, readsBack, landed]

/-- What the end of a send changes: the clock, the transmitter, a counter, and the slot or the peer table that takes it. -/
theorem sent_frame (f : Flight) (others : List Bool) (s : State) :
    sent f others s =
      { s with
        clock := (sent f others s).clock, pt := (sent f others s).pt
        tk := { s.tk with
          flight := none, lastTransition := (sent f others s).tk.lastTransition, stopSlot := (sent f others s).tk.stopSlot
          counters := if readsBack f others then s.tk.counters
            else { s.tk.counters with collisions := satIncr 65535 s.tk.counters.collisions } } } := by
  unfold sent
  have hslot := slotAfterSend_frame f (readsBack f others) (landed f others s)
  have hlanded := landed_frame f others s
  generalize slotAfterSend f (readsBack f others) (landed f others s) = t at hslot ⊢
  generalize landed f others s = l at hslot hlanded
  rw [hslot, hlanded]

theorem sent_pt (h : f.cls ≠ .state ∨ readsBack f others = false) : (sent f others s).pt = s.pt := by
  rw [sent, slotAfterSend_pt h, landed_frame]

theorem sent_keepsStop (h : f.cls ≠ .stop ∨ f.replaced = true) : (sent f others s).tk.stopSlot = s.tk.stopSlot := by
  rw [sent, slotAfterSend_keepsStop h, landed_frame]

theorem sent_usesRepeat (hcls : f.cls = .stop) (hkept : f.replaced = false) :
    (sent f others s).tk.stopSlot = useRepeat s.tk.stopSlot := by
  rw [sent, slotAfterSend_usesRepeat hcls hkept, landed_frame]

/-- The peer table after a notice is read from the peer table and from whether the desk is active. -/
theorem sentNotice_pt (seq : Byte) (c : DeskContent) (hdesk : deskActive t = deskActive s) (hpt : t.pt = s.pt) :
    (sentNotice seq c t).pt = (sentNotice seq c s).pt := by
  simp only [sentNotice, hdesk, hpt]
  split
  · rfl
  · exact hpt

/-- The sent notice finds the desk and the peer table as the send's end met them (R76, R102). -/
theorem sent_reading (hcls : f.cls = .state) (hread : readsBack f others = true) :
    (sent f others s).pt = (sentNotice f.seq f.desk s).pt := by
  rw [sent, hread, slotAfterSend_sent hcls]
  refine sentNotice_pt _ _ ?_ ?_ <;> rw [landed_frame]
  rfl

/-! ## The sent notice (R98 to R100, R102) -/

theorem deskKind?_isSome (code : Byte) : (deskKind? code).isSome = true ↔ 1 ≤ code.toNat ∧ code.toNat ≤ 10 := by
  revert code
  decide

theorem paired_iff (earlier : Option (Byte × DeskContent)) (seq : Byte) (c : DeskContent) :
    (earlier.any fun e => seq = e.1 + 1 && c = e.2) = true ↔ earlier = some (seq - 1, c) := by
  cases earlier with
  | none => simp
  | some e =>
    obtain ⟨last, held⟩ := e
    simp only [Option.any_some, Bool.and_eq_true, decide_eq_true_eq, Option.some.injEq, Prod.mk.injEq]
    exact and_congr ⟨fun h => by bv_omega, fun h => by bv_omega⟩ eq_comm

/-- A reading is adopted when it pairs with the one before it, and is a command of a serial that is new (R98, R99). -/
theorem adopts_iff (seq : Byte) (c : DeskContent) (pt : PeerTable) :
    adopts seq c pt = true ↔ pt.earlier = some (seq - 1, c) ∧ 1 ≤ c.kind.toNat ∧ c.kind.toNat ≤ 10 ∧ 1 ≤ c.serial.toNat
      ∧ c.serial.toNat ≤ 15 ∧ c.serial ≠ pt.adopted ∧ pt.join ≠ some c.serial := by
  unfold adopts adoptable
  simp only [Bool.and_eq_true, decide_eq_true_eq, deskKind?_isSome, paired_iff]
  tauto

theorem isNone_iff (c : DeskContent) : isNone c = true ↔ c.kind = 0 ∧ c.serial = 0 := by simp [isNone]

/-- The sent notice on the active desk: the adopted command waits as the confirmed one, and NONE empties it (R102). -/
theorem sentNotice_active (seq : Byte) (c : DeskContent) (hdesk : deskActive s = true) :
    let t := sentNotice seq c s
    t.pt = { s.pt with earlier := some (seq, c), adopted := t.pt.adopted, confirmed := t.pt.confirmed }
      ∧ (adopts seq c s.pt = true → t.pt.confirmed = some c ∧ t.pt.adopted = c.serial)
      ∧ (isNone c = true → t.pt.confirmed = none ∧ t.pt.adopted = 0)
      ∧ (adopts seq c s.pt = false → isNone c = false → t.pt.confirmed = s.pt.confirmed ∧ t.pt.adopted = s.pt.adopted) := by
  intro t
  have ht : t = { s with
      pt := { rememberReading seq c s.pt with
        confirmed := if adopts seq c s.pt then some c else if isNone c then none else s.pt.confirmed } } := if_pos hdesk
  rw [ht]
  refine ⟨rfl, fun hadopts => ?_, fun hnone => ?_, fun hadopts hnone => ?_⟩
  · simp [rememberReading, hadopts]
  · have hadopts : adopts seq c s.pt = false := by
      obtain ⟨hkind, -⟩ := (isNone_iff c).mp hnone
      refine Bool.eq_false_iff.mpr fun h => ?_
      obtain ⟨-, hlow, -⟩ := (adopts_iff seq c s.pt).mp h
      rw [hkind] at hlow
      exact absurd hlow (by decide)
    simp [rememberReading, hadopts, hnone]
  · simp [rememberReading, hadopts, hnone]

end Sys2Proof.Machine
end

section
/-! PROOFS. O33: the confirmed command among the tasks of a frame event, a RELEASE executed there, and the obligation (R98, R102, R131 to
R133, R150). -/

namespace Sys2Proof.Machine

variable {s t u w : State}

/-! ## The serial in the take report -/

theorem startRecording_serial (s : State) : (startRecording s).te.serial = s.te.serial := by
  unfold startRecording; split <;> rfl

theorem appendFrame_serial (s : State) : (appendFrame s).te.serial = s.te.serial := by
  unfold appendFrame
  split
  · rfl
  · exact congrArg Prod.fst (endDone_filed _ _)
  · rfl

theorem startPlay_serial (s : State) : (startPlay s).te.serial = s.te.serial := by
  have hasked : (askedToPlay s).te = s.te := by rw [askedToPlay_frame]
  cases hanswer : (requestAll .play (axisChans s) s).1 with
  | none => rw [startPlay_of_none hanswer, hasked]
  | some why =>
    rw [startPlay_of_some hanswer]
    show (holdAtSetpoint _ (askedToPlay s)).te.serial = _
    rw [holdAtSetpoint_frame, hasked]

theorem advancePlay_serial (s : State) : (advancePlay s).te.serial = s.te.serial := by
  simp only [advancePlay]
  split
  · refine (congrArg Prod.fst (endDone_filed _ _)).trans ?_
    show (holdAtLast _).te.serial = _
    rw [holdAtLast_frame]
  · rfl

theorem takeFrameEvent_serial (s : State) : (takeFrameEvent s).te.serial = s.te.serial := by
  unfold takeFrameEvent
  split
  · split
    · exact startRecording_serial s
    · rfl
  · exact appendFrame_serial s
  · split
    · exact startPlay_serial s
    · rfl
  · exact advancePlay_serial s
  all_goals rfl

theorem lockNotice_serial (new : Lock) (s : State) : (lockNotice new s).te.serial = s.te.serial := by
  obtain ⟨h, -⟩ | h | ⟨h, -⟩ := lockNotice_cases new s <;> rw [h]
  exact congrArg Prod.fst (loseTake_filed _ s)

theorem raiseAll_filed (silent : List Nat) : KeepsFiled (raiseAll silent) := fun s => by
  induction silent generalizing s with
  | nil => rfl
  | cons n rest ih =>
    refine (ih _).trans ?_
    show filed (raiseCause .peerSilent (BitVec.ofNat 8 n) 0 0 s) = filed s
    unfold raiseCause
    refine (actOnCause_ramp_filed _).trans ?_
    split <;> rfl

theorem executeRelease_filed : KeepsFiled executeRelease := fun s => by
  unfold executeRelease
  split
  · split
    · rfl
    · unfold enterReleasing
      exact (stopNotice_filed _ _ _).trans (KeepsFiled.chans (f := requestRelease) (fun _ _ => rfl) _ _)
  all_goals rfl

theorem stopFrameEvent_filed : KeepsFiled stopFrameEvent := fun s => by
  unfold stopFrameEvent
  show filed (if s.sc.pendingRelease then
      executeRelease { s with sc := { s.sc with dupWindow := s.sc.dupWindow - 1, pendingRelease := false } }
    else { s with sc := { s.sc with dupWindow := s.sc.dupWindow - 1 } }) = filed s
  split
  · exact executeRelease_filed _
  · rfl

/-! ## A confirmed take command among the tasks -/

/-- The tasks of a frame event but for the handing on of the confirmed command. -/
def otherThanHandOn (stamp : Word) (old new : Lock) : List (State → State) :=
  [buildState stamp, ageFrameEvent] ++ ([stopPart, takeFrameEvent] ++ if old = new then [] else [lockNotice new])

theorem frameTasks_handOn (stamp : Word) (old new : Lock) :
    (frameTasks stamp old new).Perm (handConfirmed :: otherThanHandOn stamp old new) :=
  List.perm_middle (l₁ := [buildState stamp, ageFrameEvent])

theorem mem_otherThanHandOn {stamp : Word} {old new : Lock} {f : State → State} (h : f ∈ otherThanHandOn stamp old new) :
    f = buildState stamp ∨ f = ageFrameEvent ∨ f = stopPart ∨ f = takeFrameEvent ∨ f = lockNotice new := by
  unfold otherThanHandOn at h
  rcases List.mem_append.mp h with h | h
  · simp only [List.mem_cons, List.not_mem_nil, or_false] at h
    tauto
  · rcases List.mem_append.mp h with h | h
    · simp only [List.mem_cons, List.not_mem_nil, or_false] at h
      tauto
    · split at h
      · exact absurd h List.not_mem_nil
      · rw [List.mem_singleton.mp h]; tauto

/-- While no RELEASE is confirmed, the other tasks leave the confirmed command, the serial, the image and the station number. -/
theorem otherThanHandOn_keep {stamp : Word} {old new : Lock} {f : State → State} (hf : f ∈ otherThanHandOn stamp old new)
    (h : confirmsRelease t.pt.confirmed = false) :
    (f t).pt.confirmed = t.pt.confirmed ∧ (f t).te.serial = t.te.serial ∧ (f t).cfg = t.cfg ∧ (f t).su = t.su := by
  rcases mem_otherThanHandOn hf with rfl | rfl | rfl | rfl | rfl
  · exact ⟨rfl, rfl, rfl, rfl⟩
  · have hstanding := ageFrameEvent_standing t
    refine ⟨congrArg Standing.confirmed hstanding, ?_, congrArg Standing.cfg hstanding, congrArg Standing.su hstanding⟩
    rw [ageFrameEvent_raises]
    exact congrArg Prod.fst (raiseAll_filed _ (agePeers t))
  · have hstanding := stopPart_standing t
    refine ⟨(congrArg Standing.confirmed hstanding).trans (if_neg (by rw [h]; exact Bool.false_ne_true)), ?_,
      congrArg Standing.cfg hstanding, congrArg Standing.su hstanding⟩
    unfold stopPart
    rw [handRelease_eq, if_neg (by rw [h]; exact Bool.false_ne_true)]
    exact congrArg Prod.fst (stopFrameEvent_filed t)
  · have hstands := takeFrameEvent_stands t
    exact ⟨congrArg Standing.confirmed hstands, takeFrameEvent_serial t, congrArg Standing.cfg hstands, congrArg Standing.su hstands⟩
  · have hstands := lockNotice_stands new t
    exact ⟨congrArg Standing.confirmed hstands, lockNotice_serial new t, congrArg Standing.cfg hstands, congrArg Standing.su hstands⟩

theorem takeCapable_congr (hcfg : t.cfg = s.cfg) (hsu : t.su = s.su) : takeCapable t = takeCapable s := by
  unfold takeCapable validImage isAxis chanCfg
  rw [hcfg, hsu]

/-- A confirmed command of the take engine leaves its serial in the report, whichever task is first (R102, R150). -/
theorem frameTasks_serial (stamp : Word) (old new : Lock) {c : DeskContent} (hconfirmed : s.pt.confirmed = some c)
    (hlow : 1 ≤ c.kind.toNat) (hhigh : c.kind.toNat ≤ 8) (hcapable : takeCapable s = true) :
    (inAnyOrder (frameTasks stamp old new) s).te.serial = c.serial := by
  let Before : State → Prop := fun t => t.pt.confirmed = some c ∧ takeCapable t = true
  let After : State → Prop := fun t => t.pt.confirmed = none ∧ t.te.serial = c.serial
  have hrelease : confirmsRelease (some c) = false := by
    refine decide_eq_false fun h => ?_
    rw [h] at hhigh
    exact absurd hhigh (by decide)
  have hacts : ∀ t, Before t → After (handConfirmed t) := by
    intro t ⟨ht, hcapable⟩
    refine ⟨congrArg Standing.confirmed (handConfirmed_standing t), ?_⟩
    obtain ⟨-, hnone⟩ | ⟨c', hsome, heq⟩ := handConfirmed_cases t
    · rw [ht] at hnone; cases hnone
    · obtain rfl : c' = c := Option.some.inj (hsome.symm.trans ht)
      rw [heq]
      refine executeDesk_serial (Option.isSome_iff_ne_none.mp ((deskKind?_isSome _).mpr ?_)) hhigh hcapable
      omega
  have hdone : After (inAnyOrder (frameTasks stamp old new) s) :=
    inAnyOrder_one (P := Before) (Q := After) hacts (fun f hf => ⟨fun t ⟨ht, hc⟩ => ?_, fun t ⟨ht, hserial⟩ => ?_⟩)
      (frameTasks_handOn stamp old new) fun _ _ => ⟨hconfirmed, hcapable⟩
  · exact hdone.2
  · obtain ⟨hkept, -, hcfg, hsu⟩ := otherThanHandOn_keep hf (by rw [ht]; exact hrelease)
    exact ⟨hkept.trans ht, (takeCapable_congr hcfg hsu).trans hc⟩
  · obtain ⟨hkept, hsame, -, -⟩ := otherThanHandOn_keep hf (by rw [ht]; rfl)
    exact ⟨hkept.trans ht, hsame.trans hserial⟩

/-! ## A RELEASE executed (R132, R133) -/

theorem enterReleasing_sc (s : State) :
    (enterReleasing s).sc =
      { s.sc with
        state := .releasing, stopTimer := none, brakeTimer := none
        releaseTimer := some (after s.clock (s.cfg.brakeRelease * 1000)), brakeReleased := true, first := none, last := none
        causes := 0, releaseFrame := s.ft.count, result := .released, resultCause := none
        remembered := List.replicate 30 none } := by
  unfold enterReleasing
  exact (stopNotice_sc _ _ _).1.trans (forChans_sc (f := requestRelease) (fun _ _ => ⟨rfl, rfl⟩) _ _).1

/-- No cause persists: the conditions of R132 one by one. -/
theorem persistingCause_eq_none (s : State) :
    persistingCause s = none ↔ s.su.validity ≠ .invalid ∧ s.sc.estop.level = true
      ∧ (∀ ch, isAxis s ch = true → fbFault (s.fb.get ch) = false) ∧ silentPeers s = [] ∧ s.sc.dupWindow = 0
      ∧ ∀ z ∈ s.zm.zones, z.cfg.keepOut = true → z.status ≠ .entered := by
  have hsilent : requiredSilent s = false ↔ silentPeers s = [] := by
    simp [requiredSilent, silentPeers, List.filter_eq_nil_iff]
  have hchans : (Chan.list.any fun ch => isAxis s ch && fbFault (s.fb.get ch)) = false
      ↔ ∀ ch, isAxis s ch = true → fbFault (s.fb.get ch) = false := by
    simp only [List.any_eq_false, Bool.and_eq_true, not_and, Bool.not_eq_true]
    exact ⟨fun h ch => h ch (mem_chanList ch), fun h ch _ => h ch⟩
  have hwindow : ¬0 < s.sc.dupWindow ↔ s.sc.dupWindow = 0 := by omega
  rw [← hsilent, ← hchans, ← hwindow]
  unfold persistingCause
  split_ifs <;> simp_all

theorem executeRelease_halted (hstate : s.sc.state = .halted) (hcause : persistingCause s = none) :
    executeRelease s = enterReleasing s := by
  simp [executeRelease, hstate, hcause]

/-- What a release executed at a frame event finds of the station that the event was handed to, and what the tasks before it leave. -/
structure Unreleased (s t : State) : Prop where
  place : place (standing t) = place (standing s)
  zm : t.zm = s.zm
  ft : t.ft = s.ft
  sc : t.sc = { s.sc with pendingRelease := t.sc.pendingRelease }

/-- What R132 makes of a release, by the stop state it meets. -/
structure Released (s t : State) : Prop where
  halted : s.sc.state = .halted → persistingCause s = none →
    t.sc.state = .releasing ∧ t.sc.result = .released ∧ t.sc.releaseFrame = s.ft.count ∧ t.sc.first = none
  busy : s.sc.state = .stopping ∨ s.sc.state = .braking ∨ s.sc.state = .releasing →
    t.sc.result = .refusedBusy ∧ t.sc.state = s.sc.state
  run : s.sc.state = .run → t.sc.result = .none ∧ t.sc.state = .run

theorem Unreleased.refl (s : State) : Unreleased s s := ⟨rfl, rfl, rfl, rfl⟩

theorem Unreleased.trans (h : Unreleased s t) (g : Unreleased t u) : Unreleased s u :=
  ⟨g.place.trans h.place, g.zm.trans h.zm, g.ft.trans h.ft, g.sc.trans (by rw [h.sc])⟩

theorem Released.congr (h : Released s t) (hsc : u.sc = { t.sc with pendingRelease := u.sc.pendingRelease }) : Released s u := by
  obtain ⟨hhalted, hbusy, hrun⟩ := h
  refine ⟨?_, ?_, ?_⟩ <;> rw [hsc] <;> assumption

theorem Unreleased.cfg (h : Unreleased s t) : t.cfg = s.cfg := congrArg (fun x => x.2.2.1) h.place

theorem Unreleased.su (h : Unreleased s t) : t.su = s.su := congrArg (fun x => x.2.1) h.place

theorem fbFault_shown {f g : Feedback} (h : shownFeedback f = shownFeedback g) : fbFault f = fbFault g := by
  simp only [shownFeedback, Prod.mk.injEq] at h
  obtain ⟨-, -, -, -, hillegal, hrail, hsaturation⟩ := h
  rw [fbFault, fbFault, illegalRate, illegalRate, hillegal, hrail, hsaturation]

theorem Unreleased.fbFault (h : Unreleased s t) (ch : Chan) : fbFault (t.fb.get ch) = fbFault (s.fb.get ch) := by
  have hfeedback : t.fb.map shownFeedback = s.fb.map shownFeedback := congrArg (fun x => x.2.2.2.2) h.place
  exact fbFault_shown (by simpa only [PerChan.get_map] using congrArg (PerChan.get · ch) hfeedback)

/-- A peer is silent only when it is required (R95). -/
theorem silentPeers_unrequired (h : ∀ n ∈ peerNumbers, requiredPeer s n = false) : silentPeers s = [] :=
  (silentPeers_eq_nil s).mpr fun n hn hrequired => absurd hrequired (by rw [h n hn]; exact Bool.false_ne_true)

theorem Unreleased.unrequired (h : Unreleased s t) (hnone : ∀ n ∈ peerNumbers, requiredPeer s n = false) :
    ∀ n ∈ peerNumbers, requiredPeer t n = false := fun n hn => by
  rw [← hnone n hn, requiredPeer, requiredPeer, h.cfg, h.su]

/-- The release finds no cause persisting that did not persist before the event, where no peer is required. -/
theorem Unreleased.persistingCause (h : Unreleased s t) (hnone : ∀ n ∈ peerNumbers, requiredPeer s n = false)
    (hcause : persistingCause s = none) : Machine.persistingCause t = none := by
  obtain ⟨hvalidity, hestop, hfb, -, hdup, hzones⟩ := (persistingCause_eq_none s).mp hcause
  refine (persistingCause_eq_none t).mpr ⟨by rw [h.su]; exact hvalidity, by rw [h.sc]; exact hestop, fun ch hch => ?_,
    silentPeers_unrequired (h.unrequired hnone), by rw [h.sc]; exact hdup, by rw [h.zm]; exact hzones⟩
  rw [h.fbFault]
  refine hfb ch ?_
  rw [← hch, isAxis, isAxis, chanCfg, chanCfg, h.cfg]

/-- The release executed (R132). -/
theorem Unreleased.executes (h : Unreleased s t) (hnone : ∀ n ∈ peerNumbers, requiredPeer s n = false) (dup : Nat)
    (hdup : dup ≤ t.sc.dupWindow) :
    Released s (executeRelease { t with sc := { t.sc with dupWindow := dup, pendingRelease := false } }) := by
  let w : State := { t with sc := { t.sc with dupWindow := dup, pendingRelease := false } }
  have hstate : w.sc.state = s.sc.state := (congrArg StopCtl.state h.sc :)
  refine ⟨fun hhalted hcause => ?_, fun hbusy => ?_, fun hrun => ?_⟩
  · have hpersists := h.persistingCause hnone hcause
    obtain ⟨hvalidity, hestop, hfb, hsilent, hwindow, hzones⟩ := (persistingCause_eq_none t).mp hpersists
    have hnoneLeft : Machine.persistingCause w = none :=
      (persistingCause_eq_none w).mpr ⟨hvalidity, hestop, hfb, hsilent, Nat.le_zero.mp (hwindow ▸ hdup), hzones⟩
    rw [executeRelease_halted (s := w) (hstate.trans hhalted) hnoneLeft, enterReleasing_sc]
    exact ⟨rfl, rfl, congrArg FrameTimer.count h.ft, rfl⟩
  · have hrefused : executeRelease w = { w with sc := { w.sc with result := .refusedBusy, resultCause := none } } := by
      unfold executeRelease
      rcases hbusy with hs | hs | hs <;> rw [hstate, hs]
    rw [hrefused]
    exact ⟨rfl, hstate⟩
  · have hidle : executeRelease w = { w with sc := { w.sc with result := .none, resultCause := none } } := by
      unfold executeRelease
      rw [hstate, hrun]
    rw [hidle]
    exact ⟨rfl, hstate.trans hrun⟩

/-- The tasks but the stop controller's own part. -/
def otherThanStop (stamp : Word) (old new : Lock) : List (State → State) :=
  [buildState stamp, ageFrameEvent, handConfirmed] ++ ([takeFrameEvent] ++ if old = new then [] else [lockNotice new])

theorem frameTasks_stop (stamp : Word) (old new : Lock) :
    (frameTasks stamp old new).Perm (stopPart :: otherThanStop stamp old new) :=
  List.perm_middle (l₁ := [buildState stamp, ageFrameEvent, handConfirmed])

theorem handConfirmed_unreleased (s : State) : Unreleased s (handConfirmed s) := by
  have hstanding := handConfirmed_standing s
  refine ⟨(congrArg place hstanding :), congrArg Standing.zm hstanding, congrArg Standing.ft hstanding, ?_⟩
  obtain ⟨h, -⟩ | ⟨c, -, h⟩ := handConfirmed_cases s <;> rw [h]
  exact (executeDesk_yields c { s with pt := { s.pt with confirmed := none } }).sc

theorem TakeWork.unreleased (h : TakeWork s t) (hstands : standing t = standing s) : Unreleased s t :=
  ⟨by rw [hstands], congrArg Standing.zm hstands, congrArg Standing.ft hstands, by rw [h.eq]⟩

/-- Where no peer is required, the other tasks change of the stop controller a pending release alone. -/
theorem otherThanStop_unreleased {stamp : Word} {old new : Lock} {f : State → State} (hf : f ∈ otherThanStop stamp old new)
    (hnone : ∀ n ∈ peerNumbers, requiredPeer t n = false) : Unreleased t (f t) := by
  unfold otherThanStop at hf
  rcases List.mem_append.mp hf with hf | hf
  · simp only [List.mem_cons, List.not_mem_nil, or_false] at hf
    rcases hf with rfl | rfl | rfl
    · exact ⟨rfl, rfl, rfl, rfl⟩
    · rw [ageFrameEvent_fresh (silentPeers_unrequired hnone)]
      exact ⟨rfl, rfl, rfl, rfl⟩
    · exact handConfirmed_unreleased t
  · rcases List.mem_append.mp hf with hf | hf
    · rw [List.mem_singleton.mp hf]
      exact (TakeWork.frame t).unreleased (takeFrameEvent_stands t)
    · split at hf
      · exact absurd hf List.not_mem_nil
      · rw [List.mem_singleton.mp hf]
        exact (TakeWork.lock new t).unreleased (lockNotice_stands new t)

/-- A release is confirmed or already pending. -/
def releaseWaits (s : State) : Prop := (s.sc.pendingRelease || confirmsRelease s.pt.confirmed) = true

theorem handConfirmed_waits (h : releaseWaits s) : (handConfirmed s).sc.pendingRelease = true :=
  (congrArg Standing.pendingRelease (handConfirmed_standing s)).trans h

theorem otherThanStop_waits {stamp : Word} {old new : Lock} {f : State → State} (hf : f ∈ otherThanStop stamp old new)
    (h : releaseWaits t) : releaseWaits (f t) := by
  have hkeep : (standing (f t)).pendingRelease = t.sc.pendingRelease → (standing (f t)).confirmed = t.pt.confirmed →
      releaseWaits (f t) := fun hpending hconfirmed => by
    have hpending' : (f t).sc.pendingRelease = t.sc.pendingRelease := hpending
    have hconfirmed' : (f t).pt.confirmed = t.pt.confirmed := hconfirmed
    rw [releaseWaits, hpending', hconfirmed']
    exact h
  unfold otherThanStop at hf
  rcases List.mem_append.mp hf with hf | hf
  · simp only [List.mem_cons, List.not_mem_nil, or_false] at hf
    rcases hf with rfl | rfl | rfl
    · exact h
    · refine hkeep ?_ ?_ <;> rw [ageFrameEvent_standing] <;> rfl
    · rw [releaseWaits, handConfirmed_waits h]; rfl
  · rcases List.mem_append.mp hf with hf | hf
    · rw [List.mem_singleton.mp hf] at hkeep ⊢
      refine hkeep ?_ ?_ <;> rw [takeFrameEvent_stands] <;> rfl
    · split at hf
      · exact absurd hf List.not_mem_nil
      · rw [List.mem_singleton.mp hf] at hkeep ⊢
        refine hkeep ?_ ?_ <;> rw [lockNotice_stands] <;> rfl

/-- The stop controller's part executes the release that waits, with the confirmed one handed on first (R102, R131). -/
theorem Unreleased.stopPart (h : Unreleased s t) (hwaits : releaseWaits t) (hnone : ∀ n ∈ peerNumbers, requiredPeer s n = false) :
    Released s (stopPart t) := by
  have hhanded : Unreleased t (handRelease t) ∧ (handRelease t).sc.pendingRelease = true := by
    rw [handRelease_eq]
    split
    · exact ⟨handConfirmed_unreleased t, handConfirmed_waits hwaits⟩
    · next hnot =>
      refine ⟨.refl t, ?_⟩
      rwa [releaseWaits, Bool.eq_false_iff.mpr hnot, Bool.or_false] at hwaits
  obtain ⟨hhand, hpending⟩ := hhanded
  have hexecuted := (h.trans hhand).executes hnone ((handRelease t).sc.dupWindow - 1) (Nat.sub_le _ _)
  have hsc : (Machine.stopPart t).sc = (executeRelease { handRelease t with
      sc := { (handRelease t).sc with dupWindow := (handRelease t).sc.dupWindow - 1, pendingRelease := false } }).sc := by
    unfold Machine.stopPart stopFrameEvent
    simp only [hpending, if_true]
  exact hexecuted.congr (by rw [hsc])

/-- A release confirmed or pending is executed once in the event, whichever task is first (R102, R131, R132). -/
theorem frameTasks_released (stamp : Word) (old new : Lock) (hwaits : releaseWaits s)
    (hnone : ∀ n ∈ peerNumbers, requiredPeer s n = false) : Released s (inAnyOrder (frameTasks stamp old new) s) := by
  let Before : State → Prop := fun t => Unreleased s t ∧ releaseWaits t
  let After : State → Prop := fun t => Released s t ∧ t.cfg = s.cfg ∧ t.su = s.su
  refine (inAnyOrder_one (P := Before) (Q := After) (fun t ⟨ht, hw⟩ => ?_)
    (fun f hf => ⟨fun t ⟨ht, hw⟩ => ?_, fun t ⟨ht, hcfg, hsu⟩ => ?_⟩) (frameTasks_stop stamp old new)
    fun _ _ => ⟨⟨rfl, rfl, rfl, rfl⟩, hwaits⟩).1
  · have hstanding := stopPart_standing t
    exact ⟨ht.stopPart hw hnone, (congrArg Standing.cfg hstanding).trans ht.cfg, (congrArg Standing.su hstanding).trans ht.su⟩
  · exact ⟨ht.trans (otherThanStop_unreleased hf (ht.unrequired hnone)), otherThanStop_waits hf hw⟩
  · have hkept := otherThanStop_unreleased hf (t := t) fun n hn => by
      rw [← hnone n hn, requiredPeer, requiredPeer, hcfg, hsu]
    exact ⟨ht.congr hkept.sc, hkept.cfg.trans hcfg, hkept.su.trans hsu⟩

/-! ## O33 -/

/-- A frame event that finds a command confirmed (R102, R131, R150). -/
theorem frameEvent_handsOn {pulse : Bool} {stamp : Word} {next : FrameTimer → FrameTimer} {c : DeskContent}
    (hconfirmed : s.pt.confirmed = some c) :
    let u := stamped pulse stamp next s
    let t := frameEvent pulse stamp next s
    t.pt.confirmed = none ∧ t.sc.pendingRelease = false ∧ t.ft.count = u.ft.count
      ∧ (1 ≤ c.kind.toNat → c.kind.toNat ≤ 8 → takeCapable s = true → t.te.serial = c.serial)
      ∧ (c.kind = 10 → (∀ n ∈ peerNumbers, requiredPeer s n = false) → Released u t) := by
  intro u t
  obtain ⟨hsc, hte, -⟩ := completeBuild_keeps (tasksDone pulse stamp next s)
  obtain ⟨w, report, hdone, -⟩ := frameEvent_done pulse stamp next s
  refine ⟨hdone.confirmed, (frameEvent_windows pulse stamp next s).2.1, congrArg (fun x => x.ft.count) hdone.fixed,
    fun hlow hhigh hcapable => ?_, fun hkind hnone => ?_⟩
  · refine (congrArg TakeEngine.serial hte).trans ?_
    exact frameTasks_serial (s := u) stamp _ _ hconfirmed hlow hhigh hcapable
  · have hwaits : releaseWaits u := by
      have hconfirms : confirmsRelease u.pt.confirmed = true := by
        rw [show u.pt.confirmed = some c from hconfirmed]
        exact decide_eq_true hkind
      rw [releaseWaits, hconfirms, Bool.or_true]
    refine (frameTasks_released stamp s.ft.lock (next s.ft).lock hwaits hnone).congr ?_
    rw [show t.sc = (tasksDone pulse stamp next s).sc from hsc]
    rfl

/-- Settles O33: a send is begun in its slot and ended by what the line reads back, and the command that its notice confirms is handed on
within the next frame event. -/
theorem sendBeginsAtGap : Obligations.SendBeginsAtGap := by
  refine ⟨fun cls quiet body s hquiet hbody hflight => ?begin, fun others f s hflight => ?send,
    fun time c s hdeadline hconfirmed => ?event⟩
  case begin =>
    obtain ⟨hslot, hlater⟩ := gapTime_slot s.clock quiet (accessGap_lt cls s.su.station)
    exact ⟨_, exec_sendStart hquiet hbody hflight, hslot.trans (accessGap_eq _ _), hlater,
      ⟨_, rfl, rfl, rfl, rfl, rfl, rfl⟩, rfl, rfl, rfl, rfl, rfl, rfl, rfl, rfl, rfl, rfl, rfl, rfl, rfl⟩
  case send =>
    have hread := readsBack_iff f others
    have hframe := sent_frame f others s
    refine ⟨_, exec_sendEnd hflight, by rw [hframe], fun hsame => ?_, fun hcollides => ?_, fun hcls => sent_pt (.inl hcls),
      sent_keepsStop, fun hcls hkept x hx => ?_, by rw [hframe], by rw [hframe], by rw [hframe], by rw [hframe], by rw [hframe],
      by rw [hframe], by rw [hframe], fun hcls hsame => ?_⟩
    · rw [hframe]; exact if_pos (hread.mpr hsame)
    · have hnot : readsBack f others = false := Bool.eq_false_iff.mpr (mt hread.mp hcollides)
      refine ⟨?_, sent_pt (.inr hnot)⟩
      rw [hframe]; exact if_neg (by rw [hnot]; exact Bool.false_ne_true)
    · rw [sent_usesRepeat hcls hkept, hx]; rfl
    · rw [sent_reading hcls (hread.mpr hsame)]
      refine ⟨fun hidle => by rw [sentNotice_idle _ _ _ hidle], fun hactive => ?_⟩
      obtain ⟨hrecord, hadopted, hnone, hneither⟩ := sentNotice_active f.seq f.desk hactive
      have hadopts := adopts_iff f.seq f.desk s.pt
      have hempty := isNone_iff f.desk
      exact ⟨hrecord, fun h => hadopted (hadopts.mpr h), fun h => hnone (hempty.mpr h), fun h h' =>
        hneither (Bool.eq_false_iff.mpr (mt hadopts.mp h)) (Bool.eq_false_iff.mpr (mt hempty.mp h'))⟩
  case event =>
    obtain ⟨clock, hexec⟩ := exec_frameDeadlineExpiry hdeadline
    obtain ⟨hnone, hpending, hcount, hserial, hrelease⟩ :=
      frameEvent_handsOn (s := { s with clock := clock }) (pulse := false) (stamp := time) (next := expiryLock) hconfirmed
    refine ⟨_, hexec, hnone, hpending, hserial, fun hkind hrequired => ?_⟩
    obtain ⟨hhalted, hbusy, hrun⟩ := hrelease hkind hrequired
    rw [hcount]
    exact ⟨hhalted, hbusy, hrun⟩

end Sys2Proof.Machine
end

section
/-! PROOFS. O35, the line: bytes and bits, stuffing and its removal, the end of a frame in the recessive bit times behind it (R71, R82). -/

namespace Sys2Proof.Machine

variable {c level : Bool} {run : Nat} {past bits line : List Bool}

/-! ## Bytes and bits (R82) -/

theorem byteOfBits (b : Byte) :
    BitVec.ofNat 8 (128 * (b.getLsbD 7).toNat + 64 * (b.getLsbD 6).toNat + 32 * (b.getLsbD 5).toNat + 16 * (b.getLsbD 4).toNat
      + 8 * (b.getLsbD 3).toNat + 4 * (b.getLsbD 2).toNat + 2 * (b.getLsbD 1).toNat + (b.getLsbD 0).toNat) = b := by
  revert b
  decide

theorem packBytes_bitsOf (b : Byte) (rest : List Bool) : packBytes (bitsOf b ++ rest) = b :: packBytes rest :=
  congrArg (· :: packBytes rest) (byteOfBits b)

/-- Fewer than eight bits make no byte (R82). -/
theorem packBytes_short {rest : List Bool} (h : rest.length < 8) : packBytes rest = [] := by
  unfold packBytes
  split
  · simp only [List.length_cons] at h; omega
  · rfl

theorem packBytes_bytes (bytes : List Byte) {rest : List Bool} (h : rest.length < 8) :
    packBytes (bytes.flatMap bitsOf ++ rest) = bytes := by
  induction bytes with
  | nil => exact packBytes_short h
  | cons b bs ih => rw [List.flatMap_cons, List.append_assoc, packBytes_bitsOf, ih]

/-! ## Stuffing (R71) -/

theorem unstuffFrom_length (level : Bool) (run : Nat) (skip : Bool) (bits : List Bool) :
    (unstuffFrom level run skip bits).length ≤ bits.length := by
  induction bits generalizing level run skip with
  | nil => exact Nat.le_refl _
  | cons b bs ih =>
    unfold unstuffFrom
    split
    · exact (ih _ _ _).trans (Nat.le_succ _)
    · exact Nat.succ_le_succ (ih _ _ _)

/-- What is sent after stuffed bits is read after those bits: both sides count the same runs (R71, log 9). -/
theorem unstuffFrom_stuffFrom (level : Bool) (run : Nat) (bits behind : List Bool) :
    ∃ rest, unstuffFrom level run false (stuffFrom level run bits ++ behind) = bits ++ rest ∧ rest.length ≤ behind.length := by
  induction bits generalizing level run with
  | nil => exact ⟨_, rfl, unstuffFrom_length _ _ _ _⟩
  | cons b bs ih =>
    by_cases hsix : (if b = level then run + 1 else 1) = 6
    · obtain ⟨rest, hrest, hlength⟩ := ih (!b) 1
      refine ⟨rest, ?_, hlength⟩
      simp only [stuffFrom, hsix, if_true, List.cons_append, unstuffFrom, Bool.false_eq_true, if_false, decide_true, hrest]
    · obtain ⟨rest, hrest, hlength⟩ := ih b (if b = level then run + 1 else 1)
      refine ⟨rest, ?_, hlength⟩
      simp only [stuffFrom, hsix, if_false, List.cons_append, unstuffFrom, Bool.false_eq_true, decide_false, hrest]

/-- On the line, no run of a frame is longer than six: `past` is the line so far, its last level first (R71). -/
theorem leadingRun_stuffFrom (c level : Bool) {run : Nat} (bits : List Bool) {past : List Bool} (hrun : run ≤ 5)
    (hlevel : leadingRun level past = run) (hother : leadingRun (!level) past = 0) :
    leadingRun c ((stuffFrom level run bits).reverse ++ past) ≤ 6 := by
  induction bits generalizing level run past with
  | nil =>
    show leadingRun c past ≤ 6
    obtain rfl | rfl : c = level ∨ c = !level := by cases c <;> cases level <;> simp
    · omega
    · omega
  | cons b bs ih =>
    let n := if b = level then run + 1 else 1
    have hn : leadingRun b (b :: past) = n := by
      by_cases hb : b = level
      · simp [leadingRun, n, hb, hlevel]
      · obtain rfl : b = !level := by cases b <;> cases level <;> simp_all
        simp [leadingRun, n, hother]
    have hbreak : leadingRun (!b) (b :: past) = 0 := by simp [leadingRun]
    by_cases hsix : n = 6
    · have hstuff : stuffFrom level run (b :: bs) = b :: (!b) :: stuffFrom (!b) 1 bs := if_pos hsix
      rw [hstuff]
      simp only [List.reverse_cons, List.append_assoc, List.singleton_append]
      exact ih (!b) (by decide) (by simp [leadingRun]) (by simp [leadingRun])
    · have hstuff : stuffFrom level run (b :: bs) = b :: stuffFrom b n bs := if_neg hsix
      have hle : n ≤ 6 := by show (if b = level then run + 1 else 1) ≤ 6; split <;> omega
      rw [hstuff]
      simp only [List.reverse_cons, List.append_assoc, List.singleton_append]
      exact ih b (by omega) hn hbreak

theorem leadingRun_stuff (c : Bool) (bits : List Bool) : leadingRun c (stuff bits).reverse ≤ 6 := by
  have h := leadingRun_stuffFrom c true bits (run := 0) (past := []) (by decide) rfl rfl
  rwa [List.append_nil] at h

/-! ## The end of the frame (R82, log 8) -/

theorem leadingRun_replicate (n : Nat) (line : List Bool) :
    leadingRun true (List.replicate n true ++ line) = n + leadingRun true line := by
  induction n with
  | zero => simp
  | succ n ih => simp only [List.replicate_succ, List.cons_append, leadingRun, if_true, ih]; omega

/-- Of the recessive bit times behind a frame, at most seven are taken for its own. -/
theorem trimTail_recessive (n : Nat) (h : ∀ c, leadingRun c line.reverse ≤ 6) :
    ∃ k ≤ 7, trimTail (line ++ List.replicate n true) = line ++ List.replicate k true := by
  have hreverse : (line ++ List.replicate n true).reverse = List.replicate n true ++ line.reverse := by simp
  unfold trimTail
  simp only [hreverse]
  cases n with
  | zero =>
    refine ⟨0, by decide, ?_⟩
    have hshort : leadingRun (line.reverse.headD true) line.reverse - 7 = 0 := by
      have := h (line.reverse.headD true)
      omega
    simp only [List.replicate_zero, List.nil_append, hshort, List.drop_zero, List.reverse_reverse, List.append_nil]
  | succ n =>
    have hsix := h true
    have hhead : (List.replicate (n + 1) true ++ line.reverse).headD true = true := rfl
    rw [hhead, leadingRun_replicate]
    have hfits : n + 1 + leadingRun true line.reverse - 7 ≤ n + 1 := by omega
    refine ⟨n + 1 - (n + 1 + leadingRun true line.reverse - 7), by omega, ?_⟩
    rw [List.drop_append_of_le_length (by simpa using hfits), List.drop_replicate]
    simp

/-- The bytes of a frame come back from its levels and the recessive line behind them. -/
theorem gather_lineBits (bytes : List Byte) (n : Nat) : gather (lineBits bytes ++ List.replicate n true) = bytes := by
  obtain ⟨k, hk, htrim⟩ := trimTail_recessive n fun c => leadingRun_stuff c (bytes.flatMap bitsOf)
  obtain ⟨rest, hrest, hlength⟩ := unstuffFrom_stuffFrom true 0 (bytes.flatMap bitsOf) (List.replicate k true)
  rw [List.length_replicate] at hlength
  unfold gather lineBits
  rw [htrim]
  show packBytes (unstuffFrom true 0 false (stuffFrom true 0 (bytes.flatMap bitsOf) ++ _)) = bytes
  rw [hrest]
  exact packBytes_bytes bytes (by omega)

end Sys2Proof.Machine
end

section
/-! PROOFS. O35, the frame and its STATE body: the envelope passes the checks, and every field of a body is read where it was written (R77,
R83, R181, sections 12.4.1 and 12.4.2). -/

namespace Sys2Proof.Machine

variable {kind source : Byte} {body : List Byte}

/-! ## The envelope (section 12.4.1) -/

/-- What the CRC of a frame covers. -/
def coveredBytes (kind source : Byte) (body : List Byte) : List Byte := kind :: BitVec.ofNat 8 body.length :: source :: body

theorem envelope_eq (kind source : Byte) (body : List Byte) :
    envelope kind source body = 53 :: 202 :: (coveredBytes kind source body ++ be16 (crc16 (coveredBytes kind source body))) := rfl

theorem envelope_length (kind source : Byte) (body : List Byte) : (envelope kind source body).length = 7 + body.length := by
  simp [envelope, be16]
  omega

theorem byteAt_append_right (before rest : List Byte) (i : Nat) : byteAt (before ++ rest) (before.length + i) = byteAt rest i := by
  simp [byteAt, List.getD_eq_getElem?_getD, List.getElem?_append_right]

theorem envelope_covered (kind source : Byte) (body : List Byte) :
    ((envelope kind source body).drop 2).take ((envelope kind source body).length - 4) = coveredBytes kind source body := by
  have hlength : (envelope kind source body).length - 4 = (coveredBytes kind source body).length := by
    rw [envelope_length]
    simp only [coveredBytes, List.length_cons]
    omega
  rw [hlength, envelope_eq]
  exact List.take_left

/-- The last two bytes are the check code of the bytes it covers. -/
theorem envelope_crc (kind source : Byte) (body : List Byte) :
    let b := envelope kind source body
    byteAt b (b.length - 2) ++ byteAt b (b.length - 1) = crc16 (coveredBytes kind source body) := by
  intro b
  have hfront : b = (53 :: 202 :: coveredBytes kind source body) ++ be16 (crc16 (coveredBytes kind source body)) := rfl
  have hlength : b.length = (53 :: 202 :: coveredBytes kind source body : List Byte).length + 2 := by rw [hfront, List.length_append]; rfl
  have hhigh : b.length - 2 = (53 :: 202 :: coveredBytes kind source body : List Byte).length + 0 := by omega
  have hlow : b.length - 1 = (53 :: 202 :: coveredBytes kind source body : List Byte).length + 1 := by omega
  rw [hhigh, hlow, hfront, byteAt_append_right, byteAt_append_right]
  exact BitVec.extractLsb'_append_extractLsb' (w := 8) (len := 8)

theorem frameBody_envelope (kind source : Byte) (body : List Byte) : frameBody (envelope kind source body) = body := by
  have hlength : (envelope kind source body).length - 7 = body.length := by rw [envelope_length]; omega
  unfold frameBody
  rw [hlength]
  exact List.take_left

/-- The body length of a class (section 12.4.1). -/
def classSize : FrameClass → Nat
  | .state => 123
  | .wheel => 13
  | .stop => 9

/-- A frame of a station 1 to 30 with a body of its class's length passes every check (R83). -/
theorem failedCheck_envelope {cls : FrameClass} (hlow : 1 ≤ source.toNat) (hhigh : source.toNat ≤ 30)
    (hlength : body.length = classSize cls) : failedCheck (envelope (kindByte cls) source body) = none := by
  have hsize : kindSize (envelope (kindByte cls) source body) = classSize cls := by cases cls <;> rfl
  have hkind : ¬namesNoKind (envelope (kindByte cls) source body) := by
    show ¬((kindByte cls).toNat = 0 ∨ 4 ≤ (kindByte cls).toNat)
    cases cls <;> decide
  have hbody : natAt (envelope (kindByte cls) source body) 3 = classSize cls := by
    show (BitVec.ofNat 8 body.length).toNat = classSize cls
    rw [hlength]
    cases cls <;> rfl
  have htotal := envelope_length (kindByte cls) source body
  rw [failedCheck_eq, if_neg, if_neg, if_neg hkind, if_neg, if_neg]
  · show ¬(source.toNat = 0 ∨ 31 ≤ source.toNat)
    omega
  · rw [badLength, hsize, hbody, htotal, hlength]
    simp
  · rw [badCrc, envelope_covered, envelope_crc]
    exact fun h => h rfl
  · rw [badFraming, htotal]
    rintro (hshort | hfirst | hsecond)
    · omega
    · exact hfirst rfl
    · exact hsecond rfl

/-! ## Fields in a body (section 4.3) -/

/-- A list of bytes holds a field from a place on. -/
def HoldsAt (b field : List Byte) (place : Nat) : Prop := ∃ before behind, b = before ++ (field ++ behind) ∧ before.length = place

theorem HoldsAt.here (field behind : List Byte) : HoldsAt (field ++ behind) field 0 := ⟨[], behind, rfl, rfl⟩

theorem HoldsAt.later {b field : List Byte} {place : Nat} (before : List Byte) (h : HoldsAt b field place) :
    HoldsAt (before ++ b) field (before.length + place) := by
  obtain ⟨front, behind, rfl, rfl⟩ := h
  exact ⟨before ++ front, behind, (List.append_assoc _ _ _).symm, List.length_append⟩

theorem HoldsAt.of_place {b field : List Byte} {place place' : Nat} (h : HoldsAt b field place) (hplace : place = place') :
    HoldsAt b field place' := hplace ▸ h

section
variable {b field : List Byte} {place k : Nat}

theorem HoldsAt.byteAt (h : HoldsAt b field place) (hk : k < field.length) : byteAt b (place + k) = byteAt field k := by
  obtain ⟨before, behind, rfl, rfl⟩ := h
  rw [byteAt_append_right]
  simp [Machine.byteAt, List.getD_eq_getElem?_getD, List.getElem?_append_left hk]

theorem HoldsAt.word16At (h : HoldsAt b field place) (hk : k + 1 < field.length) : word16At b (place + k) = word16At field k := by
  rw [Machine.word16At, Machine.word16At, Nat.add_assoc, h.byteAt hk, h.byteAt (by omega)]

theorem HoldsAt.word32At (h : HoldsAt b field place) (hk : k + 3 < field.length) : word32At b (place + k) = word32At field k := by
  simp only [Machine.word32At, Nat.add_assoc]
  rw [h.byteAt hk, h.byteAt (by omega), h.byteAt (by omega), h.byteAt (by omega)]

theorem HoldsAt.intAt (h : HoldsAt b field place) (hk : k + 3 < field.length) : intAt b (place + k) = intAt field k :=
  congrArg BitVec.toInt (h.word32At hk)

end

theorem word16At_be16 (w : BitVec 16) : word16At (be16 w) 0 = w :=
  BitVec.extractLsb'_append_extractLsb' (w := 8) (len := 8)

theorem word32At_be32 (w : Word) : word32At (be32 w) 0 = w := by
  have hhigh : w.extractLsb' 24 8 ++ w.extractLsb' 16 8 = w.extractLsb' 16 16 :=
    BitVec.extractLsb'_append_extractLsb'_eq_extractLsb' rfl
  have hlow : w.extractLsb' 8 8 ++ w.extractLsb' 0 8 = w.extractLsb' 0 16 :=
    BitVec.extractLsb'_append_extractLsb'_eq_extractLsb' rfl
  show (w.extractLsb' 24 8 ++ w.extractLsb' 16 8) ++ (w.extractLsb' 8 8 ++ w.extractLsb' 0 8) = w
  rw [hhigh, hlow]
  exact BitVec.extractLsb'_append_extractLsb' (w := 16) (len := 16)

/-! ## The fields of a STATE body (R77, R181, section 12.4.2) -/

@[simp] theorem be16_length (w : BitVec 16) : (be16 w).length = 2 := rfl
@[simp] theorem be32_length (w : Word) : (be32 w).length = 4 := rfl
@[simp] theorem nat16_length (n : Nat) : (nat16 n).length = 2 := rfl
@[simp] theorem deskBytes_length (d : DeskContent) : (deskBytes d).length = 11 := rfl
@[simp] theorem chanRecBytes_length (c : ChanRec) : (chanRecBytes c).length = 18 := rfl

@[simp] theorem causeTail_length (r : Option CauseRec) : (causeTail r).length = 6 := by
  cases r <;> rfl

theorem stateBytes_length (body : StateBody) : (stateBytes body).length = 123 := by
  simp [stateBytes, counterBytes]

/-- Where the fields of more than one byte stand. -/
theorem stateBytes_fields (body : StateBody) :
    HoldsAt (stateBytes body) (be32 body.count) 1 ∧ HoldsAt (stateBytes body) (nat16 body.length) 17
      ∧ HoldsAt (stateBytes body) (deskBytes body.desk) 23
      ∧ ∀ ch, HoldsAt (stateBytes body) (chanRecBytes (body.chans.get ch)) (chanRecAt ch.number) := by
  unfold stateBytes
  simp only [List.append_assoc]
  refine ⟨.of_place (.later _ (.here _ _)) rfl, .of_place (.later _ (.later _ (.later _ (.here _ _)))) (by simp),
    .of_place (.later _ (.later _ (.later _ (.later _ (.later _ (.here _ _)))))) (by simp), fun ch => ?_⟩
  cases ch with
  | A => exact .of_place (.later _ (.later _ (.later _ (.later _ (.later _ (.later _ (.here _ _))))))) (by simp [chanRecAt, Chan.number])
  | B =>
    exact .of_place (.later _ (.later _ (.later _ (.later _ (.later _ (.later _ (.later _ (.here _ _))))))))
      (by simp [chanRecAt, Chan.number])
  | C =>
    exact .of_place (.later _ (.later _ (.later _ (.later _ (.later _ (.later _ (.later _ (.later _ (.here _ _)))))))))
      (by simp [chanRecAt, Chan.number])

/-- The fields of one byte. -/
theorem stateBytes_bytes (body : StateBody) :
    let b := stateBytes body
    byteAt b 0 = body.seq ∧ byteAt b 5 = bit body.capable 7 ||| (codeLock body.lock <<< 5) ||| bit body.aligned 4
      ∧ byteAt b 6 = codeStop body.stop.state ∧ byteAt b 14 = body.presence.setWidth 8 ∧ byteAt b 15 = codePhase body.phase
      ∧ byteAt b 16 = nat8 body.take ∧ byteAt b 19 = codeResult body.result ∧ byteAt b 20 = codeFault body.fault
      ∧ byteAt b 21 = bit body.spoiled 0 ||| bit body.holdover 1 ∧ byteAt b 22 = body.serial := by
  simp [stateBytes, byteAt, be32, nat16, be16]

theorem flagByte_capable (capable : Bool) (lock : Lock) (aligned : Bool) :
    (bit capable 7 ||| (codeLock lock <<< 5) ||| bit aligned 4).getLsbD 7 = capable := by
  cases capable <;> cases lock <;> cases aligned <;> decide

theorem flagByte_take (spoiled holdover : Bool) :
    (bit spoiled 0 ||| bit holdover 1).getLsbD 0 = spoiled ∧ (bit spoiled 0 ||| bit holdover 1).getLsbD 1 = holdover := by
  cases spoiled <;> cases holdover <;> decide

theorem codeStop_stopped (st : StopState) :
    codeStop st = 1 ∨ codeStop st = 2 ∨ codeStop st = 3 ↔ st = .stopping ∨ st = .braking ∨ st = .halted := by
  cases st <;> decide

theorem codeRef_referenced (r : RefState) : (codeRef r).toNat / 16 = 4 ↔ r = .referenced := by
  cases r with
  | failed why => cases why <;> decide
  | _ => decide

theorem bodyDesk_stateBytes (body : StateBody) : bodyDesk (stateBytes body) = body.desk := by
  obtain ⟨-, -, hdesk, -⟩ := stateBytes_fields body
  have hkind : byteAt (stateBytes body) 23 = body.desk.kind := hdesk.byteAt (k := 0) (by simp)
  have hserial : byteAt (stateBytes body) 24 = body.desk.serial := hdesk.byteAt (k := 1) (by simp)
  have htake : byteAt (stateBytes body) 25 = body.desk.take := hdesk.byteAt (k := 2) (by simp)
  have hstart : word32At (stateBytes body) 26 = body.desk.start := (hdesk.word32At (k := 3) (by simp)).trans (word32At_be32 _)
  have hrate : word16At (stateBytes body) 30 = body.desk.rate := (hdesk.word16At (k := 7) (by simp)).trans (word16At_be16 _)
  have hlength : word16At (stateBytes body) 32 = body.desk.length := (hdesk.word16At (k := 9) (by simp)).trans (word16At_be16 _)
  rw [bodyDesk, hkind, hserial, htake, hstart, hrate, hlength]

/-- A position or velocity of 32 bits, and the stopping distance, are read as they were written. -/
theorem bodyMotion_stateBytes (body : StateBody) (ch : Chan)
    (hposition : -2 ^ 31 ≤ (body.chans.get ch).position ∧ (body.chans.get ch).position < 2 ^ 31)
    (hvelocity : -2 ^ 31 ≤ (body.chans.get ch).velocity ∧ (body.chans.get ch).velocity < 2 ^ 31)
    (hsd : (body.chans.get ch).sd < 2 ^ 32) :
    bodyMotion (stateBytes body) ch.number =
      ((body.chans.get ch).position, (body.chans.get ch).velocity, ((body.chans.get ch).sd : Int)) := by
  obtain ⟨-, -, -, hchans⟩ := stateBytes_fields body
  have hrecord := hchans ch
  generalize body.chans.get ch = r at *
  have hfield : ∀ i : Int, -2 ^ 31 ≤ i → i < 2 ^ 31 → intAt (int32 i) 0 = i := fun i hlow hhigh => by
    show (word32At (be32 (BitVec.ofInt 32 i)) 0).toInt = i
    rw [word32At_be32]
    exact BitVec.toInt_ofInt_eq_self (by decide) hlow hhigh
  have hp : intAt (stateBytes body) (chanRecAt ch.number + 2) = r.position :=
    (hrecord.intAt (by simp)).trans (hfield _ hposition.1 hposition.2)
  have hv : intAt (stateBytes body) (chanRecAt ch.number + 6) = r.velocity :=
    (hrecord.intAt (by simp)).trans (hfield _ hvelocity.1 hvelocity.2)
  have hs : word32At (stateBytes body) (chanRecAt ch.number + 10) = BitVec.ofNat 32 r.sd :=
    (hrecord.word32At (by simp)).trans (word32At_be32 _)
  rw [bodyMotion, hp, hv, hs, BitVec.toNat_ofNat, Nat.mod_eq_of_lt hsd]

theorem bodyReferenced_stateBytes (body : StateBody) (ch : Chan) :
    bodyReferenced (stateBytes body) ch.number = true ↔ (body.chans.get ch).ref = .referenced := by
  obtain ⟨-, -, -, hchans⟩ := stateBytes_fields body
  have href : byteAt (stateBytes body) (chanRecAt ch.number + 1) = codeRef (body.chans.get ch).ref :=
    (hchans ch).byteAt (k := 1) (by simp)
  rw [← codeRef_referenced, ← href]
  exact decide_eq_true_iff

/-- Settles O35: stuffing and its removal count the same runs, the envelope passes the checks it was made for, and each field of a body is
read at the place it was written to. -/
theorem framesSurviveTheLine : Obligations.FramesSurviveTheLine := by
  refine ⟨gather_lineBits, fun cls source body n hlow hhigh hlength => ?frame, fun body hranges => ?body⟩
  case frame =>
    have hsize : body.length = classSize cls := by rw [hlength]; cases cls <;> rfl
    intro b
    have hb : b = envelope (kindByte cls) source body := gather_lineBits _ n
    rw [hb]
    exact ⟨failedCheck_envelope hlow hhigh hsize, rfl, rfl, frameBody_envelope _ _ _⟩
  case body =>
    intro b
    obtain ⟨hseq, hflags, hstop, hpresence, hphase, htake, hresult, hfault, hmarks, hserial⟩ := stateBytes_bytes body
    obtain ⟨hcount, hlength, -, -⟩ := stateBytes_fields body
    have hlength' : word16At b 17 = BitVec.ofNat 16 body.length := (hlength.word16At (k := 0) (by simp)).trans (word16At_be16 _)
    obtain ⟨hspoiled, hholdover⟩ := flagByte_take body.spoiled body.holdover
    refine ⟨stateBytes_length body, hseq, (hcount.word32At (k := 0) (by simp)).trans (word32At_be32 _), ?_, ?_, fun k hk => ?_,
      bodyDesk_stateBytes body, ?_, fun ch => ?_⟩
    · rw [bodyCapable, hflags, flagByte_capable]
    · rw [bodyStopped_iff, hstop, codeStop_stopped]
    · have hwide : k < 8 := by omega
      rw [bodyPresence, hpresence, Nat.add_sub_cancel]
      simp [hwide]
    · rw [peerReport, hstop, hphase, htake, hlength', hresult, hfault, hmarks, hspoiled, hholdover, hserial]
    · obtain ⟨hplow, hphigh, hvlow, hvhigh, hsd⟩ := hranges ch
      exact ⟨bodyReferenced_stateBytes body ch, bodyMotion_stateBytes body ch ⟨hplow, hphigh⟩ ⟨hvlow, hvhigh⟩ hsd⟩

end Sys2Proof.Machine
end

section
/-! PROOFS. O38: the reading that is adopted and what it leaves, the join serial, and the station that executes no desk command (R98 to
R101). -/

namespace Sys2Proof.Machine

variable {seq : Byte} {c : DeskContent} {pt : PeerTable}

/-! ## Adoption (R98 to R100) -/

theorem adoptable_iff (c : DeskContent) :
    adoptable c = true ↔ 1 ≤ c.kind.toNat ∧ c.kind.toNat ≤ 10 ∧ 1 ≤ c.serial.toNat ∧ c.serial.toNat ≤ 15 := by
  unfold adoptable
  simp only [Bool.and_eq_true, decide_eq_true_eq, deskKind?_isSome, and_assoc]

/-- The pairing of R99, read as the consecutive earlier reading or as the one content that pairs. -/
theorem exists_paired_iff (earlier : Option (Byte × DeskContent)) (seq : Byte) (c : DeskContent) :
    (∃ e, earlier = some e ∧ seq = e.1 + 1 ∧ c = e.2) ↔ earlier = some (seq - 1, c) := by
  rw [← paired_iff, Option.any_eq_true]
  simp only [Bool.and_eq_true, decide_eq_true_eq]

theorem rememberReading_adopts (h : adopts seq c pt = true) : (rememberReading seq c pt).adopted = c.serial := by
  rw [rememberReading_adopted, if_pos h]

theorem rememberReading_keeps (h : adopts seq c pt = false) :
    (rememberReading seq c pt).adopted = if c.kind = 0 ∧ c.serial = 0 then 0 else pt.adopted := by
  rw [rememberReading_adopted, if_neg (Bool.eq_false_iff.mp h)]

theorem adopts_of_adopted (h : c.serial = pt.adopted) : adopts seq c pt = false := by
  refine Bool.eq_false_iff.mpr fun hadopts => ?_
  obtain ⟨-, -, -, -, -, hnew, -⟩ := (adopts_iff seq c pt).mp hadopts
  exact hnew h

/-! ## The join serial (R101) -/

theorem joinAfter_absent (join : Option Byte) (h : adoptable c = true) : joinAfter true c join = some c.serial := if_pos h

theorem joinAfter_absent_none (join : Option Byte) (h : adoptable c = false) : joinAfter true c join = none :=
  if_neg (Bool.eq_false_iff.mp h)

theorem joinAfter_same {join : Option Byte} (h : join = some c.serial) : joinAfter false c join = join := if_pos h

theorem joinAfter_other {join : Option Byte} (h : join ≠ some c.serial) : joinAfter false c join = none := if_neg h

theorem not_adoptable (h : c.kind = 0 ∨ 10 < c.kind.toNat ∨ c.serial = 0 ∨ 15 < c.serial.toNat) : adoptable c = false := by
  refine Bool.eq_false_iff.mpr fun hadoptable => ?_
  obtain ⟨hkind, hkind', hserial, hserial'⟩ := (adoptable_iff c).mp hadoptable
  rcases h with h | h | h | h
  · simp [h] at hkind
  · omega
  · simp [h] at hserial
  · omega

/-! ## The executing station (R98) -/

theorem executesDesk_iff (s : State) :
    executesDesk s = true ↔ s.su.phase = .done ∧ s.su.validity = .valid ∧ s.cfg.desk ≠ 0 := by
  simp [executesDesk, started, validImage, and_assoc]

/-- The ten commands of R98, with every operand they may carry. -/
def deskCommands (serial take : Byte) (start : Word) (rate length : BitVec 16) : List Instr :=
  [.record serial take start, .endTake serial, .cue serial take, .run serial take start rate length, .abort serial,
    .erase serial take, .protect serial take, .live serial, .reference, .release]

/-- Each of the ten commands acts through the station's check that it executes desk commands. -/
theorem exec_deskCommands {serial take : Byte} {start : Word} {rate length : BitVec 16} {c : Instr}
    (h : c ∈ deskCommands serial take start rate length) : ∃ f, ∀ s, exec c s = .next (deskCommand f s) := by
  simp only [deskCommands, List.mem_cons, List.not_mem_nil, or_false] at h
  rcases h with rfl | rfl | rfl | rfl | rfl | rfl | rfl | rfl | rfl | rfl
  all_goals exact ⟨_, fun _ => rfl⟩

theorem exec_deskCommands_ignored {serial take : Byte} {start : Word} {rate length : BitVec 16} {c : Instr} {s : State}
    (hdesk : executesDesk s = false) (h : c ∈ deskCommands serial take start rate length) : exec c s = .next s := by
  obtain ⟨f, hf⟩ := exec_deskCommands h
  rw [hf, deskCommand, hdesk]
  rfl

/-- Settles O38: the pair and the new serial decide an adoption, which takes the serial that a later reading would need new; the join serial
by what the arrival found; the ten commands by the check they share. -/
theorem adoptionNeedsAPair : Obligations.AdoptionNeedsAPair := by
  refine ⟨fun seq c pt => ⟨?adopted, fun h => ⟨rememberReading_adopts h, fun seq' c' hsame => ?once⟩, rfl, rememberReading_keeps⟩,
    fun c join => ⟨fun hkind hkind' hserial hserial' => ?join, fun h => joinAfter_absent_none join (not_adoptable h), joinAfter_same,
      joinAfter_other⟩,
    fun s => ⟨executesDesk_iff s, fun hdesk _ _ _ _ _ c hc => exec_deskCommands_ignored hdesk hc⟩⟩
  case adopted => rw [exists_paired_iff, adopts_iff]
  case once => exact adopts_of_adopted (hsame.trans (rememberReading_adopts h).symm)
  case join => exact joinAfter_absent join ((adoptable_iff c).mpr ⟨hkind, hkind', hserial, hserial'⟩)

end Sys2Proof.Machine
end

section
/-! PROOFS. O40: the status of a term and of a zone (R112, R113). -/

namespace Sys2Proof.Machine

/-! ## The reach (R112) -/

/-- The reach interval lies on the side of the motion. -/
theorem mem_reach (pos v sd k : Int) :
    (reach pos v sd).1 ≤ k ∧ k ≤ (reach pos v sd).2
      ↔ (0 < v ∧ pos ≤ k ∧ k ≤ pos + sd) ∨ (v < 0 ∧ pos - sd ≤ k ∧ k ≤ pos) ∨ (v = 0 ∧ k = pos) := by
  unfold reach
  split_ifs <;> simp only [] <;> omega

theorem reach_ordered {sd : Int} (pos v : Int) (h : 0 ≤ sd) : (reach pos v sd).1 ≤ (reach pos v sd).2 := by
  unfold reach
  split_ifs <;> simp only [] <;> omega

/-- Two intervals that both have a place share one exactly when neither lies beyond the other. -/
theorem intervals_meet {lo hi a b : Int} (h : lo ≤ hi) (h' : a ≤ b) :
    (a ≤ hi ∧ lo ≤ b) ↔ ∃ k, lo ≤ k ∧ k ≤ hi ∧ a ≤ k ∧ k ≤ b := by
  constructor
  · rintro ⟨hahi, hlob⟩
    exact ⟨max lo a, le_max_left _ _, max_le h hahi, le_max_right _ _, max_le hlob h'⟩
  · rintro ⟨k, hlo, hhi, ha, hb⟩
    exact ⟨ha.trans hhi, hlo.trans hb⟩

/-! ## The status of a term (R112) -/

variable {lo hi pos v sd : Int}

theorem statusOfInputs_inside : statusOfInputs lo hi pos v sd = .inside ↔ lo ≤ pos ∧ pos ≤ hi := by
  unfold statusOfInputs
  split_ifs with hin hmeet <;> simp_all

theorem statusOfInputs_reachable :
    statusOfInputs lo hi pos v sd = .reachable
      ↔ ¬(lo ≤ pos ∧ pos ≤ hi) ∧ (reach pos v sd).1 ≤ hi ∧ lo ≤ (reach pos v sd).2 := by
  unfold statusOfInputs
  split_ifs with hin hmeet <;> simp_all

theorem statusOfInputs_clear :
    statusOfInputs lo hi pos v sd = .clear
      ↔ ¬(lo ≤ pos ∧ pos ≤ hi) ∧ ¬((reach pos v sd).1 ≤ hi ∧ lo ≤ (reach pos v sd).2) := by
  unfold statusOfInputs
  split_ifs with hin hmeet <;> simp_all

/-- A channel at rest or moving away from an interval that it stands outside of does not reach it. -/
theorem statusOfInputs_away (haway : (pos < lo ∧ v ≤ 0) ∨ (hi < pos ∧ 0 ≤ v)) :
    statusOfInputs lo hi pos v sd = .clear := by
  rw [statusOfInputs_clear]
  unfold reach
  split_ifs <;> simp only [] <;> omega

theorem termStatus_unknown {s : State} {t : Term} (h : termInputs s t = none) : termStatus s t = .unknown := by
  simp [termStatus, h]

theorem termStatus_known {s : State} {t : Term} (h : termInputs s t = some (pos, v, sd)) :
    termStatus s t = statusOfInputs t.lo t.hi pos v sd := by
  simp [termStatus, h]

/-! ## The status of a zone (R113) -/

variable {s : State} {z : Zone}

theorem zoneStatus_idle : zoneStatus s z = .idle ↔ ¬z.arming ≠ .disarmed := by
  unfold zoneStatus statusOfTerms
  split_ifs <;> simp_all

theorem zoneStatus_entered :
    zoneStatus s z = .entered ↔ z.arming ≠ .disarmed ∧ ∀ t ∈ z.cfg.terms, termStatus s t = .inside := by
  unfold zoneStatus statusOfTerms
  split_ifs with harming hall hclear <;> simp_all

theorem zoneStatus_clear :
    zoneStatus s z = .clear ↔ z.arming ≠ .disarmed ∧ ∃ t ∈ z.cfg.terms, termStatus s t = .clear := by
  unfold zoneStatus statusOfTerms
  split_ifs with harming hall hclear <;> simp_all

theorem zoneStatus_threatened :
    zoneStatus s z = .threatened ↔ z.arming ≠ .disarmed ∧ ¬(∃ t ∈ z.cfg.terms, termStatus s t = .clear)
      ∧ ¬∀ t ∈ z.cfg.terms, termStatus s t = .inside := by
  unfold zoneStatus statusOfTerms
  split_ifs with harming hall hclear <;> simp_all

/-- Settles O40: the reach meets an interval exactly where the two share a place; the table of R113 read row by row. -/
theorem termAndZoneStatus : Obligations.TermAndZoneStatus := by
  refine ⟨⟨fun lo hi pos v sd hlohi hsd => ?term, fun s t => ⟨termStatus_unknown, fun _ _ _ => termStatus_known⟩⟩,
    fun s z => ⟨zoneStatus_idle, zoneStatus_entered, zoneStatus_threatened, zoneStatus_clear, ?unknown⟩⟩
  case term =>
    have hshared := intervals_meet hlohi (reach_ordered pos v hsd)
    simp only [mem_reach] at hshared
    exact ⟨statusOfInputs_inside, by rw [statusOfInputs_reachable, hshared], by rw [statusOfInputs_clear, hshared],
      fun hlo hv => statusOfInputs_away (.inl ⟨hlo, hv⟩), fun hhi hv => statusOfInputs_away (.inr ⟨hhi, hv⟩)⟩
  case unknown =>
    intro harmed hsome hunknown
    obtain ⟨t, ht⟩ := List.exists_mem_of_ne_nil _ hsome
    refine zoneStatus_threatened.mpr ⟨harmed, ?_, fun hinside => ?_⟩
    · rintro ⟨u, hu, hclear⟩
      rw [hunknown u hu] at hclear
      cases hclear
    · have hboth := hinside t ht
      rw [hunknown t ht] at hboth
      cases hboth

end Sys2Proof.Machine
end

section
/-! PROOFS. O41: what a filtered change of a presence line and the expiry of a clear hold make of the zones (R104 to R106). -/

namespace Sys2Proof.Machine

variable {s : State}

/-! ## A filtered change of a presence line (R104, R105) -/

/-- The zones of the line take the change; the filter passes the new level. -/
theorem exec_presenceFilteredChange {line : Fin 4} {occupied : Bool} (hheld : s.su.phase ≠ .held)
    (hchange : (s.zm.presence.getD line.val ⟨true, 0⟩).level ≠ occupied) :
    exec (.presenceFilteredChange line occupied) s =
      .next { s with
        lines := (setPresenceLine line (xor occupied (s.cfg.polarity.getLsbD line.val)) s).lines
        zm := { s.zm with
          presence := s.zm.presence.set line.val ⟨occupied, 0⟩
          zones := s.zm.zones.map fun z =>
            if armedBy s.su.station.toNat (line.val + 1) z then localChange s.clock occupied z else z } } := by
  have hnot : ¬(decide (s.su.phase = .held) || decide ((s.zm.presence.getD line.val ⟨true, 0⟩).level = occupied)) = true := by
    simp only [Bool.or_eq_true, decide_eq_true_eq, not_or]
    exact ⟨hheld, hchange⟩
  exact if_neg hnot

/-- Occupied arms, clear starts the hold of an ARMED zone. -/
theorem localChange_eq (now : Word) (occupied : Bool) (z : Zone) :
    localChange now occupied z =
      if occupied then { z with arming := .armed, timer := none }
      else if z.arming = .armed then { z with arming := .holding, timer := some (after now (z.cfg.clearHold * 1000)) }
      else z := rfl

theorem armedBy_iff (station line : Nat) (z : Zone) : armedBy station line z = true ↔ z.cfg.source = .line station line := by
  simp [armedBy]

/-! ## The expiry of a clear hold (R106) -/

theorem exec_clearHoldExpiry {zone : Nat} {time : Word} (h : holdTimer s zone = some time) :
    exec (.clearHoldExpiry zone) s =
      .next (mapZones (fun z => if z.cfg.id = zone then { z with arming := .disarmed, timer := none } else z)
        (advanceTo time s)) := by
  show execClearHoldExpiry zone s = _
  simp [execClearHoldExpiry, h]

/-- Settles O41: each of the two events maps the zone table, zone by zone. -/
theorem presenceArmsZones : Obligations.PresenceArmsZones := by
  refine fun s => ⟨fun line occupied hheld hlength hchange => ?change, fun zone time htimer => ?expiry⟩
  case change =>
    refine ⟨_, exec_presenceFilteredChange hheld hchange, ?_, fun k hk => ?_, ?_, rfl, rfl, rfl, rfl, rfl⟩
    · have hline : line.val < s.zm.presence.length := line.isLt.trans_eq hlength.symm
      simp [List.getD_eq_getElem?_getD, hline]
    · simp [List.getD_eq_getElem?_getD, List.getElem?_set_ne (Ne.symm hk)]
    · refine List.map_congr_left fun z _ => ?_
      simp only [armedBy_iff, localChange_eq]
  case expiry =>
    refine ⟨_, exec_clearHoldExpiry htimer, ?_⟩
    rw [advanceTo_eq]
    exact ⟨rfl, rfl, rfl, rfl, rfl, rfl⟩

end Sys2Proof.Machine
end

section
/-! PROOFS. O42: a scan arms the zones of silent stations, writes statuses and caps, and raises ZONE_BREACH for each KEEP_OUT zone newly
ENTERED (R108, R110, R113 to R115, R120, R121). -/

namespace Sys2Proof.Machine

variable {s : State}

/-! ## Caps (R114) -/

/-- The cap of a channel when the zones before have left it at `start`. -/
def capFrom (start : Nat) (zones : List Zone) (ch : Chan) : Nat :=
  zones.foldl (fun cap z => if capping z && z.cfg.actsOn.get ch then min cap z.cfg.cap else cap) start

theorem capFrom_cons (start : Nat) (z : Zone) (zones : List Zone) (ch : Chan) :
    capFrom start (z :: zones) ch =
      capFrom (if capping z && z.cfg.actsOn.get ch then min start z.cfg.cap else start) zones ch := rfl

theorem capFrom_le_start (start : Nat) (zones : List Zone) (ch : Chan) : capFrom start zones ch ≤ start := by
  induction zones generalizing start with
  | nil => exact le_refl start
  | cons z zones ih =>
    rw [capFrom_cons]
    refine (ih _).trans ?_
    split
    · exact min_le_left _ _
    · exact le_refl start

/-- No zone that caps a channel has a lower cap than the channel. -/
theorem capFrom_le {zones : List Zone} {z : Zone} {ch : Chan} (start : Nat) (hz : z ∈ zones) (hcaps : capping z = true)
    (hacts : z.cfg.actsOn.get ch = true) : capFrom start zones ch ≤ z.cfg.cap := by
  induction zones generalizing start with
  | nil => exact absurd hz List.not_mem_nil
  | cons y zones ih =>
    rw [capFrom_cons]
    obtain rfl | hz := List.mem_cons.mp hz
    · rw [if_pos (by simp [hcaps, hacts])]
      exact (capFrom_le_start _ _ _).trans (min_le_right _ _)
    · exact ih _ hz

/-- The cap is the one it began with, or that of a zone. -/
theorem capFrom_cases (start : Nat) (zones : List Zone) (ch : Chan) :
    capFrom start zones ch = start
      ∨ ∃ z ∈ zones, capping z = true ∧ z.cfg.actsOn.get ch = true ∧ capFrom start zones ch = z.cfg.cap := by
  induction zones generalizing start with
  | nil => exact .inl rfl
  | cons y zones ih =>
    rw [capFrom_cons]
    obtain hstart | ⟨z, hz, hcaps, hacts, hcap⟩ := ih (if capping y && y.cfg.actsOn.get ch then min start y.cfg.cap else start)
    · rw [hstart]
      split
      · next hy =>
        obtain ⟨hcaps, hacts⟩ := (Bool.and_eq_true _ _).mp hy
        obtain hmin | hmin := min_choice start y.cfg.cap
        · exact .inl hmin
        · exact .inr ⟨y, List.mem_cons_self, hcaps, hacts, hmin⟩
      · exact .inl rfl
    · exact .inr ⟨z, List.mem_cons_of_mem _ hz, hcaps, hacts, hcap⟩

/-! ## A RAMP cause of this station (R120, R121, R127) -/

section
variable {kind : CauseKind} {origin channel zone : Byte}

/-- In STOPPING, BRAKING and HALTED a RAMP cause is recorded and no more. -/
theorem raiseCause_ramp_recorded (hramp : isCut kind = false) (h : underWay s.sc.state = false) :
    raiseCause kind origin channel zone s = recordCause kind origin channel zone s := by
  cases hs : s.sc.state <;> simp_all [raiseCause, actOnCause, underWay]

/-- In RUN and RELEASING a RAMP cause leads to STOPPING, and to BRAKING at once when every channel is at rest (R122). -/
theorem raiseCause_ramp_state (hramp : isCut kind = false) (h : underWay s.sc.state = true) :
    (raiseCause kind origin channel zone s).sc.state = if allAtRest s then .braking else .stopping := by
  let noted := recordCause kind origin channel zone s
  let s₁ := if kind ≠ .peerStop && underWay s.sc.state then makeStopBody kind origin channel zone noted else noted
  have hreads : s₁.sc.state = s.sc.state ∧ s₁.mo = s.mo ∧ s₁.cfg = s.cfg := by
    simp only [s₁]
    split <;> exact ⟨rfl, rfl, rfl⟩
  obtain ⟨hstate, hmo, hcfg⟩ := hreads
  have hact : raiseCause kind origin channel zone s = enterStopping s₁ := by
    show actOnCause (isCut kind) s₁ = _
    obtain ⟨-, h'⟩ | ⟨h', -⟩ | ⟨h', -⟩ | ⟨h', -⟩ := actOnCause_cases (isCut kind) s₁
    · rw [h', hramp]; rfl
    all_goals rw [← hstate, h'] at h; cases h
  have hrest : allAtRest s₁ = allAtRest s :=
    allAtRest_congr (fun k => by unfold isAxis chanCfg; rw [hcfg]) (fun k => by rw [hmo]) fun k => by rw [hmo]
  rw [hact, enterStopping_state, hrest]

end

/-- After a cause, whatever it met, the station is neither in RUN nor in RELEASING (R121). -/
theorem raiseCause_stops (kind : CauseKind) (origin channel zone : Byte) (s : State) :
    underWay (raiseCause kind origin channel zone s).sc.state = false := by
  cases hunder : underWay s.sc.state with
  | true =>
    cases hcut : isCut kind with
    | true => rw [(raiseCause_cut kind origin channel zone s hcut (.inl hunder)).1]; rfl
    | false => rw [raiseCause_ramp_state hcut hunder]; split <;> rfl
  | false =>
    cases hcut : isCut kind with
    | false => rw [raiseCause_ramp_recorded hcut hunder]; exact hunder
    | true =>
      by_cases hhalted : s.sc.state = .halted
      · rw [raiseCause_halted _ _ _ _ _ hhalted]; exact hunder
      · rw [(raiseCause_cut_mo origin channel zone hcut hhalted).1]; rfl

/-! ## The breaches of a scan (R115) -/

theorem raiseBreaches_cons (id : Nat) (ids : List Nat) (s : State) :
    raiseBreaches (id :: ids) s = raiseBreaches ids (raiseCause .zoneBreach (stationByte s) 0 (BitVec.ofNat 8 id) s) := rfl

theorem raiseBreaches_same (ids : List Nat) (s : State) : SameStation s (raiseBreaches ids s) := by
  induction ids generalizing s with
  | nil => exact .refl s
  | cons id ids ih => exact (raiseCause_same _ _ _ _ s).trans (ih _)

/-- A station stopped already takes the breaches into its last-cause record and its count. -/
theorem raiseBreaches_recorded (ids : List Nat) (h : underWay s.sc.state = false) :
    raiseBreaches ids s =
      { s with sc := { s.sc with last := (raiseBreaches ids s).sc.last, causes := (raiseBreaches ids s).sc.causes } } := by
  induction ids generalizing s with
  | nil => rfl
  | cons id ids ih =>
    rw [raiseBreaches_cons, raiseCause_ramp_recorded rfl h, ih (s := recordCause .zoneBreach (stationByte s) 0 _ s) h]
    simp [recordCause, h]

theorem raiseBreaches_causes (ids : List Nat) (h : s.sc.causes ≤ 255) :
    (raiseBreaches ids s).sc.causes = min 255 (s.sc.causes + ids.length) := by
  induction ids generalizing s with
  | nil => exact (Nat.min_eq_right h).symm
  | cons id ids ih =>
    obtain ⟨-, -, hcauses⟩ := raiseCause_records .zoneBreach (stationByte s) 0 (BitVec.ofNat 8 id) s
    have hle : satIncr 255 s.sc.causes ≤ 255 := by unfold satIncr; split <;> omega
    rw [raiseBreaches_cons, ih (hcauses ▸ hle), hcauses, List.length_cons]
    unfold satIncr
    split <;> omega

/-- The last-cause record names the last zone raised (R120). -/
theorem raiseBreaches_last {ids : List Nat} {high : Nat} (h : ids.getLast? = some high) :
    ((raiseBreaches ids s).sc.last.map fun r => (r.kind, r.origin, r.channel, r.zone, r.frame))
      = some (.zoneBreach, stationByte s, 0, BitVec.ofNat 8 high, s.ft.count) := by
  obtain ⟨init, rfl⟩ := List.getLast?_eq_some_iff.mp h
  have hsame := raiseBreaches_same init s
  have happend : raiseBreaches (init ++ [high]) s =
      raiseCause .zoneBreach (stationByte (raiseBreaches init s)) 0 (BitVec.ofNat 8 high) (raiseBreaches init s) :=
    List.foldl_append
  obtain ⟨hlast, -, -⟩ := raiseCause_records .zoneBreach (stationByte (raiseBreaches init s)) 0 (BitVec.ofNat 8 high)
    (raiseBreaches init s)
  rw [happend, hlast, hsame.ft, stationByte, hsame.su]
  rfl

/-- A scan that raises a breach leaves the station stopped. -/
theorem raiseBreaches_stops {ids : List Nat} (h : ids ≠ []) (s : State) : underWay (raiseBreaches ids s).sc.state = false := by
  obtain ⟨id, rest, rfl⟩ := List.exists_cons_of_ne_nil h
  have hstopped := raiseCause_stops .zoneBreach (stationByte s) 0 (BitVec.ofNat 8 id) s
  rw [raiseBreaches_cons, raiseBreaches_recorded rest hstopped]
  exact hstopped

/-- Met in RUN or RELEASING, the first breach stops the station and names its zone; the others are recorded (R120, R121, R127). -/
theorem raiseBreaches_underWay {ids : List Nat} {low : Nat} (hlow : ids.head? = some low) (h : underWay s.sc.state = true) :
    let t := raiseBreaches ids s
    t.sc.first = some
        { kind := .zoneBreach, origin := stationByte s, channel := 0, zone := BitVec.ofNat 8 low, frame := s.ft.count, met := s.sc.state }
      ∧ t.sc.state = (if allAtRest s then .braking else .stopping)
      ∧ t.sc.stopSerial = s.sc.stopSerial + 1
      ∧ t.tk.stopSlot = some
          { body :=
              { origin := stationByte s, kind := .zoneBreach, channel := 0, zone := BitVec.ofNat 8 low, frame := s.ft.count
                serial := s.sc.stopSerial }
            repeats := 3 } := by
  obtain ⟨rest, rfl⟩ := List.head?_eq_some_iff.mp hlow
  obtain ⟨-, hfirst, -⟩ := raiseCause_records .zoneBreach (stationByte s) 0 (BitVec.ofNat 8 low) s
  obtain ⟨hserial, hslot⟩ := raiseCause_underWay (kind := .zoneBreach) (stationByte s) 0 (BitVec.ofNat 8 low) (by decide) h
  rw [raiseBreaches_cons, raiseBreaches_recorded rest (raiseCause_stops _ _ _ _ s)]
  exact ⟨hfirst.trans (if_pos h), raiseCause_ramp_state rfl h, hserial, hslot⟩

/-! ## A scan (R108, R110) -/

/-- A zone whose source is a line of another station that is not FRESH. -/
def sourceSilent (s : State) (z : Zone) : Bool :=
  match z.cfg.source with
  | .always => false
  | .line st _ => st ≠ s.su.station.toNat && (peerRecord s st).freshness ≠ .fresh

/-- The zones of a scan, those of silent sources armed. -/
def armedZones (s : State) : List Zone :=
  s.zm.zones.map fun z => if sourceSilent s z then { z with arming := .armed, timer := none, mark := false } else z

theorem armSilent_zones (s : State) : (armSilent s).zm.zones = armedZones s :=
  List.map_congr_left fun z _ => by
    unfold sourceSilent
    cases hsource : z.cfg.source <;> rfl

/-- The zones that a scan finds newly ENTERED. -/
def breachedNow (s : State) (z : Zone) : Bool := z.cfg.keepOut && zoneStatus s z = .entered && z.status ≠ .entered

/-- The statuses and the caps as a scan writes them. -/
def scannedZones (s : State) : ZoneMonitor :=
  let zones := (armedZones s).map fun z => { z with status := zoneStatus s z }
  { s.zm with zones := zones, caps := { a := capOf zones .A, b := capOf zones .B, c := capOf zones .C } }

theorem writeStatuses_armSilent (s : State) : writeStatuses (armSilent s) = { s with zm := scannedZones s } := by
  have hstatus : zoneStatus (armSilent s) = zoneStatus s := rfl
  unfold writeStatuses
  rw [armSilent_zones, hstatus]
  rfl

/-- The ids of the zones newly ENTERED. -/
def breachIds (s : State) : List Nat :=
  (((armedZones s).filter (breachedNow s)).map fun z => z.cfg.id).insertionSort (· ≤ ·)

theorem newBreaches_armSilent (s : State) : newBreaches (armSilent s) = breachIds s := by
  have hstatus : zoneStatus (armSilent s) = zoneStatus s := rfl
  unfold newBreaches newlyEntered
  rw [armSilent_zones, hstatus]
  rfl

/-- A scan: statuses and caps are written, then the breaches raised. -/
theorem zoneScan_eq (s : State) : zoneScan s = raiseBreaches (breachIds s) { s with zm := scannedZones s } := by
  show raiseBreaches (newBreaches (armSilent s)) (writeStatuses (armSilent s)) = _
  rw [writeStatuses_armSilent, newBreaches_armSilent]

/-- The station after the writing of a scan at its time, before any breach. -/
def scanWritten (time : Word) (s : State) : State :=
  { s with clock := (advanceTo time s).clock, zm := { scannedZones s with nextScan := some (after time 1000) } }

theorem exec_zoneScan {time : Word} (h : s.zm.nextScan = some time) :
    exec .zoneScan s = .next (raiseBreaches (breachIds s) (scanWritten time s)) := by
  show execZoneScan s = _
  simp only [execZoneScan, h, zoneScan_eq]
  rw [advanceTo_eq, scanWritten, advanceTo_eq]
  rfl

/-! ## The order of the breaches -/

/-- A list in ascending order begins with its least member. -/
theorem head?_of_least {l : List Nat} {a : Nat} (hsorted : l.Pairwise (· ≤ ·)) (ha : a ∈ l) (hleast : ∀ x ∈ l, a ≤ x) :
    l.head? = some a := by
  obtain ⟨b, rest, rfl⟩ := List.exists_cons_of_ne_nil (List.ne_nil_of_mem ha)
  obtain ⟨hb, -⟩ := List.pairwise_cons.mp hsorted
  have hle : b ≤ a := by
    obtain rfl | ha := List.mem_cons.mp ha
    · exact le_refl a
    · exact hb a ha
  rw [List.head?_cons, le_antisymm hle (hleast b List.mem_cons_self)]

/-- A list in ascending order ends with its greatest member. -/
theorem getLast?_of_greatest {l : List Nat} {a : Nat} (hsorted : l.Pairwise (· ≤ ·)) (ha : a ∈ l) (hgreatest : ∀ x ∈ l, x ≤ a) :
    l.getLast? = some a := by
  obtain ⟨init, b, rfl⟩ := (List.eq_nil_or_concat' l).resolve_left (List.ne_nil_of_mem ha)
  obtain ⟨-, -, hb⟩ := List.pairwise_append.mp hsorted
  have hle : a ≤ b := by
    obtain ha | ha := List.mem_append.mp ha
    · exact hb a ha b (List.mem_singleton_self b)
    · exact (List.mem_singleton.mp ha).le
  rw [List.getLast?_concat, le_antisymm (hgreatest b (by simp)) hle]

theorem breachIds_sorted (s : State) : (breachIds s).Pairwise (· ≤ ·) := List.pairwise_insertionSort _ _

theorem mem_breachIds {id : Nat} :
    id ∈ breachIds s ↔ ∃ z ∈ (armedZones s).filter (breachedNow s), z.cfg.id = id := by
  rw [breachIds, List.mem_insertionSort, List.mem_map]

theorem breachIds_length (s : State) : (breachIds s).length = ((armedZones s).filter (breachedNow s)).length := by
  rw [breachIds, List.length_insertionSort, List.length_map]

theorem breachIds_ne_nil (h : ∃ z ∈ armedZones s, breachedNow s z = true) : breachIds s ≠ [] := by
  obtain ⟨z, hz, hnow⟩ := h
  exact List.ne_nil_of_mem (mem_breachIds.mpr ⟨z, List.mem_filter.mpr ⟨hz, hnow⟩, rfl⟩)

theorem breachIds_eq_nil (h : ∀ z ∈ armedZones s, breachedNow s z = false) : breachIds s = [] := by
  by_contra hne
  obtain ⟨id, hid⟩ := List.exists_mem_of_ne_nil _ hne
  obtain ⟨z, hz, -⟩ := mem_breachIds.mp hid
  obtain ⟨hz, hnow⟩ := List.mem_filter.mp hz
  rw [h z hz] at hnow
  cases hnow

/-! ## What a scan leaves -/

/-- The station after a scan at its time. -/
def scanned (time : Word) (s : State) : State := raiseBreaches (breachIds s) (scanWritten time s)

variable (time : Word)

theorem scanned_zm (s : State) : (scanned time s).zm = (scanWritten time s).zm := (raiseBreaches_same _ _).zm

/-- The cap of each channel is the least of the zones that cap it, or 100. -/
theorem scanned_caps (s : State) (ch : Chan) :
    (∀ z ∈ (scanned time s).zm.zones, capping z = true → z.cfg.actsOn.get ch = true → (scanned time s).zm.caps.get ch ≤ z.cfg.cap)
      ∧ ((scanned time s).zm.caps.get ch = 100
          ∨ ∃ z ∈ (scanned time s).zm.zones, capping z = true ∧ z.cfg.actsOn.get ch = true
              ∧ (scanned time s).zm.caps.get ch = z.cfg.cap) := by
  have hcap : (scanWritten time s).zm.caps.get ch = capFrom 100 (scanWritten time s).zm.zones ch := by cases ch <;> rfl
  rw [scanned_zm, hcap]
  exact ⟨fun z hz => capFrom_le 100 hz, capFrom_cases 100 _ ch⟩

theorem scanned_stops (h : ∃ z ∈ armedZones s, breachedNow s z = true) :
    underWay (scanned time s).sc.state = false
      ∧ ((scanned time s).sc.last.map fun r => (r.kind, r.origin)) = some (.zoneBreach, stationByte s) := by
  have hne := breachIds_ne_nil h
  have hlast := raiseBreaches_last (s := scanWritten time s) (List.getLast?_eq_some_getLast hne)
  refine ⟨raiseBreaches_stops hne _, ?_⟩
  have hboth := congrArg (Option.map fun r : CauseKind × Byte × Byte × Byte × Word => (r.1, r.2.1)) hlast
  rwa [Option.map_map] at hboth

theorem scanned_causes (h : s.sc.causes ≤ 255) :
    (scanned time s).sc.causes = min 255 (s.sc.causes + ((armedZones s).filter (breachedNow s)).length) := by
  rw [← breachIds_length]
  exact raiseBreaches_causes (s := scanWritten time s) _ h

/-- A scan that finds no breach changes the clock and the zone monitor alone. -/
theorem scanned_quiet (h : ∀ z ∈ armedZones s, breachedNow s z = false) : scanned time s = scanWritten time s := by
  rw [scanned, breachIds_eq_nil h]
  rfl

/-- The first breach raised is of the zone with the lowest id, the last of the one with the highest. -/
theorem breachIds_ends {low high : Zone} (hlow : low ∈ (armedZones s).filter (breachedNow s))
    (hhigh : high ∈ (armedZones s).filter (breachedNow s))
    (hbetween : ∀ z ∈ (armedZones s).filter (breachedNow s), low.cfg.id ≤ z.cfg.id ∧ z.cfg.id ≤ high.cfg.id) :
    (breachIds s).head? = some low.cfg.id ∧ (breachIds s).getLast? = some high.cfg.id := by
  have hbounds : ∀ id ∈ breachIds s, low.cfg.id ≤ id ∧ id ≤ high.cfg.id := fun id hid => by
    obtain ⟨z, hz, rfl⟩ := mem_breachIds.mp hid
    exact hbetween z hz
  exact ⟨head?_of_least (breachIds_sorted s) (mem_breachIds.mpr ⟨low, hlow, rfl⟩) fun id hid => (hbounds id hid).1,
    getLast?_of_greatest (breachIds_sorted s) (mem_breachIds.mpr ⟨high, hhigh, rfl⟩) fun id hid => (hbounds id hid).2⟩

/-- Settles O42: the scan writes the statuses and caps, then raises the breaches in ascending order of id; the first of them stops a
station under way, each is counted, and the last stays in the record. -/
theorem scanWritesStatusesAndCaps : Obligations.ScanWritesStatusesAndCaps := by
  intro time s hscan
  refine ⟨scanned time s, exec_zoneScan hscan, by rw [scanned_zm]; rfl, by rw [scanned_zm]; rfl, ?_⟩
  intro silent armed
  have harmed : armed = armedZones s := rfl
  rw [harmed]
  refine ⟨by rw [scanned_zm]; rfl, scanned_caps time s, fun ⟨z, hz, hkeep, hnow, hbefore⟩ => ?stops,
    ⟨scanned_causes time, fun low hlow high hhigh hbetween => ?records⟩, fun hnone => ?quiet⟩
  case stops => exact scanned_stops time ⟨z, hz, by simp [breachedNow, hkeep, hnow, hbefore]⟩
  case records =>
    obtain ⟨hhead, hlast⟩ := breachIds_ends hlow hhigh hbetween
    refine ⟨raiseBreaches_last hlast, fun hunder => raiseBreaches_underWay (s := scanWritten time s) hhead hunder, fun hstopped => ?_⟩
    rw [scanned, raiseBreaches_recorded (s := scanWritten time s) _ hstopped]
    exact ⟨rfl, rfl, rfl, rfl⟩
  case quiet =>
    rw [scanned_quiet time fun z hz => ?_]
    · rfl
    · have hold := hnone z hz
      by_contra hnow
      simp only [breachedNow, Bool.not_eq_false, Bool.and_eq_true, decide_eq_true_eq] at hnow
      obtain ⟨⟨hkeep, hentered⟩, hother⟩ := hnow
      exact hother (hold hkeep hentered)

end Sys2Proof.Machine
end

section
/-! PROOFS. O58, the layer below it: what the invariants of the zone monitor read, and the operations that neither write statuses and caps
nor start a station whose KEEP_OUT zones are ENTERED (R114 to R116, R121, R132). -/

namespace Sys2Proof.Machine

variable {s t u : State} {ch : Chan}

/-! ## What the invariants read -/

/-- What `ZoneInv` and `CapInv` read of a zone. -/
def seenZone (z : Zone) : ZoneCfg × ZoneStatus := (z.cfg, z.status)

/-- Whether a KEEP_OUT zone is ENTERED. -/
def breached (zones : List Zone) : Bool := zones.any fun z => z.cfg.keepOut && z.status = .entered

theorem breached_eq_false (zones : List Zone) :
    breached zones = false ↔ ∀ z ∈ zones, z.cfg.keepOut = true → z.status ≠ .entered := by
  simp [breached, List.any_eq_false]

theorem breached_congr {zones zones' : List Zone} (h : zones'.map seenZone = zones.map seenZone) : breached zones' = breached zones := by
  have hseen : ∀ l, breached l = (l.map seenZone).any fun p => p.1.keepOut && p.2 = .entered := fun l => by
    rw [List.any_map]; rfl
  rw [hseen, hseen, h]

theorem capOf_congr {zones zones' : List Zone} (h : zones'.map seenZone = zones.map seenZone) (ch : Chan) :
    capOf zones' ch = capOf zones ch := by
  have hseen : ∀ l, capOf l ch = (l.map seenZone).foldl
      (fun cap p => if (p.2 = .threatened || p.2 = .entered) && p.1.actsOn.get ch then min cap p.1.cap else cap) 100 := fun l => by
    rw [List.foldl_map]; rfl
  rw [hseen, hseen, h]

theorem zoneInv_iff (s : State) : ZoneInv s ↔ (underWay s.sc.state = true → breached s.zm.zones = false) := by
  rw [breached_eq_false]
  constructor
  · intro h hunder z hz hkeep hentered
    rw [h z hz hkeep hentered] at hunder
    cases hunder
  · intro h z hz hkeep hentered
    by_contra hunder
    exact h (Bool.of_not_eq_false hunder) z hz hkeep hentered

/-- No KEEP_OUT zone is ENTERED in RUN and RELEASING, and the caps agree with the statuses. -/
structure ZoneSafe (s : State) : Prop where
  zones : ZoneInv s
  caps : CapInv s

/-- Statuses and caps are left as they were, and the station does not come to be under way while a KEEP_OUT zone is ENTERED. -/
structure ZoneCalm (s t : State) : Prop where
  seen : t.zm.zones.map seenZone = s.zm.zones.map seenZone
  caps : t.zm.caps = s.zm.caps
  starts : underWay t.sc.state = true → underWay s.sc.state = true ∨ breached s.zm.zones = false

/-- An operation that leaves them so from every state. -/
def KeepsCalm (f : State → State) : Prop := ∀ s, ZoneCalm s (f s)

theorem ZoneSafe.congr (h : ZoneSafe s) (g : ZoneCalm s t) : ZoneSafe t := by
  refine ⟨(zoneInv_iff t).mpr fun hunder => ?_, fun ch => ?_⟩
  · rw [breached_congr g.seen]
    exact (g.starts hunder).elim ((zoneInv_iff s).mp h.zones) id
  · rw [g.caps, capOf_congr g.seen, h.caps]

theorem ZoneCalm.refl (s : State) : ZoneCalm s s := ⟨rfl, rfl, .inl⟩

theorem ZoneCalm.trans (h : ZoneCalm s t) (g : ZoneCalm t u) : ZoneCalm s u :=
  ⟨g.seen.trans h.seen, g.caps.trans h.caps, fun hunder =>
    (g.starts hunder).elim h.starts fun hclear => .inr ((breached_congr h.seen).symm.trans hclear)⟩

theorem ZoneCalm.after (g : ZoneCalm t u) (h : ZoneCalm s t) : ZoneCalm s u := h.trans g

/-- The zone monitor and the stop state are left as they were. -/
theorem ZoneCalm.of_eq (hzm : t.zm = s.zm) (hstate : t.sc.state = s.sc.state) : ZoneCalm s t :=
  ⟨by rw [hzm], by rw [hzm], fun hunder => .inl (hstate ▸ hunder)⟩

/-- The zone monitor is left as it was, and the station is stopped. -/
theorem ZoneCalm.of_stopped (hzm : t.zm = s.zm) (hstopped : underWay t.sc.state = false) : ZoneCalm s t :=
  ⟨by rw [hzm], by rw [hzm], fun hunder => by rw [hstopped] at hunder; cases hunder⟩

theorem TakeWork.calm (h : TakeWork s t) : ZoneCalm s t := .of_eq (by rw [h.eq]) (by rw [h.eq])

/-- A desk command or a notice of the take engine. -/
theorem Yields.calm (h : Yields s t) (hzm : t.zm = s.zm) : ZoneCalm s t := .of_eq hzm h.state

theorem KeepsCalm.comp {f g : State → State} (hf : KeepsCalm f) (hg : KeepsCalm g) : KeepsCalm (fun s => f (g s)) :=
  fun s => (hg s).trans (hf _)

theorem KeepsCalm.chans {f : Chan → State → State} (h : ∀ ch, KeepsCalm (f ch)) (chans : List Chan) : KeepsCalm (forChans f chans) :=
  fun s => forChans_induct (ZoneCalm s) f chans s (fun ch t ht => ht.trans (h ch t)) (.refl s)

theorem KeepsCalm.anyOrder {events : List (State → State)} (h : ∀ f ∈ events, KeepsCalm f) : KeepsCalm (inAnyOrder events) :=
  fun s => inAnyOrder_induct (ZoneCalm s) events s (fun _ _ _ ht => ht.trans ⟨rfl, rfl, .inl⟩)
    (fun f hf t ht => ht.trans (h f hf t)) (.refl s)

theorem KeepsCalm.foldl {α : Type} {f : State → α → State} (h : ∀ x, KeepsCalm (fun s => f s x)) (xs : List α) :
    KeepsCalm (fun s => xs.foldl f s) := fun s => by
  induction xs generalizing s with
  | nil => exact .refl s
  | cons x xs ih => exact (h x s).trans (ih _)

theorem advanceTo_calm (time : Word) : KeepsCalm (advanceTo time) := fun s => .of_eq (advanceTo_zm time s) (by rw [advanceTo_sc])

/-! ## Causes and entries into stop states (R121 to R123) -/

theorem raiseCause_calm (kind : CauseKind) (origin channel zone : Byte) : KeepsCalm (raiseCause kind origin channel zone) := fun s =>
  .of_stopped (raiseCause_same kind origin channel zone s).zm (raiseCause_stops kind origin channel zone s)

theorem feedbackOnset_calm (ch : Chan) : KeepsCalm (feedbackOnset ch) := fun s => by
  unfold feedbackOnset
  split
  · exact raiseCause_calm _ _ _ _ s
  · exact ⟨rfl, rfl, .inl⟩
  · exact .refl s

theorem velocityReport_calm : KeepsCalm velocityReport := fun s => by
  obtain ⟨h, -⟩ | ⟨h, -⟩ := velocityReport_cases s <;> rw [h]
  · exact .refl s
  · exact .of_stopped (enterBraking_same s).zm (by rw [(enterBraking_sc s).1]; rfl)

theorem enterHalted_calm : KeepsCalm enterHalted := fun s =>
  .of_stopped (enterHalted_same s).zm (by rw [(enterHalted_sc s).1]; rfl)

/-! ## The release (R116, R131, R132) -/

/-- A release is executed only when no KEEP_OUT zone is ENTERED. -/
theorem executeRelease_calm : KeepsCalm executeRelease := fun s => by
  unfold executeRelease
  split
  · split
    · exact ⟨rfl, rfl, .inl⟩
    · next hnone =>
      have hzm : (enterReleasing s).zm = s.zm := congrArg Standing.zm (enterReleasing_stands s)
      obtain ⟨-, -, -, -, -, hclear⟩ := (persistingCause_eq_none s).mp hnone
      exact ⟨by rw [hzm], by rw [hzm], fun _ => .inr ((breached_eq_false _).mpr hclear)⟩
  all_goals exact ⟨rfl, rfl, .inl⟩

theorem stopFrameEvent_calm : KeepsCalm stopFrameEvent := fun s => by
  unfold stopFrameEvent
  have hrelease : ZoneCalm s
      (if s.sc.pendingRelease then
        executeRelease { s with sc := { s.sc with dupWindow := s.sc.dupWindow - 1, pendingRelease := false } }
      else { s with sc := { s.sc with dupWindow := s.sc.dupWindow - 1 } }) := by
    split
    · exact (executeRelease_calm _).after ⟨rfl, rfl, .inl⟩
    · exact ⟨rfl, rfl, .inl⟩
  exact hrelease.trans ⟨rfl, rfl, .inl⟩

/-! ## A frame event (R66) -/

theorem handConfirmed_calm : KeepsCalm handConfirmed := fun s =>
  .of_eq (handConfirmed_unreleased s).zm (by rw [(handConfirmed_unreleased s).sc])

theorem stopPart_calm : KeepsCalm stopPart := fun s => by
  refine (stopFrameEvent_calm _).after ?_
  obtain h | ⟨h, -⟩ := handRelease_cases s <;> rw [h]
  · exact .refl s
  · exact handConfirmed_calm s

theorem ageFrameEvent_calm : KeepsCalm ageFrameEvent := fun _ =>
  (KeepsCalm.foldl (f := fun t n => raiseCause .peerSilent (BitVec.ofNat 8 n) 0 0 t)
    (fun _ => raiseCause_calm _ _ _ _) _ _).after ⟨rfl, rfl, .inl⟩

theorem frameTasks_calm (stamp : Word) (old new : Lock) : ∀ f ∈ frameTasks stamp old new, KeepsCalm f := by
  intro f hf
  rcases mem_frameTasks hf with rfl | rfl | hf
  · exact fun _ => ⟨rfl, rfl, .inl⟩
  · exact ageFrameEvent_calm
  · rcases mem_otherTasks hf with rfl | rfl | rfl | rfl
    · exact handConfirmed_calm
    · exact stopPart_calm
    · exact fun s => (TakeWork.frame s).calm
    · exact fun s => (TakeWork.lock new s).calm

theorem frameEvent_calm (pulse : Bool) (stamp : Word) (next : FrameTimer → FrameTimer) : KeepsCalm (frameEvent pulse stamp next) :=
  fun s => by
  have hbuild : KeepsCalm completeBuild := fun s => by rw [completeBuild_frame]; exact ⟨rfl, rfl, .inl⟩
  exact (hbuild _).after ((KeepsCalm.anyOrder (frameTasks_calm _ _ _) _).after ⟨rfl, rfl, .inl⟩)

/-! ## A servo update (R18, R43 to R47, R158, R163) -/

theorem armCapture_calm (source : CaptureSource) (ch : Chan) : KeepsCalm (armCapture source ch) := fun s => by
  unfold armCapture; split <;> exact ⟨rfl, rfl, .inl⟩

theorem failRun_calm (reason : FailReason) (ch : Chan) : KeepsCalm (failRun reason ch) := fun s => by
  rw [failRun_frame]; exact ⟨rfl, rfl, .inl⟩

theorem turnBackOff_calm (ch : Chan) : KeepsCalm (turnBackOff ch) := fun s => by
  simp only [turnBackOff]
  split
  · exact (armCapture_calm _ _ _).after ⟨rfl, rfl, .inl⟩
  · exact .refl s

theorem applyOffset_calm (ch : Chan) : KeepsCalm (applyOffset ch) := fun s => by
  cases h : (s.rf.get ch).offset with
  | none => rw [applyOffset_none h]; exact .refl s
  | some δ =>
    have hshifted : ZoneCalm s (shifted ch δ s) := ⟨rfl, rfl, .inl⟩
    rw [applyOffset_some h]
    split
    · exact hshifted.trans (feedbackOnset_calm ch _)
    · exact hshifted

theorem prepared_calm (ch : Chan) : KeepsCalm (prepared ch) := fun s => by
  have hlocal : KeepsCalm (refreshLocal ch) := fun s => by rw [refreshLocal_frame]; exact ⟨rfl, rfl, .inl⟩
  have hrealign : KeepsCalm (realign ch) := fun s => by unfold realign; split <;> exact ⟨rfl, rfl, .inl⟩
  have hclamped : KeepsCalm (noteMapClamped ch) := fun s => by rw [noteMapClamped_frame]; exact ⟨rfl, rfl, .inl⟩
  exact hclamped.comp (hrealign.comp ((applyOffset_calm ch).comp ((turnBackOff_calm ch).comp hlocal))) s

theorem secondStall_calm (pos : Int) (ch : Chan) : KeepsCalm (secondStall pos ch) := fun s => by
  simp only [secondStall]
  split
  · exact (failRun_calm _ ch _).after ⟨rfl, rfl, .inl⟩
  · exact ⟨rfl, rfl, .inl⟩

theorem afterUpdate_calm (ch : Chan) : KeepsCalm (afterUpdate ch) := fun s => by
  unfold afterUpdate
  split
  · simp only [parkCheck]
    split
    · exact (TakeWork.ask _ ch _).calm.after ⟨rfl, rfl, .inl⟩
    · exact .refl s
  · by_cases hkind : (chanCfg s ch).refKind = .endStops
    · by_cases hstate : (s.rf.get ch).state = .search1 ∨ (s.rf.get ch).state = .search2
      · rw [stallCheck_search hkind hstate]
        split
        · split
          · exact ⟨rfl, rfl, .inl⟩
          · split
            · exact ⟨rfl, rfl, .inl⟩
            · exact secondStall_calm _ ch s
        · exact ⟨rfl, rfl, .inl⟩
      · rw [not_or] at hstate
        simp [stallCheck, hstate, ZoneCalm.refl]
    · rw [stallCheck_other hkind]; exact .refl s

theorem enterCued_calm : KeepsCalm enterCued := fun s => by
  unfold enterCued
  simp only []
  split
  · exact ((TakeWork.hold _ _).endPhase _ _).calm.after ⟨rfl, rfl, .inl⟩
  all_goals exact ⟨rfl, rfl, .inl⟩

theorem takeAfterUpdate_calm (ch : Chan) : KeepsCalm (takeAfterUpdate ch) := fun s => by
  unfold takeAfterUpdate
  split
  · simp only []
    split
    · exact (enterCued_calm _).after ⟨rfl, rfl, .inl⟩
    · exact ⟨rfl, rfl, .inl⟩
  · split <;> exact ⟨rfl, rfl, .inl⟩
  all_goals exact .refl s

theorem recordTakers_calm (onset : Bool) (ch : Chan) : ∀ f ∈ recordTakers onset ch, KeepsCalm f := by
  intro f hf
  simp only [recordTakers, List.mem_cons, List.not_mem_nil, or_false] at hf
  rcases hf with rfl | rfl | rfl
  · cases onset with
    | false => exact fun s => .refl s
    | true => exact fun s => raiseCause_calm _ _ _ _ s
  · exact afterUpdate_calm ch
  · exact takeAfterUpdate_calm ch

theorem servoUpdate_calm (ch : Chan) : KeepsCalm (servoUpdate ch) := fun s => by
  rw [servoUpdate_eq]
  have hrecorded : ZoneCalm s (recorded ch (prepared ch s)) := (prepared_calm ch s).trans ⟨rfl, rfl, .inl⟩
  exact (velocityReport_calm _).after ((KeepsCalm.anyOrder (recordTakers_calm _ ch) _).after hrecorded)

end Sys2Proof.Machine
end

section
/-! PROOFS. O58: received frames, desk commands and a microsecond leave statuses and caps and start no station; a scan writes both and
stops the station at a breach; and the step (R92, R107, R110, R113 to R116, R117). -/

namespace Sys2Proof.Machine

variable {s t u : State} {ch : Chan}

/-! ## Received frames (R84, R86, R91, R92, R107) -/

/-- Arming changes no status. -/
theorem mapZones_calm {f : Zone → Zone} (h : ∀ z, seenZone (f z) = seenZone z) : KeepsCalm (mapZones f) := fun s =>
  ⟨by
    show (s.zm.zones.map f).map seenZone = _
    rw [List.map_map]
    exact List.map_congr_left fun z _ => h z, rfl, .inl⟩

theorem remoteReading_seen (now : Word) (occupied consec : Bool) (z : Zone) :
    seenZone (remoteReading now occupied consec z) = seenZone z := by
  unfold remoteReading
  split_ifs <;> rfl

theorem presenceNotice_calm (source : Nat) (body : List Byte) (consec : Bool) : KeepsCalm (presenceNotice source body consec) := fun s =>
  mapZones_calm (fun z => by
    split
    · rfl
    · split
      · exact remoteReading_seen _ _ _ z
      · rfl) s

theorem peerStopNotice_calm (source : Nat) (body : List Byte) : KeepsCalm (peerStopNotice source body) := fun s => by
  obtain h | h := peerStopNotice_cases source body s <;> rw [h]
  · exact raiseCause_calm _ _ _ _ s
  · exact .refl s

theorem alignmentReading_calm (seq : Byte) (count : Word) : KeepsCalm (alignmentReading seq count) := fun s => by
  refine .of_eq (congrArg Standing.zm (alignmentReading_standing seq count s)) ?_
  obtain ⟨-, h⟩ | ⟨-, h⟩ := alignmentReading_cases seq count s <;> rw [h]
  exact (countMoved_yields count s).state

theorem adoptArrival_calm (seq : Byte) (c : DeskContent) : KeepsCalm (adoptArrival seq c) := fun s =>
  (adoptArrival_yields seq c s).calm (congrArg Standing.zm (adoptArrival_standing seq c s))

theorem stateArrival_calm (source : Nat) (body : List Byte) : KeepsCalm (stateArrival source body) := fun s => by
  have hpeer : ZoneCalm s (modPeer source (takeState body) s) := by rw [modPeer_frame]; exact ⟨rfl, rfl, .inl⟩
  cases h : fromDesk s source with
  | true =>
    rw [stateArrival_desk h]
    refine (KeepsCalm.anyOrder (fun f hf => ?_) _).after ⟨rfl, rfl, .inl⟩
    rcases mem_deskNotices hf with rfl | rfl | rfl | rfl
    · exact presenceNotice_calm _ _ _
    · exact peerStopNotice_calm _ _
    · exact alignmentReading_calm _ _
    · exact adoptArrival_calm _ _
  | false =>
    rw [stateArrival_peer h]
    refine (KeepsCalm.anyOrder (fun f hf => ?_) _).after hpeer
    simp only [peerNotices, List.mem_cons, List.not_mem_nil, or_false] at hf
    rcases hf with rfl | rfl
    · exact presenceNotice_calm _ _ _
    · exact peerStopNotice_calm _ _

theorem wheelArrival_calm (source : Nat) (seq : Byte) (values : PerChan Int) : KeepsCalm (wheelArrival source seq values) := fun s => by
  rw [(wheelArrival_spec source seq values s).1]; exact ⟨rfl, rfl, .inl⟩

theorem stopArrival_calm (source : Nat) (body : List Byte) : KeepsCalm (stopArrival source body) := fun s => by
  obtain ⟨-, h⟩ | ⟨-, -, h⟩ | ⟨-, -, h⟩ := stopArrival_cases source body s <;> rw [h]
  · exact .refl s
  · exact ⟨rfl, rfl, .inl⟩
  · exact (raiseCause_calm _ _ _ _ _).after ⟨rfl, rfl, .inl⟩

theorem receive_calm (heard : List Bool) : KeepsCalm (receive heard) := fun s => by
  simp only [receive]
  split
  · exact ⟨rfl, rfl, .inl⟩
  · unfold frameEnd
    split
    · exact ⟨rfl, rfl, .inl⟩
    · split
      · exact (raiseCause_calm _ _ _ _ _).after ⟨rfl, rfl, .inl⟩
      · simp only [handOn]
        split
        · exact stateArrival_calm _ _ s
        · split
          · exact wheelArrival_calm _ _ _ s
          · exact stopArrival_calm _ _ s

/-! ## Desk commands (R98) -/

theorem takeCommand_calm (serial : Byte) {f : State → State} (hyields : ∀ u, Yields u (f u)) (hstands : Stands f) :
    KeepsCalm (takeCommand serial f) := fun s =>
  (takeCommand_yields serial hyields s).calm (congrArg Standing.zm (takeCommand_stands serial hstands s))

theorem abortCommand_calm (serial : Byte) : KeepsCalm (fun s => abortRuns (takeCommand serial abortTake s)) :=
  KeepsCalm.comp (fun s => (Yields.chans abortRun_yields _ s).calm (congrArg Standing.zm (abortRuns_stands s)))
    (takeCommand_calm serial abortTake_yields abortTake_stands)

theorem referenceCommand_calm : KeepsCalm referenceCommand := fun s => by
  refine Yields.calm ?_ (congrArg Standing.zm (referenceCommand_stands s))
  unfold referenceCommand
  split
  · exact .chans startRun_yields _ s
  · exact .refl s

/-! ## A microsecond (R57) -/

theorem idle_calm : KeepsCalm idle := fun s => by
  by_cases hdue : s.sampled.flatten ++ dueEvents s = []
  · obtain ⟨hfound, hdue⟩ := List.append_eq_nil_iff.mp hdue
    rw [idle_ticks hfound hdue]
    by_cases hheld : s.su.phase = .held
    · rw [tick_held hheld]; exact ⟨rfl, rfl, .inl⟩
    · obtain ⟨hframe, -⟩ := tick_spec hheld hfound
      rw [hframe]; exact ⟨rfl, rfl, .inl⟩
  · obtain ⟨c, -, sampled, order, draws, hidle, -⟩ := idle_takes hdue
    rw [hidle]; exact ⟨rfl, rfl, .inl⟩

/-! ## Resets and the finish (R109, R117, R178) -/

/-- Zones that are all IDLE cap no channel and none is ENTERED. -/
theorem zoneSafe_of_idle (hidle : ∀ z ∈ s.zm.zones, z.status = .idle) (hcaps : s.zm.caps = .all 100) : ZoneSafe s := by
  refine ⟨fun z hz _ hentered => ?_, fun ch => ?_⟩
  · rw [hidle z hz] at hentered; cases hentered
  · rw [hcaps, PerChan.get_all]
    obtain h | ⟨z, hz, hcaps, -⟩ := capFrom_cases 100 s.zm.zones ch
    · exact h.symm
    · simp [capping, hidle z hz] at hcaps

theorem resetTo_safe (byPower : Bool) (store : Store) (s : State) : ZoneSafe (resetTo byPower store s) :=
  zoneSafe_of_idle (by rw [resetTo_zm]; exact fun z hz => absurd hz List.not_mem_nil) rfl

theorem finishValid_safe (c : Cfg) (zones : List ZoneCfg) (s : State) : ZoneSafe (finishValid c zones s) :=
  zoneSafe_of_idle (finishZones_spec c zones s).2 rfl

/-! ## A scan (R110, R113 to R115) -/

theorem scanned_caps_agree (time : Word) (s : State) : CapInv (scanned time s) := fun ch => by
  rw [scanned_zm]; cases ch <;> rfl

theorem armedZones_seen (s : State) : (armedZones s).map seenZone = s.zm.zones.map seenZone := by
  rw [armedZones, List.map_map]
  refine List.map_congr_left fun z _ => ?_
  show seenZone (if _ then _ else _) = seenZone z
  split <;> rfl

/-- Where a scan leaves a KEEP_OUT zone ENTERED, one was ENTERED before it or the scan has found a breach. -/
theorem scanned_entered {time : Word} {z : Zone} (hz : z ∈ (scanned time s).zm.zones) (hkeep : z.cfg.keepOut = true)
    (hentered : z.status = .entered) : breached s.zm.zones = true ∨ ∃ y ∈ armedZones s, breachedNow s y = true := by
  rw [scanned_zm] at hz
  obtain ⟨y, hy, rfl⟩ := List.mem_map.mp hz
  have hkeep' : y.cfg.keepOut = true := hkeep
  have hentered' : zoneStatus s y = .entered := hentered
  by_cases hbefore : y.status = .entered
  · rw [← breached_congr (armedZones_seen s)]
    exact .inl (List.any_eq_true.mpr ⟨y, hy, by simp [hkeep', hbefore]⟩)
  · exact .inr ⟨y, hy, by simp [breachedNow, hkeep', hentered', hbefore]⟩

/-- A scan stops the station at a breach, and leaves one stopped that an older breach keeps stopped. -/
theorem scanned_safe (time : Word) (h : ZoneSafe s) : ZoneSafe (scanned time s) := by
  refine ⟨fun z hz hkeep hentered => ?_, scanned_caps_agree time s⟩
  obtain hold | hnew := scanned_entered hz hkeep hentered
  · have hstopped : underWay s.sc.state = false := Bool.eq_false_iff.mpr fun hunder => by
      rw [(zoneInv_iff s).mp h.zones hunder] at hold
      cases hold
    rw [scanned, raiseBreaches_recorded (s := scanWritten time s) _ hstopped]
    exact hstopped
  · exact (scanned_stops time hnew).1

end Sys2Proof.Machine
end

section
/-! PROOFS. O58: every command, and so every step. -/

namespace Sys2Proof.Machine

variable {s t : State} {ch : Chan}

/-- An outcome that, if it is a next state, leaves statuses and caps and starts no station with a KEEP_OUT zone ENTERED. -/
def AnswersCalm (s : State) (o : Host.Outcome State Fault Refusal) : Prop := ∀ t, o = .next t → ZoneCalm s t

/-- An outcome that, if it is a next state, meets the invariants. -/
def AnswersSafe (o : Host.Outcome State Fault Refusal) : Prop := ∀ t, o = .next t → ZoneSafe t

theorem ZoneCalm.answers (h : ZoneCalm s t) : AnswersCalm s (.next t) := by rintro _ ⟨⟩; exact h

theorem ZoneSafe.answers (h : ZoneSafe s) : AnswersSafe (.next s) := by rintro _ ⟨⟩; exact h

theorem AnswersCalm.safe {o : Host.Outcome State Fault Refusal} (h : AnswersCalm s o) (hs : ZoneSafe s) : AnswersSafe o :=
  fun t ht => hs.congr (h t ht)

/-! ## The start-up unit (R178) -/

theorem execResetRelease_calm (straps : BitVec 5) (s : State) : AnswersCalm s (execResetRelease straps s) := by
  unfold execResetRelease
  split
  · exact ZoneCalm.answers ⟨rfl, rfl, .inl⟩
  · exact (ZoneCalm.refl s).answers

/-- A valid image begins with every zone IDLE; an invalid one leaves the zone monitor as it is. -/
theorem execStartUpFinish_safe (memory : Option (List Byte)) (h : ZoneSafe s) : AnswersSafe (execStartUpFinish memory s) := by
  unfold execStartUpFinish
  split
  · have hread : ZoneCalm s (imageRead memory s) := (advanceTo_calm _ _).after ⟨rfl, rfl, .inl⟩
    have hinvalid : ZoneCalm (imageRead memory s) (finishInvalid (imageRead memory s)) := ⟨rfl, rfl, .inl⟩
    refine ZoneSafe.answers ?_
    split
    · exact finishValid_safe _ _ _
    · exact h.congr (hread.trans hinvalid)
  · exact h.answers

/-! ## The commands of the feedback unit, of the sequencer and of the motion unit -/

theorem countedOnset_calm (ch : Chan) (f : Feedback → Feedback) (onset : Prop) [Decidable onset] (s : State) :
    ZoneCalm s (if onset then feedbackOnset ch (followQuad ch (modFb ch f s)) else followQuad ch (modFb ch f s)) := by
  have hcounted : ZoneCalm s (followQuad ch (modFb ch f s)) := ⟨rfl, rfl, .inl⟩
  split
  · exact (feedbackOnset_calm ch _).after hcounted
  · exact hcounted

theorem execLegalTransition_calm (ch : Chan) (line : QuadLine) (s : State) : AnswersCalm s (execLegalTransition ch line s) := by
  unfold execLegalTransition
  split
  · exact ZoneCalm.answers (countedOnset_calm ch _ _ s)
  · exact (ZoneCalm.refl s).answers

theorem execIllegalTransition_calm (ch : Chan) (s : State) : AnswersCalm s (execIllegalTransition ch s) := by
  unfold execIllegalTransition
  split
  · exact ZoneCalm.answers (countedOnset_calm ch _ _ s)
  · exact (ZoneCalm.refl s).answers

theorem execLeakEvent_calm (ch : Chan) (s : State) : AnswersCalm s (execLeakEvent ch s) := by
  unfold execLeakEvent
  split
  · exact (ZoneCalm.refl s).answers
  · exact ZoneCalm.answers ((advanceTo_calm _ s).trans ⟨rfl, rfl, .inl⟩)

theorem execIndexRise_calm (ch : Chan) (s : State) : AnswersCalm s (execIndexRise ch s) := by
  have hrise : ZoneCalm s (riseIndex ch s) := by rw [riseIndex_eq]; exact ⟨rfl, rfl, .inl⟩
  unfold execIndexRise
  simp only []
  split
  · refine ZoneCalm.answers ?_
    split
    · rw [capture_frame]; exact hrise.trans ⟨rfl, rfl, .inl⟩
    · exact hrise
  · exact (ZoneCalm.refl s).answers

theorem execAnalogConversion_calm (ch : Chan) (reading : BitVec 16) (s : State) :
    AnswersCalm s (execAnalogConversion ch reading s) := by
  unfold execAnalogConversion
  split
  · exact (ZoneCalm.refl s).answers
  · next time _ =>
    have htracked : ∀ f, ZoneCalm s (modFb ch f (advanceTo time s)) := fun f => (advanceTo_calm time s).trans ⟨rfl, rfl, .inl⟩
    refine ZoneCalm.answers (ZoneCalm.after (t := ite _ _ _) ⟨rfl, rfl, .inl⟩ ?_)
    split
    · exact (feedbackOnset_calm ch _).after (htracked _)
    · exact htracked _

theorem switchActive_calm (ch : Chan) (sw : Switch) : KeepsCalm (switchActive ch sw) := fun s => by
  have hnoted : ZoneCalm s (captureNoted ch sw s) := by rw [captureNoted_frame]; exact ⟨rfl, rfl, .inl⟩
  show ZoneCalm s (if !homeSignal s ch sw && movingToward (s.mo.get ch).v sw then
    raiseChannel .hardLimit ch (captureNoted ch sw s) else captureNoted ch sw s)
  split
  · exact (raiseCause_calm _ _ _ _ _).after hnoted
  · exact hnoted

theorem execLimitFilteredChange_calm (ch : Chan) (sw : Switch) (active : Bool) (s : State) :
    AnswersCalm s (execLimitFilteredChange ch sw active s) := by
  unfold execLimitFilteredChange
  split
  · refine ZoneCalm.answers ?_
    split
    · exact (switchActive_calm ch sw _).after ⟨rfl, rfl, .inl⟩
    · exact ⟨rfl, rfl, .inl⟩
  · exact (ZoneCalm.refl s).answers

theorem execProvisionalCountNoted_calm (ch : Chan) (sw : Switch) (active : Bool) (s : State) :
    AnswersCalm s (execProvisionalCountNoted ch sw active s) := by
  unfold execProvisionalCountNoted
  split
  · refine ZoneCalm.answers ?_
    split <;> exact ⟨rfl, rfl, .inl⟩
  · exact (ZoneCalm.refl s).answers

theorem execServoUpdate_calm (ch : Chan) (s : State) : AnswersCalm s (execServoUpdate ch s) := by
  unfold execServoUpdate
  split
  · exact (ZoneCalm.refl s).answers
  · exact ZoneCalm.answers ((servoUpdate_calm ch _).after ((advanceTo_calm _ s).trans ⟨rfl, rfl, .inl⟩))

theorem execPwmPeriodStart_calm (ch : Chan) (s : State) : AnswersCalm s (execPwmPeriodStart ch s) := by
  unfold execPwmPeriodStart
  split <;> exact ZoneCalm.answers ⟨rfl, rfl, .inl⟩

theorem execRunTimerExpiry_calm (ch : Chan) (s : State) : AnswersCalm s (execRunTimerExpiry ch s) := by
  unfold execRunTimerExpiry
  split
  · exact (ZoneCalm.refl s).answers
  · next time _ =>
    have htimer : ZoneCalm s (timerStopped ch time s) := (advanceTo_calm time s).trans ⟨rfl, rfl, .inl⟩
    refine ZoneCalm.answers ?_
    split
    · exact (failRun_calm _ ch _).after htimer
    · exact htimer

theorem execWheelStaleExpiry_calm (ch : Chan) (s : State) : AnswersCalm s (execWheelStaleExpiry ch s) := by
  unfold execWheelStaleExpiry
  split
  · exact (ZoneCalm.refl s).answers
  · exact ZoneCalm.answers ((advanceTo_calm _ s).trans ⟨rfl, rfl, .inl⟩)

/-! ## The commands of the frame timer and of the trunk -/

theorem execFrefArrival_calm (s : State) : AnswersCalm s (execFrefArrival s) := by
  unfold execFrefArrival
  split
  · refine ZoneCalm.answers ?_
    split
    · exact ⟨rfl, rfl, .inl⟩
    · exact (frameEvent_calm _ _ _ _).after ⟨rfl, rfl, .inl⟩
  · exact (ZoneCalm.refl s).answers

theorem execFrameDeadlineExpiry_calm (s : State) : AnswersCalm s (execFrameDeadlineExpiry s) := by
  unfold execFrameDeadlineExpiry
  split
  · exact (ZoneCalm.refl s).answers
  · exact ZoneCalm.answers ((frameEvent_calm _ _ _ _).after (advanceTo_calm _ s))

theorem execFrameStart_calm (s : State) : AnswersCalm s (execFrameStart s) := by
  unfold execFrameStart; split <;> exact ZoneCalm.answers ⟨rfl, rfl, .inl⟩

theorem execLineQuiet_calm (heard : List Bool) (s : State) : AnswersCalm s (execLineQuiet heard s) := by
  have hquiet : ZoneCalm s (quietDeclared s) := (advanceTo_calm _ s).trans ⟨rfl, rfl, .inl⟩
  unfold execLineQuiet
  split
  · exact (ZoneCalm.refl s).answers
  · refine ZoneCalm.answers ?_
    split
    · exact (receive_calm heard _).after hquiet
    · exact hquiet

theorem execFrameOversize_calm (s : State) : AnswersCalm s (execFrameOversize s) := by
  unfold execFrameOversize; split <;> exact ZoneCalm.answers ⟨rfl, rfl, .inl⟩

theorem execPublishTimeExpiry_calm (s : State) : AnswersCalm s (execPublishTimeExpiry s) := by
  unfold execPublishTimeExpiry
  split
  · exact ZoneCalm.answers ((advanceTo_calm _ s).trans ⟨rfl, rfl, .inl⟩)
  all_goals exact (ZoneCalm.refl s).answers

theorem execWheelTimerExpiry_calm (s : State) : AnswersCalm s (execWheelTimerExpiry s) := by
  unfold execWheelTimerExpiry
  split
  · exact (ZoneCalm.refl s).answers
  · exact ZoneCalm.answers ((advanceTo_calm _ s).trans ⟨rfl, rfl, .inl⟩)

theorem execSendStart_calm (cls : FrameClass) (s : State) : AnswersCalm s (execSendStart cls s) := by
  unfold execSendStart
  split
  · split <;> exact ZoneCalm.answers ⟨rfl, rfl, .inl⟩
  · exact (ZoneCalm.refl s).answers

theorem execSendEnd_calm (others : List Bool) (s : State) : AnswersCalm s (exec (.sendEnd others) s) := by
  cases hflight : s.tk.flight with
  | none =>
    show AnswersCalm s (execSendEnd others s)
    rw [execSendEnd, hflight]
    exact (ZoneCalm.refl s).answers
  | some f =>
    rw [exec_sendEnd hflight, sent_frame]
    exact ZoneCalm.answers ⟨rfl, rfl, .inl⟩

/-! ## The commands of the zone monitor (R105, R106, R110) -/

/-- A presence change arms zones and starts holds. -/
theorem execPresenceFilteredChange_calm (line : Fin 4) (occupied : Bool) (s : State) :
    AnswersCalm s (execPresenceFilteredChange line occupied s) := by
  unfold execPresenceFilteredChange
  split
  · exact (ZoneCalm.refl s).answers
  · refine ZoneCalm.answers ((mapZones_calm (fun z => ?_) _).after ⟨rfl, rfl, .inl⟩)
    unfold localChange
    split_ifs <;> rfl

theorem execClearHoldExpiry_calm (zone : Nat) (s : State) : AnswersCalm s (execClearHoldExpiry zone s) := by
  unfold execClearHoldExpiry
  split
  · exact (ZoneCalm.refl s).answers
  · refine ZoneCalm.answers ((mapZones_calm (fun z => ?_) _).after (advanceTo_calm _ s))
    split <;> rfl

theorem execZoneScan_safe (h : ZoneSafe s) : AnswersSafe (exec .zoneScan s) := by
  cases hscan : s.zm.nextScan with
  | none =>
    show AnswersSafe (execZoneScan s)
    rw [execZoneScan, hscan]
    exact h.answers
  | some time =>
    rw [exec_zoneScan hscan]
    exact (scanned_safe time h).answers

/-! ## The commands of the stop controller (R122 to R126, R133) -/

theorem execEstopFilteredChange_calm (closed : Bool) (s : State) : AnswersCalm s (execEstopFilteredChange closed s) := by
  unfold execEstopFilteredChange
  split
  · exact (ZoneCalm.refl s).answers
  · refine ZoneCalm.answers ?_
    split
    · exact ⟨rfl, rfl, .inl⟩
    · exact (raiseCause_calm _ _ _ _ _).after ⟨rfl, rfl, .inl⟩

theorem execStopTimerExpiry_calm (s : State) : AnswersCalm s (execStopTimerExpiry s) := by
  unfold execStopTimerExpiry
  split
  · exact (ZoneCalm.refl s).answers
  · exact ZoneCalm.answers ((raiseCause_calm _ _ _ _ _).after ((advanceTo_calm _ s).trans ⟨rfl, rfl, .inl⟩))

theorem execBrakeTimerExpiry_calm (s : State) : AnswersCalm s (execBrakeTimerExpiry s) := by
  unfold execBrakeTimerExpiry
  split
  · exact (ZoneCalm.refl s).answers
  · exact ZoneCalm.answers ((enterHalted_calm _).after (advanceTo_calm _ s))

/-- The release timer runs in RELEASING alone, where the station is under way already. -/
theorem execReleaseTimerExpiry_calm (hstop : StopInv s) : AnswersCalm s (execReleaseTimerExpiry s) := by
  unfold execReleaseTimerExpiry
  split
  · exact (ZoneCalm.refl s).answers
  · next time htimer =>
    have hreleasing : s.sc.state = .releasing := hstop.releaseTimer.mp (by rw [htimer]; rfl)
    have hzm : (enterRun (advanceTo time s)).zm = s.zm := (enterRun_same _).zm.trans (advanceTo_zm time s)
    exact ZoneCalm.answers ⟨by rw [hzm], by rw [hzm], fun _ => .inl (by rw [hreleasing]; rfl)⟩

theorem execStopButtonPress_calm (s : State) : AnswersCalm s (execStopButtonPress s) := by
  unfold execStopButtonPress
  split
  · exact ZoneCalm.answers ((raiseCause_calm _ _ _ _ _).after ⟨rfl, rfl, .inl⟩)
  · exact (ZoneCalm.refl s).answers

/-! ## The commands of the take engine and of the desk unit -/

theorem KeepsCalm.desk_answers {f : State → State} (h : KeepsCalm f) (s : State) : AnswersCalm s (.next (deskCommand f s)) :=
  ZoneCalm.answers (deskCommand_induct (ZoneCalm s) f s (.refl s) (h s))

theorem startCueing_calm (s : State) : ZoneCalm s (startCueing s) := by
  have hall : TakeWork s (requestAll .cue (axisChans s) { s with te := { s.te with phase := .cueing, marks := .all false } }).2 :=
    (TakeWork.report s _ s.ts).trans (.requestAll _ _ _)
  unfold startCueing
  simp only []
  split
  · next heq =>
    rw [heq] at hall
    exact hall.calm
  · next heq =>
    rw [heq] at hall
    exact ((hall.trans (.hold _ _)).endPhase _ _).calm

theorem checkAnswer_calm (intact : Bool) : KeepsCalm (checkAnswer intact) := fun s => by
  unfold checkAnswer
  split
  · exact .refl s
  · split
    · exact ⟨rfl, rfl, .inl⟩
    · split
      · exact ⟨rfl, rfl, .inl⟩
      · exact startCueing_calm s

theorem execCheckRunCompletion_calm (s : State) : AnswersCalm s (execCheckRunCompletion s) := by
  unfold execCheckRunCompletion
  split
  · exact (ZoneCalm.refl s).answers
  · exact ZoneCalm.answers ((checkAnswer_calm _ _).after ((advanceTo_calm _ s).trans ⟨rfl, rfl, .inl⟩))

theorem execButtonPress_calm (b : Button) (s : State) : AnswersCalm s (execButtonPress b s) := by
  have hpublish : KeepsCalm (publishButton b) := fun s => by unfold publishButton; cases b <;> exact ⟨rfl, rfl, .inl⟩
  unfold execButtonPress
  split
  · refine ZoneCalm.answers ?_
    split
    · exact (hpublish _).after ⟨rfl, rfl, .inl⟩
    · exact ⟨rfl, rfl, .inl⟩
  · exact (ZoneCalm.refl s).answers

theorem execReleaseKeyPress_calm (s : State) : AnswersCalm s (execReleaseKeyPress s) := by
  unfold execReleaseKeyPress; split <;> exact ZoneCalm.answers ⟨rfl, rfl, .inl⟩

theorem execReleaseKeyLetgo_calm (s : State) : AnswersCalm s (execReleaseKeyLetgo s) := by
  unfold execReleaseKeyLetgo; split <;> exact ZoneCalm.answers ⟨rfl, rfl, .inl⟩

theorem execReleaseHoldExpiry_calm (s : State) : AnswersCalm s (execReleaseHoldExpiry s) := by
  unfold execReleaseHoldExpiry
  split
  · exact (ZoneCalm.refl s).answers
  · exact ZoneCalm.answers ((advanceTo_calm _ s).trans ⟨rfl, rfl, .inl⟩)

theorem execRefusalLampExpiry_calm (s : State) : AnswersCalm s (execRefusalLampExpiry s) := by
  unfold execRefusalLampExpiry
  split
  · exact (ZoneCalm.refl s).answers
  · exact ZoneCalm.answers ((advanceTo_calm _ s).trans ⟨rfl, rfl, .inl⟩)

theorem panelScan_calm : KeepsCalm panelScan := fun s => by
  have hwatch : ZoneCalm s (abortWatch s) := by
    unfold abortWatch
    split
    · exact .refl s
    · split <;> exact ⟨rfl, rfl, .inl⟩
  exact hwatch.trans ⟨rfl, rfl, .inl⟩

theorem execPanelScan_calm (s : State) : AnswersCalm s (execPanelScan s) := by
  unfold execPanelScan
  split
  · exact (ZoneCalm.refl s).answers
  · exact ZoneCalm.answers ((panelScan_calm _).after ((advanceTo_calm _ s).trans ⟨rfl, rfl, .inl⟩))

/-! ## Every command, and every step -/

/-- Every command but the resets, the finish and the scan leaves statuses and caps, and starts no station with a KEEP_OUT zone ENTERED. -/
theorem exec_safe (c : Instr) (hstop : StopInv s) (h : ZoneSafe s) : AnswersSafe (exec c s) := by
  cases c with
  | powerReset => exact (resetTo_safe _ _ s).answers
  | warmReset => exact (resetTo_safe _ _ s).answers
  | startUpFinish memory => exact execStartUpFinish_safe memory h
  | zoneScan => exact execZoneScan_safe h
  | resetRelease straps => exact (execResetRelease_calm straps s).safe h
  | legalTransition ch line => exact (execLegalTransition_calm ch line s).safe h
  | illegalTransition ch => exact (execIllegalTransition_calm ch s).safe h
  | leakEvent ch => exact (execLeakEvent_calm ch s).safe h
  | indexRise ch => exact (execIndexRise_calm ch s).safe h
  | analogConversion ch reading => exact (execAnalogConversion_calm ch reading s).safe h
  | limitFilteredChange ch sw active => exact (execLimitFilteredChange_calm ch sw active s).safe h
  | provisionalCountNoted ch sw active => exact (execProvisionalCountNoted_calm ch sw active s).safe h
  | servoUpdate ch => exact (execServoUpdate_calm ch s).safe h
  | pwmPeriodStart ch => exact (execPwmPeriodStart_calm ch s).safe h
  | runTimerExpiry ch => exact (execRunTimerExpiry_calm ch s).safe h
  | wheelStaleExpiry ch => exact (execWheelStaleExpiry_calm ch s).safe h
  | frefArrival => exact (execFrefArrival_calm s).safe h
  | frameDeadlineExpiry => exact (execFrameDeadlineExpiry_calm s).safe h
  | frameStart => exact (execFrameStart_calm s).safe h
  | lineQuiet heard => exact (execLineQuiet_calm heard s).safe h
  | frameOversize => exact (execFrameOversize_calm s).safe h
  | publishTimeExpiry => exact (execPublishTimeExpiry_calm s).safe h
  | wheelTimerExpiry => exact (execWheelTimerExpiry_calm s).safe h
  | sendStart cls => exact (execSendStart_calm cls s).safe h
  | sendEnd others => exact (execSendEnd_calm others s).safe h
  | presenceFilteredChange line occupied => exact (execPresenceFilteredChange_calm line occupied s).safe h
  | clearHoldExpiry zone => exact (execClearHoldExpiry_calm zone s).safe h
  | estopFilteredChange closed => exact (execEstopFilteredChange_calm closed s).safe h
  | stopTimerExpiry => exact (execStopTimerExpiry_calm s).safe h
  | brakeTimerExpiry => exact (execBrakeTimerExpiry_calm s).safe h
  | releaseTimerExpiry => exact (execReleaseTimerExpiry_calm hstop).safe h
  | stopButtonPress => exact (execStopButtonPress_calm s).safe h
  | checkRunCompletion => exact (execCheckRunCompletion_calm s).safe h
  | record serial take start =>
    exact ((takeCommand_calm serial (recordTake_yields _ _) (recordTake_stands _ _)).desk_answers s).safe h
  | endTake serial => exact ((takeCommand_calm serial endTake_yields endTake_stands).desk_answers s).safe h
  | cue serial take => exact ((takeCommand_calm serial (cueTake_yields _) (cueTake_stands _)).desk_answers s).safe h
  | run serial take start rate length =>
    exact ((takeCommand_calm serial (runTake_yields _ _ _ _) (runTake_stands _ _ _ _)).desk_answers s).safe h
  | abort serial => exact ((abortCommand_calm serial).desk_answers s).safe h
  | erase serial take => exact ((takeCommand_calm serial (eraseTake_yields _) (eraseTake_stands _)).desk_answers s).safe h
  | protect serial take => exact ((takeCommand_calm serial (protectTake_yields _) (protectTake_stands _)).desk_answers s).safe h
  | live serial => exact ((takeCommand_calm serial liveOrder_yields liveOrder_stands).desk_answers s).safe h
  | reference => exact (referenceCommand_calm.desk_answers s).safe h
  | release => exact (KeepsCalm.desk_answers (f := holdRelease) (fun _ => ⟨rfl, rfl, .inl⟩) s).safe h
  | buttonPress button => exact (execButtonPress_calm button s).safe h
  | releaseKeyPress => exact (execReleaseKeyPress_calm s).safe h
  | releaseKeyLetgo => exact (execReleaseKeyLetgo_calm s).safe h
  | releaseHoldExpiry => exact (execReleaseHoldExpiry_calm s).safe h
  | refusalLampExpiry => exact (execRefusalLampExpiry_calm s).safe h
  | panelScan => exact (execPanelScan_calm s).safe h

/-- Settles O58: a step is one command, or the station's own doing on an empty queue; a scan that leaves a KEEP_OUT zone ENTERED leaves the
station stopped, and only a release that finds none, or the end of one under way, leads to RUN. -/
theorem zonesKept : Obligations.ZonesKept := by
  intro s t hstop hzones hcaps hstep
  have h : ZoneSafe s := ⟨hzones, hcaps⟩
  suffices hsafe : AnswersSafe (step s) from ⟨(hsafe t hstep).zones, (hsafe t hstep).caps⟩
  unfold step
  split
  · exact (h.congr (idle_calm s)).answers
  · exact exec_safe _ (hstop.setPending _) (h.congr ⟨rfl, rfl, .inl⟩)

end Sys2Proof.Machine
end
